-- ==== Sys2Proof/Word.lean ====
section
/-!
DEFINITION. Word types of the block and their plainest arithmetic (00 R5, R6).
-/
namespace Sys2Proof

/-- One byte. -/
abbrev Byte := BitVec 8
/-- A byte sequence, lowest offset first. -/
abbrev Bytes := List (BitVec 8)
/-- A 16-bit field. -/
abbrev W16 := BitVec 16
/-- A 32-bit word: the width of every parameter object (14 R404). -/
abbrev W32 := BitVec 32
/-- A 64-bit value: the timebase, an EUI-64. -/
abbrev W64 := BitVec 64

end Sys2Proof
end

