-- ==== Sys2Proof/Syntax.lean ====
section
/-!
DEFINITION. The commands of the block: one constructor per row of spec/opcode_table.json, with the operands
that the outside world, the analogue side or the requester supplies. The table gives its rows no bits.
-/
namespace Sys2Proof

/-- Where a request came from (14 R396): one MAC address and VLAN on one host link, the console, one originating
device on the chain, or one application core (16 R449). -/
inductive Source where
  | host (link : Fin 2) (mac : BitVec 48) (vlan : Option (BitVec 12))
  | console
  | chain (addr : BitVec 6)
  | core (n : Fin 4)
deriving DecidableEq, Repr

/-- A request as it reaches execution (14 R384): source, TAG, DEST, FUNC, parameters, and the CRC that R400 compares. -/
structure Req where
  src : Source
  tag : W16
  dest : Byte
  func : Byte
  params : Bytes
  crc : W32
deriving DecidableEq, Repr

/-- A monitored supply rail (17 R456). -/
inductive Rail where
  | vddio | vdda | vdd | vddl | vdds
deriving DecidableEq, Repr

/-- What the tests of a whole-device reset find (17 R460, R520), in the order found. Banks are numbered
17 x region + index, clusters 0 to 19, lanes 0 to 39. -/
structure ResetFindings where
  romOk : Bool
  badBanks : List (Fin 68)
  deadBanks : List (Fin 68)
  badClusters : List (Fin 20)
  badD2L : List (Fin 40)
  badL2D : List (Fin 40)
  badEngines : List (Fin 16)
  /-- The 1024 samples of the start-up test of each random source (11 R308). -/
  trng : Vector (List Bool) 2
  drbgDead : Bool
  badSlices : List (Fin 9 × Fin 3)
  svcLow : Bool
  refByp : Bool
  durationUs : Nat
deriving DecidableEq, Repr

/-- What a port's start-up checks or a sounding measure (03 R75, R76): the mains residual in mVrms, the gain errors of the
two loopbacks at 1 MHz and 50 MHz in 0.01 dB, the transmit-to-receive ratios of the driver loopback there (04 R110),
magnitude (0.1 ohm) and phase (0.01 degree) at points 0 to 15, and the coupling to each port. -/
structure SoundMeas where
  mainsMv : Nat
  rxErr : Vector Int 2
  drvErr : Vector Int 2
  drvRatio : Vector (Rat × Rat) 2
  z : Vector (Nat × Int) 16
  coupling : Vector Byte 6
deriving DecidableEq, Repr

/-- The figures of the superframe just ended that only the analogue side and the fabric know (03 R71, 09 TR_BW). -/
structure SfFigures where
  drvPwr : Vector Nat 6
  bwUse : Vector Nat 6
deriving DecidableEq, Repr

/-- Samples of the receive converters of the six ports (03 R67): 14-bit codes at 200 MS/s, the newest, taken at TB now,
first. -/
abbrev Rx := Vector (List Int) 6

/-- One proposal of the slot scheduler (08 R243): the class of the list of R243 it belongs to, the group, the slots,
the descriptor KIND, the node, its user index, guard, and the most payload symbols asked for. The manual leaves the
choice of slots to the scheduler; the rules of R241 and R242 then accept or leave out each proposal. -/
structure Proposal where
  cls : Fin 8
  group : Fin 6
  first : Fin 16
  last : Fin 16
  kind : Fin 4
  node : BitVec 12
  gi : Fin 3
  nsymMax : BitVec 12
deriving DecidableEq, Repr

/-- A narrowband opening asked for by the scheduler (08 R240): superframe offset, first slot, count, kind, channel,
rate, bits per symbol and node. -/
structure NbOpening where
  group : Fin 6
  sfOfs : Byte
  first : Fin 16
  count : BitVec 12
  kind : Fin 4
  chan : Fin 8
  rate : Fin 3
  mod : Bool
  node : BitVec 12
deriving DecidableEq, Repr

/-- What fails when a unit not in use fails (01 R521). -/
inductive SpareUnit where
  | cluster (region : Fin 4) (unit : Fin 4) (err : BitVec 8)
  | bank (region : Fin 4)
  | laneD2L (lane : Fin 40)
  | laneL2D (lane : Fin 40)
deriving DecidableEq, Repr

/-- What the ECC of one Trellis access reports (09 R277, R278), or that the bank's port reports a parity error, with
whether the bank still answers (09 R280, R281). -/
inductive EccResult where
  | clean | corrected | uncorrectable
  /-- A path fault; the unit of a cluster that reads, where the client is one (01 R13). -/
  | pathFault (unit : Fin 4)
  | portFail (answers : Bool)
deriving DecidableEq, Repr

/-- One error that a scrub read finds: bank index, ECC word of the line and whether it was correctable (09 R279, R280). -/
structure ScrubFind where
  bank : Fin 17
  word : Fin 8
  uncorr : Bool
deriving DecidableEq, Repr

/-- Samples of a measurement slice's modulator (13 R361, R362): the 1-bit output at 6.25 MHz, and whether the input lay
beyond ±1.05 FS; the newest at or before TB now first. -/
abbrev ModRx := List (Bool × Bool)

/-- The three samples of each bit of a serial character, the start bit first (15 R420, R431). -/
abbrev CharSamples := List (BitVec 3)

/-- An Ethernet frame as the MAC receives it (14 R388, R389): its length with FCS, whether the FCS is good,
addresses, tag, Ethertype and payload. -/
structure EthFrame where
  len : Nat
  fcsOk : Bool
  dst : BitVec 48
  src : BitVec 48
  vlan : Option (BitVec 12)
  etype : W16
  payload : Bytes
deriving DecidableEq, Repr

/-- One result of the items of SVC_SELFTEST that the model's state does not hold (18 R485): units tested and passed. -/
structure SelftestFinding where
  item : Fin 10
  tested : Nat
  passed : Nat
  /-- Units that failed, where the rules of the test act on them: regions, clusters, engines. -/
  bad : List Nat
deriving DecidableEq, Repr

/-- The commands of the block, one per row of spec/opcode_table.json, in the table's order. -/
inductive Instr where
  -- reset, power, clocks
  | powerOn
  | brownout (rail : Rail)
  | resetNLow (lowNs : Nat)
  | resetClocksReady
  | wholeDeviceReset (f : ResetFindings)
  | domainTrip (d : Fin 30)
  | thermalShutdown
  | thermalRecovery
  | hotChange (temps : Vector Int 8)
  | mcLockstepMismatch
  | mcRestartDone (crcOk : Bool)
  | regionControllerMismatch (r : Fin 4)
  | regionControllerRestarted (r : Fin 4)
  | refclkLoss
  | refclkRestoreDetect
  | refclkSlewEnd
  -- mains tracking and the superframe
  | mainsCrossingCapture (ch : Fin 24) (rx : ModRx)
  | mainsCycleStart
  | mainsMissHoldover
  | chainSyncMiss
  | chainSyncEdge
  | chainSyncLowSeen
  | syncAnnounceSend
  | syncAnnouncement (tb : W64) (cycle : W32) (sfOffset : W16)
  | tbSlewAdjust
  | superframeStart (fig : SfFigures)
  | arqAckTimeout (node : BitVec 12) (seq : BitVec 12)
  | slotStart (slot : Fin 16)
  | scheduleFix (props : List Proposal) (opens : List NbOpening)
  | nodeSilenceLimit (node : BitVec 12)
  | leavingToFree (node : BitVec 12)
  | stepWatchEnd (g : Fin 6)
  -- events
  | eventRecordAccept (src : Fin 108)
  | eventRelease
  | eventPacketSend
  -- line ports
  | portStartupChecks (p : Fin 6)
  | portChecksDone (p : Fin 6) (m : SoundMeas)
  | clampEpisodeEnd (p : Fin 6)
  | clampTimeout (p : Fin 6)
  | portUnitFault (p : Fin 6) (unit : Fin 4) (err : BitVec 8)
  | agcUpdate (p : Fin 6) (rx : List Int)
  | readmitPeriodEnd
  -- broadband transmit
  | bbBurstTransmit (g : Fin 6) (underrunAfter : Option Nat)
  | downlinkEncode (g : Fin 6) (node : BitVec 12) (narrowband : Bool)
  | nbBurstTransmit (g : Fin 6) (ch : Fin 8)
  | shapeFadeStart (p : Fin 6)
  | shapeFadeEnd (p : Fin 6)
  -- broadband receive
  | bbPreambleDetect (g : Fin 6) (rx : Rx)
  | bbSecondaryDetect (g : Fin 6) (rx : Rx)
  | bbS9Found (g : Fin 6) (rx : Rx)
  | bbSyncTimeout (g : Fin 6)
  | bbCapture (g : Fin 6) (rx : Rx)
  | bbTrainingEnd (g : Fin 6) (rx : Rx)
  | bbFrameControl (g : Fin 6) (u : Fin 3) (rx : Rx)
  | bbPayloadSymbol (g : Fin 6) (rx : Rx)
  | bbStepReestimate (g : Fin 6) (u : Fin 3)
  | noiseMapBlock (p : Fin 6) (rx : List Int)
  -- codec
  | codewordDecodeStart (frame : Nat) (cw : Nat) (cluster : Fin 20)
  | outerRoundStart (frame : Nat)
  | codewordIteration (frame : Nat) (cw : Nat)
  | reprieveStart (cluster : Fin 20)
  | reprieveTimeout
  | decodeLag
  | lagModeExit
  | clusterFault (c : Fin 20) (unit : Fin 4) (err : BitVec 8)
  | spareFailed (u : SpareUnit)
  | spareLaneRetrain (failedD2L : List (Fin 40)) (failedL2D : List (Fin 40))
  | d2dLaneFault (l2d : Bool) (lane : Fin 40)
  | capacityUpdate
  -- narrowband receive
  | nbPreambleDetect (g : Fin 6) (ch : Fin 8) (rx : Rx)
  | nbSyncMatch (g : Fin 6) (ch : Fin 8) (rx : Rx)
  | nbSyncTimeout (g : Fin 6) (ch : Fin 8)
  | nbHeaderDecode (g : Fin 6) (ch : Fin 8)
  | nbSymbol (g : Fin 6) (ch : Fin 8) (rx : Rx)
  | nbCaptureArm (g : Fin 6) (ch : Fin 8)
  | nbCapture (g : Fin 6) (ch : Fin 8) (rx : Rx)
  | nbLostCarrier (g : Fin 6) (ch : Fin 8)
  | nbChannelTakesEffect (g : Fin 6) (ch : Fin 8)
  -- link layer
  | linkFrameOpen
  | linkFrameReceive
  | joinTrial
  -- Trellis
  | trellisAccess (client : BitVec 6) (addr : BitVec 23) (write : Bool) (data : List (Option Byte)) (ecc : List (Fin 8 × EccResult)) (wait : Nat)
    (within : Bool)
  | scrubRead (r : Fin 4) (finds : List ScrubFind) (portFail : Option (Fin 17 × Bool))
  | bankSwitch (r : Fin 4) (bad : List (Fin 2048 × Fin 8))
  | mirrorCopyDone (half : Fin 2)
  | bankRebuildDone (r : Fin 4)
  | trellisWipeComplete
  -- queues
  | packetCommit (q : Byte) (bytes : Nat) (mark : Bool) (tag : Byte)
  | packetAbort (q : Byte)
  | queueUnitWrite (q : Byte) (unit : BitVec 256)
  | queueConsumerRead (q : Byte) (pos : Nat)
  | packetRelease (q : Byte) (pos : Nat)
  | queuePointerMismatch (q : Byte) (consumerSide : Bool) (ptr : Fin 3) (first : W32) (second : W32)
  -- Cloche
  | clocheJobAssign (e : Fin 16)
  | clocheJobComplete (e : Fin 16)
  | engineFault (e : Fin 16) (kat : Bool)
  | engineIdleKat (e : Fin 16) (pass : Bool)
  | trngFail (src : Fin 2) (bits : List Bool)
  | drbgReseed (src : Fin 2) (raw : Bytes)
  | drbgHalt (requests : Nat)
  | clocheReady (src : Fin 2) (raw : Bytes)
  -- backhaul
  | virerFrameTransmit
  | virerFrameReceive (lane : Fin 8) (pos : Nat) (bytes : Bytes)
  | laneLos (lane : Fin 8)
  | laneLosClear (lane : Fin 8)
  | controlCycleEnd
  | graftFrameRelease (gid : Fin 16)
  | graftRealign (gid : Fin 16)
  | graftPacketReceive (gid : Fin 16)
  | pmSecond
  | pmBinClose (day : Bool)
  -- measurement
  | seqEntryIssue
  | sliceSettled (sl : Fin 9)
  | entryDelayEnd (sl : Fin 9)
  | measIntervalEnd (sl : Fin 9) (rx : ModRx)
  | phase4000Instant
  | triggerArmedInstant
  | loadStepDetect (sl : Fin 9) (rx : ModRx)
  | sliceRotation
  | rotationExchange
  | sliceCalibrationDone (sl : Fin 9) (refs : Vector (Rat × Rat × Rat) 5) (gainBad : Bool)
  | sliceRetire (sl : Fin 9) (reason : Fin 3)
  | measForward
  -- console
  | conCharReceive (v : CharSamples)
  | conBreak (v : CharSamples)
  | conIdle
  | conRxTimeout
  | xoffTimeout
  | conStuck
  | conStuckClear
  | caseriLine
  | caseriFrame
  | caseriFrameGap
  | conCfgSwitch (tx : Bool)
  -- chain
  | chainMessageReceive (chars : List CharSamples) (eni : Bool)
  | chainTxStart (eni : Bool)
  | chainArbitrationLost
  | chainMessageAbort
  | chainStuck
  | chainStuckClear
  | assignStart
  | assignOffer (n : BitVec 6) (eni : Bool)
  | assignAck (n : BitVec 6) (eui : W64)
  | assignOfferTimeout
  | assignEnd
  | assignResumeTimeout
  | wakeNotice
  | wakeCharacters (first : Byte) (second : Byte)
  | forwardTimeout (idx : Fin 8)
  | commandForward (opcode : W16) (r : Req)
  | forwardedReply (packet : Bytes)
  -- host links
  | hostFrameReceive (link : Fin 2) (f : EthFrame)
  | pauseReceive (link : Fin 2) (quanta : W16)
  | hostLinkState (link : Fin 2) (lock : Bool) (hiBer : Bool) (prbsErr : BitVec 12)
  | hostLinkUp (link : Fin 2)
  | dataPacketDownlink (link : Fin 2) (mac : BitVec 48) (vlan : Option (BitVec 12)) (packet : Bytes)
  | uplinkDataSend
  -- application cores
  | flashBoot (ofs : Byte) (answers : Bool) (sfdp : Bool) (image : Bytes)
  | coreStart (n : Fin 4)
  | imageCheckVerdict (n : Fin 4)
  | coreWatchdogExpire (n : Fin 4) (mepc : W32) (mtval : W32)
  | coreAccessFault (n : Fin 4) (poisoned : Bool) (mepc : W32) (mtval : W32)
  | coreTimerInterrupt (n : Fin 4)
  | appStopDone (n : Fin 4)
  -- life cycle, service, test access
  | lifeCycleCommit (f : ResetFindings)
  | meterRefresh (reading : Nat)
  | locateEnd
  | ledTestEnd
  | tapReset
  | tapInstructionUpdate (op : BitVec 6)
  | peekUpdate (addr : BitVec 23)
  | meterSelUpdate (v : Byte)
  | funcResetDone (func : Byte) (failed : Bool)
  -- requests: identity and parameters
  | ping (r : Req)
  | identify (r : Req)
  | paramRead (r : Req)
  | paramWrite (r : Req)
  | paramModify (r : Req)
  | rcObjectRead (r : Req)
  | w1cObjectWrite (func : Byte) (id : W16) (v : W32) (setNow : W32)
  | tbLoRead (r : Req)
  | mainsCtrlWrite (r : Req)
  | nbChWrite (r : Req)
  | nbSyncWrite (r : Req)
  | measChWrite (r : Req)
  | measSeqWrite (r : Req)
  | graftCfgWrite (r : Req)
  | conCfgWrite (r : Req)
  | evtCfgWrite (r : Req)
  | meterCtrlWrite (r : Req)
  -- requests: reset, power, life cycle
  | devReset (r : Req)
  | funcReset (r : Req)
  | funcRelease (r : Req)
  | pdSet (r : Req)
  | sleep (r : Req)
  | lcProvision (r : Req) (svcLow : Bool)
  | lcCommit (r : Req) (svcLow : Bool)
  | lcService (r : Req) (svcLow : Bool)
  | lcReturn (r : Req) (svcLow : Bool)
  | lcRetire (r : Req) (svcLow : Bool)
  -- requests: ports and broadband
  | portSound (r : Req)
  | portSoundDone (p : Fin 6) (m : SoundMeas)
  | portSoundRead (r : Req)
  | portRemove (r : Req)
  | portAdmit (r : Req)
  | bbMaskWrite (r : Req)
  | bbMaskRead (r : Req)
  | shapeWrite (r : Req)
  | shapePreset (r : Req)
  | shapeSwap (r : Req)
  | shapeRead (r : Req)
  | bbTxTest (r : Req)
  | bbTxTestDone (p : Fin 6) (rmsMv : W16) (clipped : W16) (bursts : W16)
  | bbRxLast (r : Req)
  | bbSnrArm (r : Req)
  | bbSnrRead (r : Req)
  | bbNoiseRead (r : Req)
  | decLast (r : Req)
  | codecTest (r : Req)
  | codecTestDone (c : Fin 20) (codewords : W16) (meanIt : W16) (failed : W16)
  | nbRxLast (r : Req)
  | nbLevel (r : Req)
  | nbTxTest (r : Req)
  | nbTxTestDone (p : Fin 6) (rmsMv : W16) (bursts : W16)
  -- requests: link layer
  | nodeRead (r : Req)
  | nodeFind (r : Req)
  | nodeEvict (r : Req)
  | tonemapRead (r : Req)
  | routeRead (r : Req)
  | schedRead (r : Req)
  | nodeRefresh (r : Req)
  | destSet (r : Req)
  | destRead (r : Req)
  -- requests: Cloche
  | crypt (r : Req)
  | rngRead (r : Req)
  | kekLoad (r : Req)
  | keyUnwrap (r : Req)
  | keySave (r : Req)
  | keyRestore (r : Req)
  | keyErase (r : Req)
  | keyInfo (r : Req)
  | ceTest (r : Req)
  | ceTestDone (e : Fin 16) (failCase : Fin 8)
  -- requests: backhaul
  | graftAdd (r : Req)
  | graftRemove (r : Req)
  | graftRead (r : Req)
  | bhPmRead (r : Req)
  | bhPmAlign (r : Req)
  | bhTraceRead (r : Req)
  | bhTraceLearn (r : Req)
  | bhLaneTest (r : Req)
  | bhLaneTestDone (lane : Fin 8)
  -- requests: measurement
  | measRead (r : Req)
  | measTrigger (r : Req)
  | measTrigAt (r : Req)
  | measSyscal (r : Req)
  | measSyscalDone (rx : ModRx)
  | measLast (r : Req)
  -- requests: chain, cores, service
  | chainAssign (r : Req)
  | chainAssignDone
  | chainWake (r : Req)
  | chainWakeSent
  | appLoad (r : Req)
  | appStart (r : Req)
  | appStop (r : Req)
  | svcSelftest (r : Req)
  | svcSelftestDone (finds : List SelftestFinding)
  | ledLocate (r : Req)
  | ledTest (r : Req)
  -- requests: events, Trellis, queues
  | evtRead (r : Req)
  | pmReadBlock (r : Req)
  | trWipe (r : Req)
  | trRepart (r : Req)
  | trBankTest (r : Req)
  | trBankTestDone (r : Fin 4) (result : Fin 3) (line : W16) (bits : W16) (bad : List (Fin 2048 × Fin 8))
  | trPeek (r : Req)
  | qRead (r : Req)
  | qWm (r : Req)
  -- core-local registers
  | intClrWrite (n : Fin 4) (v : W32)
  | inPopWrite (n : Fin 4)
  | outReqWrite (n : Fin 4) (v : W32)
  | outCommitWrite (n : Fin 4) (payload : Bytes)
  | outAbortWrite (n : Fin 4)
  | cjSubmitWrite (n : Fin 4) (addr : W32)
  | mboxWrite (n : Fin 4) (v : W32)
  | mboxClrWrite (n : Fin 4)
  | wdogKickWrite (n : Fin 4)
  -- rows added at the table's end
  | fawMatch (lane : Fin 8) (pos : Nat)
  | nbChannelSettled (g : Fin 6) (ch : Fin 8)
  | pauseExpire (link : Fin 2)
  | sliceSyncReset (sl : Fin 9)
  | nbChannelFloorUpdate (p : Fin 6) (ch : Fin 8) (rx : List Int)
  | slowClockChange (running : Bool)
deriving DecidableEq, Repr

end Sys2Proof
end

