-- ==== Sys2Proof/Decode.lean ====
section
/-!
DEFINITION. Reading a command from a table word. spec/opcode_table.json gives none of its rows any bits (the rows are
events and operations of the block, not encodings), so no word spells a command.
-/
namespace Sys2Proof

/-- The command that `nbits` bits `w` spell by the table: none, for the table gives no bits. -/
def decodeTableWord (_nbits _w : Nat) : Option Instr := none

end Sys2Proof
end

