-- ==== Sys2Proof/Config.lean ====
section
/-!
DEFINITION. What one device fixes (14 R516) and the values the manual leaves open. Each is an opaque constant: it has
no body, so no proof can see what it is and a statement holds whatever it is. Applied to a plain counter of State
(`free`), or to the operands it depends on, it gives the free value of one occasion.
-/
namespace Sys2Proof.Config

/-- EUI-64 of the device, set per device (14, identity objects). -/
opaque eui : W64
/-- MAC address of HL_0, set per device (14, identity objects). -/
opaque mac : BitVec 48
/-- ID_ROM: version and CRC-16 of the ROM image fitted; the manual fixes neither (14 R516). -/
opaque idRom : W32
/-- DRBG requests that the engines' masks, which take precedence (11 R306, R310), have used since the last draw of another
consumer, by occasion. -/
opaque engineRequests : Nat → Nat
/-- Whether a RESET_N pulse between the lengths of 20 (t_RSTL) resets the device, by occasion and length in ns. -/
opaque resetPulse : Nat → Nat → Bool
/-- Whether the quotient of a number and a divisor that does not divide it is rounded up: for results the manual defines
without their rounding, by the rule that defines them. -/
opaque roundUp : Nat → Int → Nat → Bool
/-- A figure the manual defines and for which it states no rounding or arithmetic width, by a number that names the
figure and the exact operands; each use names its rule. -/
opaque figure : Nat → List Int → Int
/-- How far a value that is not rational lies from its series, by function and argument; `near` bounds it. -/
opaque slack : Nat → Rat → Rat
/-- A sampled signal between its samples, newest first, at a position counted back from the newest: the interpolation of
the fractional resampler (04 R111, 05 R131), for which the manual gives no filter. -/
opaque interpolate : List Int → Rat → Rat
/-- Tap i, 0 to 11, of the 24-tap droop-compensation filter of an order (07 R207): the manual gives its response. -/
opaque firTap : Nat → Nat → Rat
/-- The symbol timing that a V-unit recovers from the combined outputs (07 R215), in fine outputs from the first. -/
opaque symbolTiming : List (Rat × Rat) → Rat
/-- The soft value (LLR) of bit i of a GFSK symbol: bits per symbol, four levels, BT 0.35, the combined fine outputs of the
symbol and of its neighbours, and i (07 R206): the manual gives no demapping. -/
opaque gfskLlr : Nat → Bool → Bool → List (Rat × Rat) → Nat → Rat
/-- Base of the ring of packet queue QID inside partition 4 (10, catalogue): the manual gives sizes, no order. -/
opaque ringBase : Nat → Nat
/-- Which codeword in flight of a port's Furrow area a word of partition 1 holds, by address, in the order of frames and codewords
(06 R166): the manual gives the area, not its layout. -/
opaque furrow : Nat → Nat
/-- Which Graft a word of the skew partition serves, by address (09 R278): the manual gives no layout. -/
opaque skewGraft : Nat → Nat
/-- Coefficient i of shaping preset p (04, presets): the manual gives responses, no coefficients. -/
opaque presetCoef : Nat → Nat → BitVec 16

end Sys2Proof.Config
end

