-- ==== Sys2Proof/Machine/Operands.lean ====
section
/-!
DEFINITION. Operand forms: byte order (00 R6), bit fields (00 R5), slices of parameter bytes, and the two checksums of
the packets (14 R385, 04 R100).
-/
namespace Sys2Proof.Machine

/-- The n bytes of v, most significant first (00 R6). -/
def beBytes : Nat → Nat → Bytes
  | 0, _ => []
  | n + 1, v => BitVec.ofNat 8 (v >>> (8 * n)) :: beBytes n v

/-- The number that bytes spell, most significant first (00 R6). -/
def beNat (b : Bytes) : Nat := b.foldl (fun a x => a * 256 + x.toNat) 0

/-- n bytes from offset o; bytes past the end read zero. -/
def slice (b : Bytes) (o n : Nat) : Bytes :=
  let t := (b.drop o).take n
  t ++ List.replicate (n - t.length) 0

/-- The unsigned number in the n bytes at offset o. -/
def beAt (b : Bytes) (o n : Nat) : Nat := beNat (slice b o n)

/-- The byte at offset o. -/
def byteAt (b : Bytes) (o : Nat) : Nat := beAt b o 1

/-- Bits hi down to lo of a number (00 R5). -/
def nfield (v hi lo : Nat) : Nat := (v >>> lo) % 2 ^ (hi + 1 - lo)

/-- A two's-complement reading of the low n bits of v. -/
def signedOf (n v : Nat) : Int :=
  let m := v % 2 ^ n
  if m < 2 ^ (n - 1) then (m : Int) else (m : Int) - (2 ^ n : Nat)

/-- The low n bits of a signed number. -/
def toBits (n : Nat) (v : Int) : Nat := (v % ((2 ^ n : Nat) : Int)).toNat

/-- Clamp to a range. -/
def clampInt (lo hi v : Int) : Int := if v < lo then lo else if v > hi then hi else v

/-- The mask of bits hi down to lo. -/
def fmask (hi lo : Nat) : W32 := BitVec.ofNat 32 (2 ^ (hi + 1 - lo) - 1) <<< lo

/-- Bits hi down to lo of a word (00 R5). -/
def fget (w : W32) (hi lo : Nat) : Nat := (w.extractLsb' lo (hi + 1 - lo)).toNat

/-- The word with bits hi down to lo replaced by v. -/
def fput (w : W32) (hi lo v : Nat) : W32 :=
  (w &&& ~~~ fmask hi lo) ||| ((BitVec.ofNat 32 v <<< lo) &&& fmask hi lo)

/-- Saturating addition of k to the field hi down to lo. -/
def fbump (w : W32) (hi lo k : Nat) : W32 :=
  fput w hi lo (min (fget w hi lo + k) (2 ^ (hi + 1 - lo) - 1))

/-- One bit of a number. -/
def nbit (v i : Nat) : Bool := (v >>> i) % 2 == 1

/-- A Bool as a bit. -/
def b2n (b : Bool) : Nat := if b then 1 else 0

/-- One bit step of a reflected CRC with polynomial p. -/
def crcRefBit (p c : Nat) : Nat := if c % 2 = 1 then (c / 2) ^^^ p else c / 2

/-- One byte step of a reflected CRC. -/
def crcRefByte (p c : Nat) (x : Byte) : Nat := (List.range 8).foldl (fun a _ => crcRefBit p a) (c ^^^ x.toNat)

/-- CRC-32C (14 R385): polynomial 0x1EDC_6F41 (reflected 0x82F6_3B78), initial and final 0xFFFF_FFFF. -/
def crc32c (b : Bytes) : Nat := (b.foldl (crcRefByte 0x82F63B78) 0xFFFFFFFF) ^^^ 0xFFFFFFFF

/-- CRC-32 of IEEE 802.3, reflected 0xEDB8_8320, initial and final 0xFFFF_FFFF. -/
def crc32 (b : Bytes) : Nat := (b.foldl (crcRefByte 0xEDB88320) 0xFFFFFFFF) ^^^ 0xFFFFFFFF

/-- One bit step of a CRC of width n sent most significant bit first. -/
def crcMsbBit (n p c : Nat) : Nat :=
  if nbit c (n - 1) then ((c * 2) % 2 ^ n) ^^^ p else (c * 2) % 2 ^ n

/-- A CRC of width n over bits, most significant first. -/
def crcBits (n p : Nat) (c : Nat) (bs : List Bool) : Nat :=
  bs.foldl (fun a b => crcMsbBit n p (a ^^^ (b2n b * 2 ^ (n - 1)))) c

/-- The 8 bits of a byte, most significant first. -/
def bitsOfByte (x : Byte) : List Bool := (List.range 8).map (fun i => nbit x.toNat (7 - i))

/-- The bits of a byte list, each byte most significant bit first. -/
def bitsOfBytes (b : Bytes) : List Bool := b.flatMap bitsOfByte

/-- The low n bits of v, most significant first. -/
def bitsOf (n v : Nat) : List Bool := (List.range n).map (fun i => nbit v (n - 1 - i))

/-- The number that bits spell, most significant first. -/
def bitsToNat (b : List Bool) : Nat := b.foldl (fun a x => 2 * a + b2n x) 0

/-- CRC-16 of 04 R100: polynomial 0x1021, initial 0xFFFF, no reflection, no final inversion. -/
def crc16 (b : Bytes) : Nat := crcBits 16 0x1021 0xFFFF (bitsOfBytes b)

/-- CRC-8 of 07 R200: polynomial 0x07, initial 0. -/
def crc8 (bs : List Bool) : Nat := crcBits 8 0x07 0 bs

/-- The ASCII bytes of a text. -/
def ascii (t : String) : Bytes := t.toList.map (fun c => BitVec.ofNat 8 c.toNat)

/-- The ceiling of a / b. -/
def cdiv (a b : Nat) : Nat := (a + b - 1) / b

/-- n / d where that is whole; else one of the two whole numbers around it, for a result whose rounding the manual does
not state. -/
def rndDiv (rule : Nat) (n : Int) (d : Nat) : Int :=
  n / d + (if n % d = 0 then 0 else if Config.roundUp rule n d then 1 else 0)

/-- Floor of a square root, by bisection on n bits. -/
def isqrtAux : Nat → Nat → Nat → Nat
  | 0, _, r => r
  | n + 1, v, r => let t := r + 2 ^ n; isqrtAux n v (if t * t ≤ v then t else r)

/-- Floor of the square root of a number below 2^128. -/
def isqrt (v : Nat) : Nat := isqrtAux 64 v 0

end Sys2Proof.Machine
end

