-- ==== Sys2Proof/Machine/Crypto.lean ====
section
/-!
DEFINITION. The ciphers of the Cloche (11 R305, R317): AES of FIPS 197, CCM, GCM, CMAC and KW, and its random sources
(11 R308, R310): the health tests of SP 800-90B and the CTR_DRBG of SP 800-90A. The manual names the
standards; their arithmetic is taken from them (PRESUMED, log).
-/
namespace Sys2Proof.Machine

/-- The S-box of FIPS 197, entry a in bits 8a + 7 down to 8a. -/
def sboxTable : Nat :=
  0x1531d871f1e5a534ccf73f362693fdb7c072a49cafa2d4adf04759fa7dc982ca76abd7fe2b670130c56f6bf27b777c63
    + (0xcf584c4a39becb6a5bb1fc20ed00d153842fe329b3d63b52a05a6e1b1a2c830975b227ebe28012079a059618c323c704 <<< 384)
    + (0x73195d643d7ea7c41744975fec130ccdd2f3ff1021dab6bcf5389d928f40a351a89f3c507f02f94585334d43fbaaefd0 <<< 768)
    + (0x08ae7a65eaf4566ca94ed58d6d37c8e779e4959162acd3c25c2406490a3a32e0db0b5ede14b8ee4688902a22dc4f8160 <<< 1152)
    + (0xdf2855cee9871e9b948ed9691198f8e19e1dc186b95735610ef6034866b53e708a8bbd4b1f74dde8c6b4a61c2e2578ba <<< 1536)
    + (0x16bb54b00f2d99416842e6bf0d89a18c <<< 1920)

/-- The inverse S-box, in the same form. -/
def invTable : Nat :=
  0x4ec3fa420b954cee3d23c2a632947b54cbe9dec444438e3487ff2f9b8239e37cfbd7f3819ea340bf38a53630d56a0952
    + (0x849d8da75746155edab9edfd5048706c92b6655dcc5ca4d41698688664f6f87225d18b6d49a25b76b224d92866a12e08 <<< 384)
    + (0x73e6b4f0cecff297eadc674f4111913a6b8a130103bdafc1020f3fca8f1e2cd00645b3b80558e4f70ad3bc8c00abd890 <<< 768)
    + (0xf45acd78fec0db9a2079d2c64b3e56fc1bbe18aa0e62b76f89c5291d711af1476edf751ce837f9e28535ade72274ac96 <<< 1152)
    + (0x619953833cbbebc8b0f52aae4d3be0a0ef9cc9939f7ae52d0d4ab519a97f51605fec8027591012b131c7078833a8dd1f <<< 1536)
    + (0x7d0c2155631469e126d677ba7e042b17 <<< 1920)

/-- The S-box and the inverse S-box. -/
def sbox (a : Nat) : Nat := (sboxTable >>> (8 * a)) % 256
def invSbox (a : Nat) : Nat := (invTable >>> (8 * a)) % 256

/-- Byte-wise exclusive or. -/
def xorB (a b : List Nat) : List Nat := List.zipWith (fun x y => x ^^^ y) a b

/-- The number that a block spells, its first byte most significant: the form of the AES state here. -/
def blkNat (b : List Nat) : Nat := b.foldl (fun a x => a * 256 + x) 0

/-- The sixteen bytes of such a number. -/
def natBlk (s : Nat) : List Nat := (List.range 16).map (fun k => (s >>> (8 * (15 - k))) % 256)

/-- SubWord and RotWord. -/
def subWord (t : Nat) : Nat := (List.range 4).foldl (fun a k => a * 256 + sbox ((t >>> (8 * (3 - k))) % 256)) 0
def rotWord (t : Nat) : Nat := (t % 2 ^ 24) * 256 + t >>> 24

/-- Round constants, from the first. -/
def rcon (i : Nat) : Nat := [0x01, 0x02, 0x04, 0x08, 0x10, 0x20, 0x40, 0x80, 0x1B, 0x36].getD (i - 1) 0 <<< 24

/-- The words of the expanded key, the last first: nk is 4 or 8. -/
def keyWords (nk : Nat) (key : List Nat) : List Nat :=
  let w0 := (List.range nk).map (fun i => blkNat ((key.drop (4 * (nk - 1 - i))).take 4))
  (List.range (4 * (nk + 7) - nk)).foldl (fun (w : List Nat) j =>
    let i := nk + j
    let t := w.getD 0 0
    let t :=
      if i % nk = 0 then subWord (rotWord t) ^^^ rcon (i / nk)
      else if nk = 8 ∧ i % nk = 4 then subWord t else t
    (w.getD (nk - 1) 0 ^^^ t) :: w) w0

/-- Round key r of words `w`, the first word first. -/
def roundKey (w : List Nat) (r : Nat) : Nat := ((w.drop (4 * r)).take 4).foldl (fun a x => a * 2 ^ 32 + x) 0

/-- A table on every byte of a state after ShiftRows, by `d` columns per row (1 forward, 3 inverse). -/
def subShift (f : Nat → Nat) (d : Nat) (s : Nat) : Nat :=
  (List.range 16).foldl (fun a k => a * 256 + f ((s >>> (8 * (15 - (4 * ((k / 4 + d * (k % 4)) % 4) + k % 4)))) % 256)) 0

/-- Every byte of a state times x in the AES field. -/
def xtimes (s : Nat) : Nat :=
  ((s &&& 0x7f7f7f7f7f7f7f7f7f7f7f7f7f7f7f7f) <<< 1) ^^^ (((s >>> 7) &&& 0x01010101010101010101010101010101) * 0x1B)

/-- Every column of a state moved up by one byte. -/
def rotCols (s : Nat) : Nat :=
  ((s &&& 0x00ffffff00ffffff00ffffff00ffffff) <<< 8) + ((s >>> 24) &&& 0x000000ff000000ff000000ff000000ff)

/-- MixColumns: with r one row on, 2s + 3r and the two rows after r. -/
def mixCols (s : Nat) : Nat :=
  let r := rotCols s
  xtimes (s ^^^ r) ^^^ r ^^^ rotCols r ^^^ rotCols (rotCols r)

/-- The inverse of MixColumns, whose matrix is that of MixColumns times the one with rows 5, 0, 4, 0. -/
def invMixCols (s : Nat) : Nat := mixCols (s ^^^ xtimes (xtimes (s ^^^ rotCols (rotCols s))))

/-- One AES block. -/
def aesEnc (nk : Nat) (w : List Nat) (b : Nat) : Nat :=
  let nr := nk + 6
  let s := (List.range (nr - 1)).foldl (fun s i => mixCols (subShift sbox 1 s) ^^^ roundKey w (i + 1)) (b ^^^ roundKey w 0)
  subShift sbox 1 s ^^^ roundKey w nr

/-- One inverse AES block. -/
def aesDec (nk : Nat) (w : List Nat) (b : Nat) : Nat :=
  let nr := nk + 6
  let s := (List.range (nr - 1)).foldl (fun s i => invMixCols (subShift invSbox 3 s ^^^ roundKey w (nr - 1 - i)))
    (b ^^^ roundKey w nr)
  subShift invSbox 3 s ^^^ roundKey w 0

/-- Words of the expanded key of 16 or 32 bytes, and the number of words of the key. -/
def keyNk (key : Bytes) : Nat := if key.length = 32 then 8 else 4
def expandedKey (key : Bytes) : List Nat := (keyWords (keyNk key) (key.map (·.toNat))).reverse

/-- Bytes as numbers. -/
def toNats (b : Bytes) : List Nat := b.map (·.toNat)
/-- Numbers as bytes. -/
def ofNats (b : List Nat) : Bytes := b.map (BitVec.ofNat 8)

/-- AES under a key of 16 or 32 bytes, and its inverse. -/
def aesBlock (key : Bytes) (b : List Nat) : List Nat := natBlk (aesEnc (keyNk key) (expandedKey key) (blkNat b))
def aesInverse (key : Bytes) (b : List Nat) : List Nat := natBlk (aesDec (keyNk key) (expandedKey key) (blkNat b))

/-- Data cut into blocks of 16, the last filled with zeros. -/
def blocks16 (d : List Nat) : List (List Nat) :=
  (List.range (cdiv d.length 16)).map (fun i =>
    let t := (d.drop (16 * i)).take 16
    t ++ List.replicate (16 - t.length) 0)

/-- CBC-MAC over whole blocks. -/
def cbcMac (key : Bytes) (bs : List (List Nat)) : List Nat :=
  bs.foldl (fun y b => aesBlock key (xorB y b)) (List.replicate 16 0)

/-- Counter-mode keystream over data; `ctr i` is counter block i. -/
def ctrXor (key : Bytes) (ctr : Nat → List Nat) (d : List Nat) : List Nat :=
  (List.range (cdiv d.length 16)).flatMap (fun i =>
    xorB ((d.drop (16 * i)).take 16) (aesBlock key (ctr i)))

/-- The CCM MAC before encryption (SP 800-38C, q = 2). -/
def ccmMac (key nonce ad data : Bytes) (tl : Nat) : List Nat :=
  let b0 := [(if ad.isEmpty then 0 else 64) + 8 * ((tl - 2) / 2) + 1] ++ toNats nonce ++ toNats (beBytes 2 data.length)
  let adb := if ad.isEmpty then [] else blocks16 (toNats (beBytes 2 ad.length) ++ toNats ad)
  (cbcMac key (b0 :: adb ++ blocks16 (toNats data))).take tl

/-- CCM counter block i. -/
def ccmCtr (nonce : Bytes) (i : Nat) : List Nat := [1] ++ toNats nonce ++ toNats (beBytes 2 i)

/-- CCM seal: ciphertext and tag. -/
def ccmSeal (key nonce ad data : Bytes) (tl : Nat) : Bytes × Bytes :=
  let c := ctrXor key (fun i => ccmCtr nonce (i + 1)) (toNats data)
  (ofNats c, ofNats (xorB (ccmMac key nonce ad data tl) (aesBlock key (ccmCtr nonce 0))))

/-- CCM open: the plaintext, and whether the tag verifies. -/
def ccmOpen (key nonce ad c tag : Bytes) : Bytes × Bool :=
  let p := ofNats (ctrXor key (fun i => ccmCtr nonce (i + 1)) (toNats c))
  (p, ofNats (xorB (ccmMac key nonce ad p tag.length) (aesBlock key (ccmCtr nonce 0))) == tag)

/-- Product in the GHASH field, blocks as 128-bit numbers, most significant bit first. -/
def ghMul (x y : Nat) : Nat :=
  ((List.range 128).foldl (fun (p : Nat × Nat) i =>
    (if nbit x (127 - i) then p.1 ^^^ p.2 else p.1,
     if nbit p.2 0 then (p.2 >>> 1) ^^^ (0xE1 <<< 120) else p.2 >>> 1)) (0, y)).1

/-- GHASH of AD and ciphertext. -/
def ghash (h : Nat) (ad c : Bytes) : List Nat :=
  let bs := blocks16 (toNats ad) ++ blocks16 (toNats c)
    ++ [toNats (beBytes 8 (8 * ad.length) ++ beBytes 8 (8 * c.length))]
  toNats (beBytes 16 (bs.foldl (fun y b => ghMul (y ^^^ blkNat b) h) 0))

/-- GCM with a 96-bit IV: the tag of a ciphertext. -/
def gcmTag (key iv ad c : Bytes) (tl : Nat) : Bytes :=
  let h := blkNat (aesBlock key (List.replicate 16 0))
  (ofNats (xorB (ghash h ad c) (aesBlock key (toNats (iv ++ beBytes 4 1))))).take tl

/-- GCM encryption or decryption of the data. -/
def gcmXor (key iv d : Bytes) : Bytes := ofNats (ctrXor key (fun i => toNats (iv ++ beBytes 4 (i + 2))) (toNats d))

/-- GCM seal. -/
def gcmSeal (key iv ad data : Bytes) (tl : Nat) : Bytes × Bytes :=
  let c := gcmXor key iv data
  (c, gcmTag key iv ad c tl)

/-- GCM open. -/
def gcmOpen (key iv ad c tag : Bytes) : Bytes × Bool := (gcmXor key iv c, gcmTag key iv ad c tag.length == tag)

/-- Doubling for the CMAC subkeys. -/
def cmacDbl (x : Nat) : Nat := if nbit x 127 then ((2 * x) % 2 ^ 128) ^^^ 0x87 else 2 * x

/-- CMAC. -/
def cmac (key data : Bytes) : Bytes :=
  let k1 := cmacDbl (blkNat (aesBlock key (List.replicate 16 0)))
  let k2 := cmacDbl k1
  let n := max 1 (cdiv data.length 16)
  let last := toNats (data.drop (16 * (n - 1)))
  let fin := if last.length = 16 then xorB last (toNats (beBytes 16 k1))
    else xorB (last ++ [0x80] ++ List.replicate (15 - last.length) 0) (toNats (beBytes 16 k2))
  ofNats (cbcMac key (blocks16 (toNats (data.take (16 * (n - 1)))) ++ [fin]))

/-- KW wrapping (SP 800-38F). -/
def kwWrap (key data : Bytes) : Bytes :=
  let n := data.length / 8
  let r0 := (List.range n).map (fun i => toNats (slice data (8 * i) 8))
  let f := (List.range (6 * n)).foldl (fun (s : List Nat × List (List Nat)) t =>
    let i := t % n
    let b := aesBlock key (s.1 ++ s.2.getD i [])
    (xorB (b.take 8) (toNats (beBytes 8 (t + 1))), s.2.set i (b.drop 8))) (List.replicate 8 0xA6, r0)
  ofNats (f.1 ++ f.2.flatMap id)

/-- KW unwrapping: the data, and whether the integrity check value is right. -/
def kwUnwrap (key data : Bytes) : Bytes × Bool :=
  let n := data.length / 8 - 1
  let r0 := (List.range n).map (fun i => toNats (slice data (8 * (i + 1)) 8))
  let f := (List.range (6 * n)).foldl (fun (s : List Nat × List (List Nat)) u =>
    let t := 6 * n - u
    let i := (t - 1) % n
    let b := aesInverse key (xorB s.1 (toNats (beBytes 8 t)) ++ s.2.getD i [])
    (b.take 8, s.2.set i (b.drop 8))) (toNats (slice data 0 8), r0)
  (ofNats (f.2.flatMap id), f.1 == List.replicate 8 0xA6)

-- Random sources.

/-- The longest run of equal bits reaches n (11 R308): the repetition count test fails. -/
def repeats (n : Nat) (bits : List Bool) : Bool :=
  let step := fun (a : Nat × Option Bool × Bool) b =>
    let k := if a.2.1 = some b then a.1 + 1 else 1
    (k, some b, a.2.2 || decide (n ≤ k))
  (bits.foldl step (0, none, false)).2.2

/-- Some window of 1024 bits holds its first bit 600 times or more (11 R308): the adaptive proportion test fails. -/
def lopsided (bits : List Bool) : Bool :=
  (List.range (cdiv bits.length 1024)).any (fun i =>
    let w := (bits.drop (1024 * i)).take 1024
    decide (600 ≤ (w.filter (fun b => w.head? = some b)).length))

/-- The health test that a stretch of raw bits fails: 0 repetition count, 1 adaptive proportion. -/
def healthTest (bits : List Bool) : Option Nat :=
  if repeats 41 bits then some 0 else if lopsided bits then some 1 else none

/-- Key and V of the CTR_DRBG. -/
abbrev Drbg := BitVec 256 × BitVec 128

/-- Block i of the output of a DRBG: V + i + 1 under its key. -/
def drbgBlock (d : Drbg) (i : Nat) : Nat :=
  aesEnc 8 (expandedKey (beBytes 32 d.1.toNat)) (d.2 + BitVec.ofNat 128 (i + 1)).toNat

/-- The update function with 384 bits of data (SP 800-90A). -/
def drbgUpdate (x : Nat) (d : Drbg) : Drbg :=
  let t := (drbgBlock d 0 * 2 ^ 256 + drbgBlock d 1 * 2 ^ 128 + drbgBlock d 2) ^^^ x
  (BitVec.ofNat 256 (t / 2 ^ 128), BitVec.ofNat 128 t)

/-- The derivation function: seed material conditioned to 384 bits (11 R310). -/
def drbgSeed (raw : Bytes) : Nat :=
  let d := blocks16 (toNats (beBytes 4 raw.length ++ beBytes 4 48 ++ raw ++ [0x80]))
  let bcc := fun i => ofNats (cbcMac ((List.range 32).map (BitVec.ofNat 8)) (toNats (beBytes 4 i ++ List.replicate 12 0) :: d))
  let key := bcc 0 ++ bcc 1
  let x1 := aesBlock key (toNats (bcc 2))
  let x2 := aesBlock key x1
  blkNat (x1 ++ x2 ++ aesBlock key x2)

/-- One request of 4096 output bits, and the DRBG after it (11 R311). -/
def drbgRequest (d : Drbg) : Bytes × Drbg :=
  ((List.range 32).flatMap (fun i => beBytes 16 (drbgBlock d i)), drbgUpdate 0 (d.1, d.2 + 32))

/-- n requests in turn: their output, and the DRBG after them. -/
def drbgRequests : Nat → Drbg → Bytes × Drbg
  | 0, d => ([], d)
  | n + 1, d =>
    let a := drbgRequest d
    let b := drbgRequests n a.2
    (a.1 ++ b.1, b.2)

end Sys2Proof.Machine
end

