-- ==== Sys2Proof/Machine/State.lean ====
section
/-!
DEFINITION. The state of the block as plain data, the reasons a step can stop, and the state after reset. Parameter
objects (14 R404) are held in one register file `regs`, keyed FUNC × 65536 + ID, listing what differs from the Reset
column; everything that no object holds has a field of its own.
-/
namespace Sys2Proof.Machine

/-- Why a step stops. No rule of the manual stops the device for good; see the constructor. -/
inductive Fault where
  /-- Raised by a meaning whose operands describe nothing the hardware can meet (a list of the wrong length): such a
  command is ill-formed by WellFormed. Safe: the model stops where no device is. -/
  | illFormed
deriving DecidableEq, Repr, Inhabited

/-- Why a command is rejected. -/
inductive Refusal where
  /-- A command without a meaning yet, by mnemonic. Raised only by an arm of exec. Safe. -/
  | notModelled (mnemonic : String)
deriving DecidableEq, Repr, Inhabited

/-- State of a power domain (17, domain states). -/
inductive DomSt where
  | off | on | tripped | retain
deriving DecidableEq, Repr, Inhabited

/-- What the whole device is doing (17 R456, R460, R468, R472, R518). -/
inductive Phase where
  /-- Held in reset by a condition of R456. -/
  | heldInReset
  /-- Waiting for REF_OK and SLOW_OK before t0 (R460). -/
  | waitClocks
  /-- From t0 to the end of the sequence of R460. -/
  | resetRun
  /-- The management controller halted on a failed ROM check (R518). -/
  | romHalt
  /-- Held in reset until the junctions cool (R472). -/
  | thermal
  /-- SLEEP (R468). -/
  | asleep
  /-- In service. -/
  | running
deriving DecidableEq, Repr, Inhabited

/-- Tracking state (02 R48). -/
inductive Track where
  | free | acquire | locked | slew | holdover | chain
deriving DecidableEq, Repr, Inhabited

/-- An event record before its ESN (02 R59, R64). -/
structure EvRec where
  src : Nat
  func : Byte
  late : Bool
  sev : BitVec 3
  tb : W64
  code : W16
  data : Bytes
deriving DecidableEq, Repr, Inhabited

/-- The local queue of one event source (02 R59). -/
structure SrcQ where
  q : List EvRec
  dropped : Nat
  first : W64
deriving DecidableEq, Repr, Inhabited

/-- A committed packet of a packet queue (10 R292): position of its length word, the word's fields and the payload. -/
structure Pkt where
  pos : Nat
  client : BitVec 6
  released : Bool
  mark : Bool
  tag : Byte
  tb : W32
  data : Bytes
deriving DecidableEq, Repr, Inhabited

/-- One queue (10 R288 to R303). Crossing queues use `words`, packet queues `pkts` and the packet being written. -/
structure Que where
  wp : Nat
  pp : Nat
  rp : Nat
  pkts : List Pkt
  words : List (BitVec 256)
  writing : Option Bytes
  discarding : Bool
  lastRead : BitVec 256
  above : Bool
  up : Bool
  down : Bool
  underrun : Bool
  wm : Byte
  hyst : Byte
  peak : Nat
  upCount : Nat
  downCount : Nat
  aborts : Nat
  drops : Nat
  oversize : Nat
  faults : Nat
  underruns : Nat
  heldR291 : Bool
deriving DecidableEq, Repr, Inhabited

/-- A deferred command that is running (14 R398, R399): opcode, request, and figures its completion needs. -/
structure Deferred where
  op : W16
  req : Req
  aux : List Nat
deriving DecidableEq, Repr

/-- A kept reply (14 R400). -/
structure Kept where
  op : W16
  req : Req
  packet : Bytes
  tb : W64
deriving DecidableEq, Repr

/-- A forwarded request outstanding (14 R395); sent holds TB of the last stop bit once the message has left. -/
structure Forward where
  op : W16
  req : Req
  sent : Option W64
deriving DecidableEq, Repr

/-- A per-function reset in progress (17 R463). -/
structure ResetRun where
  func : Byte
  hold : Bool
  /-- A trip's domains were powered again by it (R458). -/
  repower : Bool
  /-- A FUNC_RELEASE, not a reset. -/
  release : Bool
  /-- TB at which it was accepted. -/
  start : W64
deriving DecidableEq, Repr, Inhabited

/-- State of a digital cluster (01 R15, R521, 17 R463). -/
inductive ClSt where
  | active | spare | retired
deriving DecidableEq, Repr, Inhabited

/-- State of a die-to-die lane (01 R19, R521). -/
inductive LaneSt where
  | active | spare | retired
deriving DecidableEq, Repr, Inhabited

/-- A substitution under way in a region (09 R281): failing logical position, whether the bank still answers, and whether
NT_MIRROR read 1 before its step 1 (R282). -/
structure Subst where
  idx : Fin 17
  answers : Bool
  mirror : Bool
deriving DecidableEq, Repr, Inhabited

/-- Whose access it is: a client's, that of a TR_PEEK, that of PEEK at the test access port (09, commands; 19 R496). -/
inductive AccBy where
  | fabric
  | peek (r : Req)
  | tap
deriving DecidableEq, Repr

/-- A Trellis access (09 R269, R274): one held while a region controller restarts or a bank is wiped keeps its place (01 R17,
09 R285). -/
structure HeldAcc where
  client : BitVec 6
  addr : BitVec 23
  write : Bool
  /-- The bytes of a write, none where its mask leaves one out; of a read only how many. -/
  data : List (Option Byte)
  /-- What ECC reports of a word that the access reads; fabric clocks to the grant, within the class's reservation. -/
  ecc : List (Fin 8 × EccResult)
  wait : Nat
  within : Bool
  /-- Whose access it is, to which its answer goes. -/
  who : AccBy
deriving DecidableEq, Repr

/-- What PD_AON keeps through every reset but loss of VDDIO (17 R461): chain address (15 R435), epoch (02 R63), and
the count of whole-device resets (RESET_INFO.COUNT). -/
structure AonSt where
  addr : BitVec 6
  epoch : W16
  resets : Byte
deriving DecidableEq, Repr, Inhabited

/-- Fuses (17 R461, R476, 11 R316): complete life-cycle records, the current KEK generation as burnt, the generations
revoked. -/
structure FuseSt where
  records : List (Fin 5)
  kekGen : Nat
  revoked : List Nat
  /-- KEK values by generation, and generations loaded in SERVICE (11 R316). -/
  kek : List (Nat × Bytes)
  svcGens : List Nat
deriving DecidableEq, Repr, Inhabited

/-- Thermal governor of one port (17 R470): downlink data bursts counted within the present 16. GOV_ATT and DUTY are
fields of GOV_PORT. -/
structure PowerSt where
  /-- Rails below their thresholds (17 R456). -/
  railsLow : List Rail
  /-- Domains 0 to 29 (17, power domains). -/
  dom : Vector DomSt 30
  /-- Re-powers of R458: domain and TB. -/
  repowers : List (Nat × W64)
  /-- Domains that tripped within 1 s of a re-power: off until a whole-device reset (R458). -/
  locked : List Nat
  /-- Functions held by FUNC_RESET with HOLD (R463). -/
  held : List Byte
  /-- Per-function resets in progress (R463). -/
  resetting : List ResetRun
  /-- Functions held in reset by a lost region (09 R286). -/
  regionHeld : List Byte
  /-- Sensors TS_0 to TS_7 in 0.1 °C. -/
  temps : Vector Int 8
  /-- Downlink data bursts of each port within the present 16 of R470. -/
  dutyCount : Vector Nat 6
  /-- GOV_ATT in force for bursts (R470). -/
  attNow : Vector Nat 6
  /-- THERMAL_THROTTLE was the last of the two events of R473. -/
  throttled : Bool
  /-- Cause recorded for the reset in progress (17, reset causes). -/
  cause : BitVec 4
  /-- The management controller is down for a restart; TB of its last restart; restarts since reset (R466, R467). -/
  mcDown : Bool
  mcLast : Option W64
  mcRestarts : Nat
  /-- A life-cycle transition accepted and not yet committed (R477): the new state. -/
  lcNext : Option (Fin 5)
  /-- The transition whose LC_CHANGE awaits the end of the reset (R477): previous and new state. -/
  lcDone : Option (Fin 5 × Fin 5)
  /-- DEV_RESET accepted; SLEEP accepted. -/
  resetSoon : Bool
  sleepSoon : Bool
  /-- SVC_EN_N reads low (R479). -/
  svcLow : Bool
  /-- REF_BYP strap (19). -/
  refByp : Bool
deriving DecidableEq, Repr, Inhabited

/-- Timebase, mains tracking and the superframe (02). Times with fractions are in 1/256 tick. -/
structure ClockSt where
  tb : W64
  track : Track
  /-- P of R45 in 1/256 tick. -/
  p : Nat
  /-- C_m of R44 in 1/256 tick, once set. -/
  c : Option Nat
  /-- period_in_use of R46 in 1/256 tick. -/
  per : Nat
  /-- Predicted crossing while in ACQUIRE (R44). -/
  pred : Option Nat
  /-- The last 2^AVG accepted intervals, newest first, 1/256 tick. -/
  intervals : List Nat
  /-- TB of the last capture, and of the last accepted one (R44, R45), in 1/256 tick. -/
  lastCap : Option Nat
  lastAcc : Option Nat
  /-- Good cycles and misses in a row (R48, R50). -/
  goodRun : Nat
  missRun : Nat
  /-- Error of R46 to be used at the next C, and that of a capture that came before its own C. -/
  err : Option Int
  errNext : Option Int
  /-- A capture was accepted in the present cycle. -/
  capThis : Bool
  /-- Cycles begun since the C of the last accepted capture; -1 where that C has not fallen yet (R45). -/
  accAge : Int
  /-- C and period in use of the cycles before the present one, newest first (R52, R55). -/
  hist : List (Nat × Nat)
  /-- HOLDOVER was entered by SRC set to 1 and waits for CHAIN_SYNC edges (R519). -/
  chainHold : Bool
  /-- The mains cycle counter CYCLE (R46). -/
  cycle : W32
  /-- MAINS_LOCK has been raised since reset (R49). -/
  lockSeen : Bool
  /-- ON_ALT: captures of ALT_CH drive the tracking (R51). -/
  onAlt : Bool
  /-- Captures on REF_CH while ON_ALT: last, and run of good ones (R51). -/
  refLast : Option Nat
  refRun : Nat
  /-- CHAIN_SYNC (R55): last edge, intervals, edge awaiting its announcement, superframes without an edge. -/
  lastEdge : Option Nat
  edgeInts : List Nat
  edgeWait : Option Nat
  edgeMiss : Nat
  /-- Announcements (R55, R56). -/
  firstAnn : Bool
  /-- SF_OFFSET of the last announcement accepted (R55). -/
  sfOffMaster : W16
  /-- Remaining d of the slew of R56, ticks counted towards the next adjustment, superframes since TB_AHEAD. -/
  slew : Int
  slewTicks : Nat
  /-- A negative slew holds TB for the next count (R56). -/
  skipTick : Bool
  /-- TB at which tracking last stood outside LOCKED, SLEW and CHAIN before it came back (13, TAGS HOLD). -/
  outTb : Option Nat
  /-- Superframes since TB_AHEAD was last raised (R56). -/
  aheadFor : Option Nat
  /-- Master: TB at its last falling edge, announcement owed (R53). -/
  edgeTb : W64
  annDue : Bool
  /-- CHAIN_SYNC is driven low by this device (R53). -/
  driving : Bool
  /-- The superframe in progress (R52): even cycle it began in, slot, start of the slot, count of superframes. -/
  sfCycle : W32
  slot : Fin 16
  slotTb : W64
  sfTb : W64
  sfCount : Nat
  /-- Synthesizers slewing back to the reference (R40). -/
  refSlew : Bool
deriving DecidableEq, Repr, Inhabited

/-- The event collector (02 R58 to R64, 14 R415, R416). -/
structure EventSt where
  srcs : Vector SrcQ 108
  held : List EvRec
  /-- ESN of the last record issued; none since the epoch began. -/
  lastEsn : Option W32
  /-- Event store: records held and the slot the next one takes. -/
  storeN : Nat
  storeAt : Nat
  /-- Records issued and not yet sent (R415). -/
  unsent : List Bytes
  /-- Where event packets go (R416). -/
  dst : Option (BitVec 48 × Option (BitVec 12))
deriving DecidableEq, Repr, Inhabited

/-- Requests and replies (14 R395 to R400). -/
structure CmdSt where
  /-- Requests standing in queue 0x18, in order (R396); those that its producer holds while it is full, with their packets
  (10 R294). -/
  mgmt : List (W16 × Req)
  mgmtWait : List (W16 × Req × Bytes)
  /-- Deferred commands with their limits (R396 to R399). -/
  deferred : List Deferred
  /-- The reply store (R400). -/
  replies : List Kept
  /-- Requests forwarded over the chain that wait for their reply (R395). -/
  fwd : List Forward
deriving DecidableEq, Repr, Inhabited

/-- Host links (14 R390, R391). LOCK, HI_BER and PAUSED are fields of HL_STATUS. -/
structure HostSt where
  pauseEnd : Vector (Option W64) 2
  /-- TB at which the link last came up, until HOST_LINK_UP is raised. -/
  upSince : Vector (Option W64) 2
  /-- Packets that wait for the end of a PAUSE (R390): link, address, tag, packet. -/
  waiting : List (Nat × BitVec 48 × Option (BitVec 12) × Bytes)
  /-- Requests in the host receive queues, by link: position, source address and tag (R389, R390). -/
  srcs : Vector (List (Nat × BitVec 48 × Option (BitVec 12))) 2
deriving DecidableEq, Repr, Inhabited

/-- Clusters and die-to-die lanes (01 R15, R19, R521); lanes in the order D2L, L2D. -/
structure ClusterSt where
  cl : Vector ClSt 20
  d2l : Vector LaneSt 40
  l2d : Vector LaneSt 40
  /-- Slices of the codec work partition (01 R34): cluster of the L-unit, base and size in bytes. -/
  slices : List (Nat × Nat × Nat)
  /-- Active clusters whose per-function reset waits for their next codeword boundary (01 R16, 06 R187). -/
  leaving : List Nat
deriving DecidableEq, Repr, Inhabited

/-- One Trellis region (09 R279 to R286). CTRL, SPARE, SPARE_FOR, RETIRED and COPYING are fields of TR_REGION. -/
structure RegionSt where
  /-- Banks that are fenced: substituted ones, and those of a region without power (R281, R286). -/
  fenced : BitVec 17
  /-- Banks that do not answer: fenced at once, and no wipe reaches them (R281, R284). -/
  dead : BitVec 17
  /-- The substitution under way (R281): the bank replaced, and whether it still answers. -/
  sub : Option Subst
  /-- A rebuild of the substituted bank is running: its logical position, and whether the node table's mirror was current
  when the bank was lost (01 R26, 09 R282). -/
  rebuild : Option (Fin 17 × Bool)
  /-- Accesses held at the region controller, in order of arrival (01 R17, R285). -/
  heldAcc : List HeldAcc
  /-- Next line to scrub; distinct corrected words of the pass, as (bank, line, word). -/
  scrubLine : Nat
  ceWords : List (Nat × Nat × Nat)
deriving DecidableEq, Repr, Inhabited

/-- A wipe of the addresses lo to hi − 1 (09 R284, R285): whether it has begun, and the command it answers. -/
structure WipeRun where
  lo : Nat
  hi : Nat
  started : Bool
  ask : Option (W16 × Req)
deriving DecidableEq, Repr

/-- The Trellis besides its contents (09). SKEW_BANKS, MIRROR0, MIRROR1 are fields of TR_STATUS. -/
structure TrellisSt where
  reg : Vector RegionSt 4
  /-- Each mirror half is a current copy (R282); being copied. -/
  mirCur : Vector Bool 2
  mirCopy : Vector Bool 2
  /-- Wipes under way, and those that wait for a copy (R285). -/
  wiping : List WipeRun
deriving DecidableEq, Repr, Inhabited

/-- A port change that falls due at the next superframe start (03 R77, R83, R84, R85). -/
inductive PortMove where
  | leave (st : BitVec 4)
  | enter
  | readmit
  | admitReq
deriving DecidableEq, Repr

/-- A complex number with rational parts (05, 07). -/
structure Cx where
  re : Rat
  im : Rat
deriving DecidableEq, Repr, Inhabited

/-- A line port besides its objects (03). STATE, CAUSE, PGA, DRV_PWR and READMITS are fields of PORT_STATUS. -/
structure PortSt where
  /-- Layers for which the driver is active (R68). -/
  bbOn : Bool
  nbOn : Bool
  /-- TB at which the driver last became active for a layer, and the runs of activity that are over, newest first, as the TB
  of their begin and end (R67, R68, R69). -/
  onAt : Nat
  runs : List (Nat × Nat)
  /-- PGA steps, newest first, as TB, gain before and gain after (R73). -/
  pgaSteps : List (Nat × Nat × Nat)
  /-- Transmit-to-receive ratios of the last driver loopback at 1 MHz and 50 MHz (R75, 04 R110). -/
  loop1 : Cx
  loop50 : Cx
  /-- TB at which the last burst of each layer ends, ramp-down included (R68). -/
  bbEnd : Nat
  nbEnd : Nat
  /-- Clamp episodes of the superframe in progress (R70). -/
  clamps : Nat
  /-- Last sounding record since the port's reset (R76). -/
  sound : Option Bytes
  /-- TB at which a PORT_SOUND last passed (R85). -/
  passTb : Option W64
  /-- A change of state found at a superframe start and due at the next (R80, R82 to R84). -/
  move : Option PortMove
  /-- Start-up checks running; their start, and the TB at which the port's loopbacks may begin (R75, R77). -/
  checking : Option W64
  turn : Nat
  /-- A PORT_SOUND or transmit test waits for the slot start, or runs (R86). -/
  testWaiting : Bool
  testRunning : Bool
  /-- Superframes of R82 and of R84 in a row. -/
  collapseRun : Nat
  readmitRun : Nat
  /-- TB of the automatic readmissions of the last 60 minutes (R84). -/
  readmits : List W64
  /-- The third automatic readmission of a 60-minute period has been made: the next one asks for a PORT_ADMIT (R84). -/
  noAuto : Bool
  /-- The driver has been turned off under R70 and stays off until the port leaves SERVICE; the port left SERVICE with CAUSE
  CLAMP and has not returned (04 R118). -/
  clampOff : Bool
  clampLeft : Bool
  /-- TB at which the running PORT_SOUND or transmit test began (R76, R86). -/
  testAt : W64
  /-- Per-port LQI of the frames of the superframe in progress (R82). -/
  lqis : List Nat
  /-- PGA held for a broadband frame (R72). -/
  pgaHeld : Bool
  /-- Coefficients written to banks A and B by SHAPE_WRITE; empty where the bank holds a preset (04 R117). -/
  coefA : List W16
  coefB : List W16
  /-- A fade (04 R115): TB at which q was 0, its length L in samples, and a fade that waits for a guard start. -/
  fadeAt : Option Nat
  fadeLen : Nat
  fadeWait : Bool
  /-- Superframes in SERVICE left of the recovery after a clamp removal (04 R118). -/
  recovery : Option Nat
deriving DecidableEq, Repr, Inhabited

/-- A console character as the receiver classifies it (15 R420). -/
structure ConChar where
  data : Byte
  noise : Bool
  parityErr : Bool
  framingErr : Bool
deriving DecidableEq, Repr

/-- The console (15). IDLE, PAUSED, XOFF_SENT, STUCK, FRAME, OVERRUN and LEVEL are fields of CON_STATUS. -/
structure ConSt where
  /-- The one-character holding register of R423, bit 8 its error mark. -/
  hold : Option (BitVec 9)
  /-- The console line buffer (R424): characters collected, not yet handed to Caseri. -/
  block : List (BitVec 9)
  /-- The partial line Caseri holds (R427): characters, a marked character seen, more than 255 seen. -/
  line : Bytes
  lineBad : Bool
  lineLong : Bool
  /-- The last character was CR, so that an LF belongs to the same end (R427). -/
  lastCr : Bool
  /-- Complete lines and frames that wait for Caseri: bytes, or the error of the line. -/
  lines : List (Bytes × Bool × Bool)
  frames : List Bytes
  /-- The open binary frame (R430): bytes without escapes, an escape seen, a marked character seen. -/
  frame : Option Bytes
  frameEsc : Bool
  frameBad : Bool
  /-- The next TAG of text requests (R428). -/
  tag : W16
  /-- Text requests without their reply yet: TAG and the words of the line (R428). -/
  asked : List (W16 × List Bytes)
  /-- Characters the Caseri writer holds because queue 0x73 is full (R425). -/
  wait : Bytes
  /-- The last character began after idle; so did the first of `block` (R430). -/
  afterIdle : Bool
  blockIdle : Bool
  /-- CON_CFG as each direction uses it (R426), and a write over the console that waits for its prompt. -/
  cfgTx : W32
  cfgRx : W32
  cfgWait : Bool
deriving DecidableEq, Repr, Inhabited

/-- An assignment run on its originator (15 R436): the address offered, offers made for it, the records, END sent. -/
structure AssignRun where
  n : Nat
  tries : Nat
  recs : List (Nat × W64)
  ended : Bool
deriving DecidableEq, Repr

/-- The chain port (15). ADDR is in PD_AON; STUCK and ASSIGNING are fields of CHAIN_STATUS. -/
structure ChainSt where
  /-- Messages that wait to be sent, in order. -/
  txq : List Bytes
  /-- The message being sent; it has ended when the next chain command or tick finds it neither lost nor aborted. -/
  sending : Option Bytes
  /-- This device finished a message of its own and waits a further 12 bit times (R431). -/
  justSent : Bool
  /-- No message begins before this TB: WAKE_NOTICE (R438), CHAIN_SYNC (R434). -/
  holdTb : Option W64
  syncHold : Option W64
  /-- The level on CHAIN_ENI as last seen. CHAIN_ENO is high while the address is not 0 (R435). -/
  eni : Bool
  /-- The assignment run in progress (R435, R436). -/
  run : Option AssignRun
  /-- An assignment run stops PACKET messages (R436). -/
  packetsOff : Bool
  /-- CHAIN_WAKE in progress: address, WAKE_NOTICE sent. -/
  wake : Option (Nat × Bool)
deriving DecidableEq, Repr, Inhabited

/-- State of a group's broadband receiver (05, group receiver states). -/
inductive RxPh where
  | idle | sync | train | fc | payload
deriving DecidableEq, Repr, Inhabited

/-- Fields of an accepted frame control (04 R100). -/
structure RxFc where
  src : BitVec 12
  dst : BitVec 12
  slot : Nat
  gi : Nat
  map : Nat
  ubits : Nat
  mapId : Nat
  rate : Nat
  nsym : Nat
  bytes : Nat
  span : Nat
deriving DecidableEq, Repr, Inhabited

/-- The channel of one port for a burst (05 R135, R137): the one-tap estimates of each present user on carriers 37, 38 and
so on, and the training noise per carrier. -/
structure PortEst where
  port : Nat
  h : List (List Cx)
  noise : Rat
deriving DecidableEq, Repr, Inhabited

/-- What the D-units hold of a burst's users and channels (05 R133, R135): the present users, their residual offsets where
the slot is multi-user, and the estimates of each contributing port. -/
structure RxChan where
  users : List Nat
  rot : List Rat
  ests : List PortEst
deriving DecidableEq, Repr, Inhabited

/-- A payload symbol as received (05 R142 to R147): its index, the slot index of its map, the mains-phase bin, the ports not
excluded by R119, R143 or R171, and the spectrum of each. -/
structure RxObs where
  i : Nat
  idx : Nat
  bin : Nat
  ports : List Nat
  y : List (Nat × List Cx)
deriving DecidableEq, Repr, Inhabited

/-- State of a codeword in the decoder (06 R173 to R181). -/
inductive CwPh where
  /-- Its block is not complete. -/
  | filling
  /-- It waits in the decode queue. -/
  | waiting
  /-- An L-unit decodes it. -/
  | running (cluster : Nat)
  /-- It has ended the round unconverged, with rounds left. -/
  | roundEnd
  | converged
  /-- In the reprieve queue. -/
  | reprieve
  | reprieved (cluster : Nat)
  | failed
deriving DecidableEq, Repr, Inhabited

/-- One codeword of an uplink frame: inputs, posteriors and check messages (06 R173). -/
structure DecCw where
  inp : List Int
  post : List Int
  msg : List (List Int)
  ph : CwPh
  /-- Iterations used, those left in the round, and the budget I of R179. -/
  iters : Nat
  left : Nat
  /-- Iterations granted for the round or reprieve in progress: those left when it began (R186). -/
  grant : Nat
  budget : Nat
  /-- A reprieve has been granted (R180). -/
  rep : Bool
  /-- TB since when it waits in its queue. -/
  since : W64
  /-- A first pass has ended (R174). -/
  passed : Bool
  /-- Its progress record is written: CKPT_VALID (R185). -/
  ckpt : Bool
  /-- The spare whose L-unit restarts it after a takeover (R186); the region that it left, where it restarts in another
  (R188). -/
  spare : Option Nat
  away : Option Nat
  /-- Reservation not yet released, in bits (R166). -/
  resv : Nat
deriving DecidableEq, Repr, Inhabited

/-- An uplink frame in the decoder (06): one user of one broadband slot, or one narrowband frame. -/
structure RxFrame where
  id : Nat
  /-- Frames of one multi-user slot share this number (R175). -/
  set : Nat
  /-- Feeder group, and the channel of a narrowband frame. -/
  group : Nat
  nb : Option Nat
  /-- Its sender and its destination. -/
  node : BitVec 12
  dst : BitVec 12
  /-- User index and granted users of its slot (R120). -/
  uidx : Nat
  users : Nat
  /-- Slot, stamp of t0 and superframe. -/
  slot : Nat
  t0 : Nat
  sf : Nat
  /-- Code rate of its payload (R154). -/
  rate : Nat
  /-- Coded bits, shortened bits, punctured bits and codewords of the fit (R158), and codewords per Furrow block. -/
  fit : List Nat
  per : Nat
  /-- Payload bytes, payload symbols, MAP and the MAP_ID in use. -/
  bytes : Nat
  nsym : Nat
  map : Nat
  mapId : Nat
  /-- Guard, bits per carrier, profile, effective mask and the maps by slot index under which it was sent (R137, 04 R101
  to R107). -/
  gi : Nat
  ubits : Nat
  low : Bool
  mask : Bytes
  maps : List Bytes
  /-- Channels and symbols as received (05 R137 to R149); first stepped symbol of each stepped port; re-estimated channels
  of ports that rejoined (R147). -/
  chan : RxChan
  obs : List RxObs
  stepAt : List (Nat × Nat)
  again : List (Nat × List (List Cx))
  /-- Users of its slot whose frame control was accepted (R144, log 122), and the NSYM of each by user index. -/
  acc : Nat
  ends : List (Nat × Nat)
  /-- Narrowband: the channel's configuration and the deviations of sync word and header (07 R194); combined fine outputs of
  the sync word and header, and of the payload, symbol by symbol (R223). -/
  nbCfg : W32
  nbDevs : List Int
  nbHead : List (List Cx)
  nbPay : List (List Cx)
  /-- Ports whose Furrow areas hold the reservation. -/
  pool : Nat
  /-- Soft values of the stream positions written so far. -/
  soft : List Int
  /-- Every soft value has been written. -/
  complete : Bool
  /-- Codewords of its payload (R158). -/
  cws : List DecCw
  /-- The outer round in progress and how many O_eff allows (R175). -/
  round : Nat
  rounds : Nat
  /-- The cap under which its first codeword began, and whether lag mode held (R178, R182). -/
  iCap : Nat
  lag : Bool
  /-- What its decode report says: a takeover, a reprieve, a capped codeword (06 R186, R180, R178). -/
  takeover : Bool
  anyRep : Bool
  anyCap : Bool
  /-- Erased symbols, symbols with an impulsive window, ports that stepped (05 R151). -/
  erased : Nat
  impSyms : Nat
  step : Nat
  /-- Carrier offset as reported (05 R151). -/
  foff : Rat
  /-- Users present in its slot (05 R136), and whether it captured another (05 R127). -/
  present : Nat
  captured : Bool
  /-- The capture searcher was armed during the frame (07 R224). -/
  armedEver : Bool
  /-- The ports that contribute to it (05 R151); narrowband: at the sync word, with the sync quality of each port that
  received (R223). -/
  contrib : List Nat
  nbMon : List (Nat × Nat)
  /-- A stepped port awaits its re-estimation (R147). -/
  owed : Bool
  /-- Narrowband: sync errors, sync quality per port, header LEN is `bytes`. -/
  errs : Nat
  sq : List Nat
deriving DecidableEq, Repr, Inhabited

/-- A granted user of the burst being received (05 R131 to R136). -/
structure RxUser where
  u : Nat
  node : BitVec 12
  present : Bool
  /-- Training SNR summed over the contributing ports, as a power ratio, and the power of its signal (R127, R136). -/
  snr : Rat
  power : Rat
  /-- Fine residual and the refinement from its frame control, in 0.01 ppm (R132, R133). -/
  fine : Rat
  refined : Rat
  /-- Its frame control has been accepted or has failed. -/
  decided : Bool
  /-- What its frame control says, once accepted (R129). -/
  fc : Option RxFc
  /-- The layout of its frame, once its frame control is accepted. -/
  lay : Option RxFrame
  /-- Its frame in the decoder, where the payload is stored. -/
  frame : Option Nat
deriving DecidableEq, Repr, Inhabited

/-- One group's broadband receiver (05). -/
structure GrpRx where
  /-- Users granted in the slot in progress, as user index and node, and the last slot of their grants (R120). -/
  grants : List (Nat × BitVec 12)
  firstSlot : Nat
  lastSlot : Nat
  /-- A burst is expected in the slot in progress (R120). -/
  expect : Bool
  /-- Guard code of the grant, which sets the user window of a single user (R135). -/
  gi : Nat
  /-- IDLE, SYNC, TRAIN, FC or PAYLOAD (R119 to R142). -/
  ph : RxPh
  /-- Primary attempt: TB of detection, and its power at S9 on the scale of 04 R113 (R125). -/
  det : Nat
  power : Rat
  /-- TB of the pending secondary detection (R126). -/
  pendS : Option Nat
  /-- Stamp of t0, and the slot it falls in. -/
  t0 : Nat
  slot : Nat
  /-- Preset of R131 and coarse residual of R132, in 0.01 ppm. -/
  preset : Rat
  coarse : Rat
  /-- Users of the reception, in the order of their user indices. -/
  users : List RxUser
  /-- T1 as received on each contributing port, from the start of its window (R132, R133), and the channels (R135). -/
  first : List (Nat × List (List Cx))
  chan : RxChan
  /-- This frame captured another (R127). -/
  captured : Bool
  /-- Payload symbols processed, and the first of them whose soft values are not yet written (R142). -/
  seen : Nat
  sent : Nat
  /-- Payload symbols as received, for later rounds (R140). -/
  obs : List RxObs
  /-- Step runs (R146): per port the run, its first symbol and its largest rise as a ratio. -/
  run : Vector Nat 6
  runAt : Vector Nat 6
  rise : Vector Rat 6
  /-- Ports on which a step has been declared (R146). -/
  stepped : BitVec 6
  /-- Ports left out for the rest of the frame because they left SERVICE (R119). -/
  left : BitVec 6
  /-- Payload symbols with an impulsive window (R151), and the ports whose frame-control window was impulsive, once measured
  (R143, R144). -/
  impAt : List Nat
  fcHit : Option (List Nat)
  /-- Ports with an OVER sample in this frame. -/
  overs : BitVec 6
  /-- The last receive report (R151). -/
  report : Option Bytes
deriving DecidableEq, Repr, Inhabited

/-- Broadband receiver state beside the groups. -/
structure BbSt where
  grp : Vector GrpRx 6
  /-- Quiet floor F_p, as a power per carrier (R143). -/
  floor : Vector (Option Rat) 6
  /-- Starts of the quiet blocks that were flagged (07 R221), newest first, 64 of each port. -/
  flagged : Vector (List Nat) 6
  /-- N_p(b, g) as a power per carrier by 1536 x port + 24 x bin + group, and IMP(b) by 64 x port + bin (R145). -/
  noise : List (Nat × Rat)
  imp : List (Nat × Rat)
  /-- BB_SNR_ARM: the node armed; the capture: node, slot index, t0 and seven views of 1728 bytes (R150). -/
  snrArm : Option (BitVec 12)
  snrCap : Option (BitVec 12 × Nat × Nat × List Bytes)
  /-- The loaded tone mask in force and as last written (04 R107). -/
  mask : Bytes
  maskNext : Option Bytes
deriving DecidableEq, Repr, Inhabited

/-- The codec (06). I_CAP, LAG and the counters are fields of DEC_STATUS, DEC_COUNT and DEC_LOSS. -/
structure DecSt where
  frames : List RxFrame
  /-- Frames that have ended while others of their multi-user slot go on: their decisions still serve (R175). -/
  past : List RxFrame
  /-- Number of the next frame. -/
  nextId : Nat
  /-- Fabric clocks of the superframe just ended, precedence clocks and codewords of the one in progress and of the last. -/
  clocksPrev : Nat
  precNow : Nat
  precPrev : Nat
  cwNow : Nat
  cwPrev : Nat
  /-- i_cap as last reported (R182). -/
  capSaid : Nat
  /-- FURROW_FULL has been raised in this superframe; frames counted (R167). -/
  fullNow : Nat
  /-- Last decode report of each group (24 bytes). -/
  report : Vector (Option Bytes) 6
deriving DecidableEq, Repr, Inhabited

/-- Receive state of a narrowband channel of a group (07). -/
inductive NbPh where
  | settle | idle | sync | header | payload
deriving DecidableEq, Repr, Inhabited

/-- One channel of one group (07). -/
structure NbRx where
  /-- IDLE, SYNC, HEADER or PAYLOAD (R212). -/
  ph : NbPh
  /-- NB_CH_k in force on the group (R213). -/
  cfg : W32
  /-- TB of detection (R214). -/
  det : Nat
  /-- Detection power, and the frame level (R214, R218). -/
  power : Rat
  level : Rat
  /-- Sync errors of the match; sync quality and samples of each port; the ports that contribute and those that received
  (R215, R216, R223). -/
  errs : Nat
  sq : List Nat
  contrib : List Nat
  mon : List (Nat × Nat)
  /-- Stamp of t0 (R216). -/
  stamp : Nat
  /-- Carrier offset in Hz. -/
  foff : Rat
  /-- Members of the group when the frame began (03 R80), and gains of the ports against the strongest (R215). -/
  ports : List Nat
  gains : List (Nat × Cx)
  /-- Symbols processed, from the sync word's first one on; soft values of the header; fine outputs of sync word and header
  (R206, R223). -/
  done : Nat
  soft : List Int
  seen : List (List Cx)
  /-- This frame captured another (R219); the capture searcher is armed, and was armed during the frame (R218). -/
  captured : Bool
  armed : Bool
  armedEver : Bool
  /-- Symbols in a row below the level (R220), and CAP_MARGIN above it (R218). -/
  loss : Nat
  above : Nat
  /-- Erasure of the last eight payload symbols, newest first (R218). -/
  last : List Bool
  /-- The frame in the decoder, and its payload symbols. -/
  frame : Option Nat
  nsym : Nat
  /-- Bits of the header as accepted. -/
  head : BitVec 64
  /-- The frame's report was accepted with this decode allowed. -/
  report : Option Bytes
deriving DecidableEq, Repr, Inhabited

/-- The narrowband layer (07). -/
structure NbSt where
  /-- By 8 x group + channel. -/
  rx : Vector NbRx 48
  /-- By 8 x port + channel: channel floor and last frame level as powers, sync quality. -/
  floor : Vector (Option Rat) 48
  level : Vector (Option Rat) 48
  sq : Vector Nat 48
  /-- TB of the last synchronising reset of the port's Sieve for the channel, and the PGA code then (R73, R210, R211). -/
  resetTb : Vector Nat 48
  resetPga : Vector Nat 48
  /-- TB until which the modulator of each port is busy (R225). -/
  busy : Vector Nat 6
deriving DecidableEq, Repr, Inhabited

/-- A grant of the schedule (08, grant descriptor). -/
structure Grant where
  kind : Nat
  first : Nat
  last : Nat
  uidx : Nat
  rate : Nat
  gi : Nat
  node : BitVec 12
  map : Nat
  nsym : Nat
deriving DecidableEq, Repr, Inhabited

/-- A narrowband opening with the superframe in which it begins (08 R240). -/
structure OpenSt where
  group : Nat
  sf : Nat
  first : Nat
  count : Nat
  kind : Nat
  chan : Nat
  rate : Nat
  mod : Bool
  node : BitVec 12
deriving DecidableEq, Repr, Inhabited

/-- Where a downlink frame stands (08 R244). -/
inductive TxSt where
  | queued | sealing | ready | encoded | sent
deriving DecidableEq, Repr, Inhabited

/-- A downlink frame (08 R244): one packet of the group's downlink queue, or an unsequenced frame. -/
structure TxFrame where
  id : Nat
  node : BitVec 12
  group : Nat
  nb : Bool
  ty : Nat
  body : Bytes
  seq : Option Nat
  st : TxSt
  /-- Superframe of sending, retransmissions so far, slot indices of its first negotiated sending. -/
  sentSf : Nat
  retx : Nat
  nego : List Nat
  /-- Its packet in queue 0x08 + group. -/
  pos : Option Nat
  /-- The grant chosen for its next sending. -/
  grant : Option Grant
  /-- The superframe of that grant. -/
  sfFor : Nat
  /-- The sealed link frame, once the Cloche has sealed it. -/
  bytes : Bytes
  /-- The key slot it is sealed under, where its node does not name it (08 R231). -/
  key : Option Nat
  /-- Its ACK trailer, fixed with the schedule (08 R248). -/
  ack : Bytes
  /-- The group whose downlink queue holds its packet. -/
  home : Nat
deriving DecidableEq, Repr, Inhabited

/-- An encoded burst that waits for its t0. -/
structure TxBurst where
  group : Nat
  nb : Bool
  node : BitVec 12
  frame : Nat
  /-- Frame-control word, bit 0 first (04 R100); narrowband header. -/
  word : List Bool
  /-- Coded stream of the payload before repetition (06 R160). -/
  stream : List Bool
  /-- Payload symbols, guard interval, MAP and UNIFORM_BITS, as its grant and header give them. -/
  nsym : Nat
  gi : Nat
  map : Nat
  ubits : Nat
  /-- Slot indices of a broadband grant; channel and four-level payload of a narrowband burst. -/
  slots : List Nat
  /-- Narrowband channel, and whether its payload is four-level (R190, R194). -/
  chan : Nat
  mod : Bool
  /-- Furrow bits it reserves and the port areas they lie in (06 R166). -/
  resv : Nat
  pool : Nat
  /-- Resampling Δ in 0.01 ppm (R111). -/
  precomp : Int
  /-- The superframe of its grant or opening, its first slot there and how many slots it has (R92, 07 R196). -/
  sf : Nat
  first : Nat
  count : Nat
  /-- Bits of carriers 37 on of the negotiated maps it was encoded with, by slot index (08 R259). -/
  maps : List (Nat × List Nat)
deriving DecidableEq, Repr, Inhabited

/-- A Furrow reservation of a downlink block on the air: port areas, bits, and the TB of its end (06 R166, 07 R205). -/
structure AirResv where
  pool : Nat
  bits : Nat
  fin : Nat
deriving DecidableEq, Repr, Inhabited

/-- Link layer of one group (08). -/
structure GrpLink where
  next : List Grant
  cur : List Grant
  /-- REPEAT of the last beacon: superframes still covered by it. -/
  rep : Nat
  /-- The last beacon body sent (SCHED_READ). -/
  beacon : Option Bytes
  /-- The mask was announced by the last beacon. -/
  maskSaid : Bool
  /-- Step watch (R266): the superframe at whose start it ends, stamp T and ports M. -/
  watch : Option (Nat × W64 × BitVec 6)
  /-- Superframes until the next NB_BEACON. -/
  nbDue : Nat
  /-- Openings and ACK entries of the NB_BEACON of the next superframe, fixed with its schedule (08 R240, R248). -/
  nbAnn : List OpenSt
  nbAcks : List Bytes
  /-- The node polled last (08 R243). -/
  polled : Nat
  /-- Encoded bursts that wait for their t0. -/
  bursts : List TxBurst
  /-- Furrow reservations of downlink blocks on the air (06 R166, 07 R205; log 110). -/
  air : List AirResv
deriving DecidableEq, Repr, Inhabited

/-- Quality of a frame that the codec delivered, for LINK_FRAME_RECEIVE. -/
structure RxQual where
  group : Nat
  nb : Bool
  chan : Nat
  sf : Nat
  t0 : Nat
  idx : Nat
  lqi : Nat
  portLqi : List Nat
  /-- Ports that contributed, and the per-port LQI of each port that received, one in REMOVED_AUTO too (03 R82, R84). -/
  contrib : List Nat
  mon : List (Nat × Nat)
  /-- The frequency offset of the user in 0.01 ppm (05 R132, R134). -/
  foff : Rat
  /-- Post-detection SNR of each carrier in dB (05 R150), and the one-tap estimates of the user on each port (04 R110). -/
  snr : List Rat
  taps : List (Nat × List Cx)
  /-- The frame used a negotiated map; a channel step was declared on it (05 R148). -/
  nego : Bool
  step : Bool
deriving DecidableEq, Repr, Inhabited

/-- A link frame the codec delivered to the Cloche. -/
structure Delivered where
  src : BitVec 12
  bytes : Bytes
  q : RxQual
deriving DecidableEq, Repr, Inhabited

/-- An opened frame that stands in queue 0x0E: header, ACK trailer and body in clear, and the key slot that opened it; `gone` when
its node's frames have been discarded since (08 R249). -/
structure Opened where
  src : BitVec 12
  orig : BitVec 12
  ty : Nat
  ctrl : Nat
  fin : Nat
  seq : Nat
  ack : Bytes
  body : Bytes
  q : RxQual
  slot : Nat
  gone : Bool
deriving DecidableEq, Repr, Inhabited

/-- An uplink frame stored ahead of VR (08 R246). -/
structure Stored where
  node : BitVec 12
  seq : Nat
  ty : Nat
  body : Bytes
  group : Nat
  nb : Bool
deriving DecidableEq, Repr, Inhabited

/-- An uplink tone-map set issued and not yet acknowledged (08 R258). -/
structure MapSet where
  node : BitVec 12
  id : Nat
  /-- Cache slots by slot index. -/
  slots : List (Nat × Nat)
  frame : Nat
deriving DecidableEq, Repr, Inhabited

/-- A relayed beacon's block (08 R239): repeater, group, first superframe, superframe after the last, its descriptors. -/
structure RelaySt where
  node : BitVec 12
  group : Nat
  first : Nat
  upto : Nat
  grants : List Grant
deriving DecidableEq, Repr, Inhabited

/-- The link layer (08). The node table and the tone-map cache are in the Trellis. -/
structure LinkSt where
  grp : Vector GrpLink 6
  opens : List OpenSt
  tx : List TxFrame
  nextId : Nat
  stored : List Stored
  /-- Frames that wait for the Cloche, and opened ones that wait in queue 0x0E. -/
  sealed : List Delivered
  opened : List Opened
  /-- The join request under trial, and those that wait for it (11 R324). -/
  trial : Option Delivered
  joins : List Delivered
  /-- Nodes of which a frame failed R231 since the last superframe start (R254). -/
  unheard : List (BitVec 12)
  /-- TB of each node's last BACKLOG report (R243). -/
  backAt : List (Nat × Nat)
  /-- The mask that a repeater's relayed beacon last carried (R236). -/
  maskTold : List (Nat × Bytes)
  /-- DEST_SET (14 R413): node, KIND, INDEX; node 0 holds the default. -/
  dest : List (Nat × (Nat × Nat))
  /-- Uplink DATA frames for the host: node, group, narrowband, body. -/
  uplink : List (BitVec 12 × Nat × Bool × Bytes)
  /-- Last superframe with a passing LQI, by 8 x node + port (03 R81). -/
  heard : List (Nat × Nat)
  /-- Nodes with an accepted frame control in their present grant, by group (R254). -/
  present : List (Nat × BitVec 12)
  /-- Consecutive failures, by 8 x node + slot index (R265). -/
  fails : List (Nat × Nat)
  /-- Superframe in which a node's last uplink set was issued (R257). -/
  setAt : List (Nat × Nat)
  sets : List MapSet
  /-- Superframe in which a node became LEAVING, and the last byte of its NODE_LEFT (R255). -/
  leaving : List (Nat × (Nat × Nat))
  /-- Nodes for which an ACK entry is owed (R248). -/
  acks : List (BitVec 12)
  /-- NODE_TABLE_FULL raised since the table was last not full (R268). -/
  fullSaid : Bool
  /-- Joins refused for descendant limits in this superframe (R268). -/
  refused : Nat
  /-- TONEMAP_CACHE_FULL raised in this superframe (R264). -/
  cacheSaid : Bool
  /-- Groups with a step retry owed: node (R266). -/
  retry : List (BitVec 12)
  /-- Relayed beacons that repeaters send, and the grants of their blocks (R239). -/
  relays : List RelaySt
  /-- Nodes that asked for a fresh uplink set (08 R262); MAP_ID of each node's last uplink set (R258). -/
  ulAsk : List (BitVec 12)
  ulLast : List (Nat × Nat)
  /-- Nodes that can repeat (CAPS of their JOIN_REQ, 08 R250, R252). -/
  canRep : List Nat
  /-- Port r of each carrier group of the pre-weights in a cache slot, by 24 × slot + group (04 R109, R110). -/
  best : List (Nat × Nat)
  /-- Uplink bodies that wait for room in a backhaul transmit queue: Graft, payload header and body (12 R354). -/
  graftOut : List (Nat × Bytes)
deriving DecidableEq, Repr, Inhabited

/-- A job of the Cloche (11 R318). -/
inductive CJob where
  /-- Seal a downlink frame of the link engine. -/
  | link (frame : Nat)
  /-- Open the oldest frame from the codec. -/
  | up
  /-- The join trial in progress. -/
  | trial
  /-- A host job of CRYPT. -/
  | host (req : Req)
  /-- A core job descriptor at a Trellis address. -/
  | core (n : Nat) (addr : Nat)
deriving DecidableEq, Repr

/-- A job on an engine with the key, as two shares, and the nonce it sampled (R306, R314, R319); a core job's descriptor, and the
TB of its start. -/
structure EngRun where
  job : CJob
  share : Bytes
  mask : Bytes
  nonce : Bytes
  desc : Bytes
  start : Nat
deriving DecidableEq, Repr

/-- The Cloche (11). Engine states and counters are fields of CLOCHE_STATUS, CLOCHE_COUNT and CE_STATUS. -/
structure ClocheSt where
  /-- Key slots of 32 bytes and counters of 10 bytes; an unlisted slot is empty (R313). -/
  keys : List (Nat × Bytes)
  ctrs : List (Nat × Bytes)
  /-- The store mask S (R314). -/
  mask : BitVec 128
  /-- S is still to be drawn: PD_CLOCHE has powered up (R312). -/
  drawMask : Bool
  /-- The sixteen engines: the job that runs on each (R307). -/
  eng : Vector (Option EngRun) 16
  /-- Jobs of failed engines that wait for a free one, with what they sampled (R307). -/
  redo : List EngRun
  /-- Jobs that wait for an engine (R318). -/
  jobs : List CJob
  /-- Key and random commands that wait for CLOCHE_READY (R312). -/
  waiting : List (Nat × Req)
  /-- Requester served last: the host (0) or the cores (1) (R318). -/
  lastReq : Nat
  /-- Seals and opens since the last save, by slot (R325). -/
  seals : List (Nat × Nat)
  opens : List (Nat × Nat)
  /-- TB of the last failure of each source (R309). -/
  trngAt : Vector (Option W64) 2
  /-- DRBG requests of 4096 bits since the last reseed (R311). -/
  drbgReq : Nat
  /-- Key and V of the CTR_DRBG (R310). -/
  drbgKey : BitVec 256
  drbgV : BitVec 128
deriving DecidableEq, Repr

/-- A candidate of a lane receiver (12 R340, R341): position, confirmations, the MFI of its last word and the BIP-16 of the
payload that followed; the BIP agreement of its last test. -/
structure BhCand where
  pos : Nat
  conf : Nat
  last : Option (Nat × Nat)
  agree : Nat
deriving DecidableEq, Repr, Inhabited

/-- One backhaul lane, 4 × port + lane (12). ALIGN, the defects, RDI_IN, REI_IN and MEMBERS are fields of
BH_LANE_STATUS. -/
structure BhLane where
  cands : List BhCand
  /-- The aligned position, errored words in a row, and candidates that could still confirm in the same frame (R341). -/
  pos : Nat
  agree : Nat
  errs : Nat
  /-- MFI and BIP-16 of the last frame; frames in a row with a wrong or a right MFI (R343); TB of its arrival. -/
  mfi : Nat
  bip : Nat
  bad : Nat
  good : Nat
  tb : Nat
  /-- REI to send (R335). -/
  rei : Nat
  /-- Trace bytes as received, how many in a row; the last complete trace; the learned trace; runs of R355. -/
  part : Bytes
  trace : Bytes
  learned : Bytes
  differ : Nat
  equal : Nat
  /-- BIP-16 of the last frame sent. -/
  txBip : Nat
  /-- Frames of the second in progress (R358): errored, with REI or RDI; a defect was present. -/
  esec : Nat
  fsec : Nat
  defect : Bool
  /-- Bits compared and bit errors of the lane test in progress (BH_LANE_TEST). -/
  testBits : Nat
  testErrs : Nat
deriving DecidableEq, Repr, Inhabited

/-- A member of a Graft (12 R344 to R350). Control values are as in the control word, 0 for IDLE. -/
structure BhMember where
  gid : Nat
  lane : Nat
  ts : Nat
  /-- CTRL and SQ announced in the present cycle, the one before, and the one that governs the payload (R346). -/
  ann : Nat × Nat
  prev : Nat × Nat
  eff : Nat × Nat
  /-- The far end reports it OK; for how many cycles; it returns under AUTO; it is to become IDLE (R349). -/
  farOk : Bool
  okRun : Nat
  auto : Bool
  leave : Bool
  /-- Receive: the value adopted, and the words received and not yet adopted, by the far end's control cycle (R346). -/
  rx : Nat × Nat
  words : List (Nat × Nat × Nat)
  /-- Words in a row with a bad CRC (R346). -/
  gce : Nat
  /-- Delay in ticks, and whether it exceeds MAX_SKEW; the member is in defect (R350, R356). -/
  delay : Int
  skew : Bool
  bad : Bool
deriving DecidableEq, Repr, Inhabited

/-- State of the packet delineation (12 R353). -/
inductive Delin where
  | hunt | presync | sync
deriving DecidableEq, Repr, Inhabited

/-- One slot of a frame in the skew buffer (12 R351): MFI, the lane slot, its bytes, TB of arrival, and once a later set is
in force the payload members and the SQ under the set that governed it (R346). -/
structure HeldFrame where
  mfi : Nat
  lane : Nat
  ts : Nat
  data : Bytes
  tb : Nat
  place : Option (Nat × Nat)
deriving DecidableEq, Repr, Inhabited

/-- One Graft (12). Its configuration, state and counts are objects. -/
structure GraftSt where
  /-- MST to send, one bit per SQ from bit 0 on, groups changed since they were last sent, the next group in turn. -/
  mst : Nat
  fresh : List Nat
  turn : Nat
  /-- The Graft is UP; cycles in a row with a set that fails R345. -/
  up : Bool
  badSets : Nat
  /-- Frames that wait for the alignment of their Graft (R350). -/
  held : List HeldFrame
  /-- MFI of the next frame to release. -/
  next : Option Nat
  /-- The far end's control cycle whose set is in force (R346). -/
  cyc : Option Nat
  /-- Ticks by which a release waits beyond 10 µs after the last arrival, and for each lane the time from its arrival to the
  last release: a removal leaves the release point where it is (R351). -/
  wait : Nat
  offs : List (Nat × Nat)
  /-- The stream released, lost bytes as none; delineation; headers failing in a row. -/
  stream : List (Option Byte)
  delin : Delin
  hec : Nat
  /-- Bytes of the packet being sent. -/
  txBuf : Bytes
  /-- The second in progress (R358): packets failing FCS, a header failing cHEC, a member defect, DOWN, a member failed by the far end, all of them. -/
  esec : Nat
  hsec : Bool
  mdef : Bool
  down : Bool
  far : Bool
  farAll : Bool
deriving DecidableEq, Repr, Inhabited

/-- A second's classification that is held (12 R358): ES, SES, BBE, FES, FSES, and whether it is counted as UAS. -/
structure PmSec where
  es : Bool
  ses : Bool
  bbe : Nat
  fes : Bool
  fses : Bool
  uas : Bool
deriving DecidableEq, Repr, Inhabited

/-- The backhaul (12). Performance bins are in the Trellis (R359). -/
structure BhSt where
  lane : Vector BhLane 8
  members : List BhMember
  graft : Vector GraftSt 16
  /-- MFI of the next frame sent. -/
  mfi : Nat
  /-- The last frame of a control cycle has been sent, and the cycle has not ended yet (R336, R346). -/
  cycleDue : Bool
  /-- Seconds held, newest first, and unavailability, by object: lanes 0 to 7, Grafts 8 to 23. -/
  secs : Vector (List PmSec) 24
  uas : Vector Bool 24
  /-- TB that bounds the seconds (BH_PM_ALIGN); seconds that ended since the current bins began, the ten still held among them. -/
  align : W64
  secs15 : Nat
  secs24 : Nat
  /-- TB stepped during the current bins (R359). -/
  step15 : Bool
  step24 : Bool
  /-- Bins closed since the last clearing, at most 32 and 1; TB at which the current bins began (R359, 14 R414). -/
  closed15 : Nat
  closed24 : Nat
  start15 : W64
  start24 : W64
deriving DecidableEq, Repr

/-- Where an entry stands on its slice (13 R366). -/
inductive MeasPh where
  | idle | switching | settling | delay | run
deriving DecidableEq, Repr, Inhabited

/-- A physical slice of the measurement subsystem (13 R361 to R378). -/
structure SliceSt where
  /-- The entry it runs, as issued, and whether a triggered run issued it. -/
  entry : Option (Nat × W32)
  trig : Bool
  /-- What the slice is doing (R364 to R369). -/
  ph : MeasPh
  /-- Channel and MEAS_CH word its input and Sieve are set to. -/
  set : Option (Nat × W32)
  /-- Intervals or runs that the entry still has to give (R366). -/
  left : Nat
  /-- Mains tracking stood outside LOCKED, SLEW and CHAIN when the interval began. -/
  hold : Bool
  /-- The entry ends at the next phase-0x4000 instant (R368); the interval in progress ends with CUT, the entry with it. -/
  ending : Bool
  cut : Bool
  /-- The entry ends with the interval in progress. -/
  stop : Bool
  /-- Calibrating; TB of the last calibration. -/
  calib : Bool
  calTb : W64
  /-- By gain code, from the last calibration: the mean of the modulator's ±1 output at zero input, and the fine codes of one
  such unit (R375, R376). -/
  cal : Vector (Rat × Rat) 5
  /-- TB of the last synchronising reset (R361). -/
  resetTb : Nat
  /-- Where the next interval or record begins, or, before DELAY has ended, where DELAY began; the end of the interval or
  run in progress (R364, R366). -/
  start : Rat
  till : Rat
  /-- TB until which the step detector ignores the channel (R381). -/
  quiet : Rat
deriving DecidableEq, Repr, Inhabited

/-- The measurement subsystem (13). MEAS_MAP, SPARE, FAILED and the counts are objects; results are in queue 0x69. -/
structure MeasSt where
  slice : Vector SliceSt 9
  /-- Next loop entry; a new loop is to begin; entries written since the last loop start (R365, R368). -/
  next : Nat
  loopNew : Bool
  dirty : Bool
  /-- Continuous entries to be issued outside index order (R368). -/
  due : List Nat
  /-- A triggered run: accepted, and its entries left once its first has been looked up; a trigger is pending (R373). -/
  run : Option (Option (List (Nat × W32)))
  pend : Bool
  /-- TRIG_SEQ (R373), and the TB at which a trigger is asked for. -/
  trigSeq : W16
  trigAt : Option W64
  /-- RSEQ of the next record (R383). -/
  rseq : W16
  /-- Last CYCLE record and last capture of each channel. -/
  last : List (Nat × Bytes)
  cross : List (Nat × Nat)
  /-- The active slice that a rotation relieves; the slice that calibrates after the exchange (R377). -/
  rot : Option Nat
  relieved : Option Nat
deriving DecidableEq, Repr

/-- One application core as the block sees it (16). APP_BOOT to APP_COUNT are objects; IN_WM is queue 0x10 + n's UP
notice; IN_READY, OUT_READY and OUT_ADDR follow from the queues. -/
structure CoreSt where
  /-- MTIMECMP and whether its interrupt is pending (core-local registers). -/
  mtimecmp : W64
  mtip : Bool
  /-- Interrupt enables; the pending bits CJ_DONE and MSIP (core-local registers). -/
  intEn : BitVec 4
  cjDone : Bool
  msip : Bool
  /-- TB of the last start or WDOG_KICK. -/
  wdog : W64
  /-- The open outbound packet: TAG and BYTES of OUT_REQ (R448). -/
  out : Option (Byte × Nat)
  /-- Cloche jobs submitted and not completed, by Trellis address (R450). -/
  cj : List Nat
  /-- Entry of the running image: the pc a released core begins at (R446); mepc and mtval of the last trap (R452). -/
  pc : W32
  mepc : W32
  mtval : W32
  /-- A reset, wipe, rebuild or watchdog asks for a start that has not begun (R446). -/
  due : Bool
  /-- The start in progress: from flash, or from the image in the window (R446). -/
  starting : Option Bool
  /-- The private scratchpad (R453). -/
  scratch : List Host.Cell
  /-- The reservation of an LR with the word it read, and the words in the instruction cache, newest first (R441). -/
  resv : Option (Nat × Nat)
  icache : List (Nat × W32)
  /-- Measurement records gathered for one kind 0x04 packet, and TB of the first (R447). -/
  meas : List Bytes
  measTb : W64
deriving DecidableEq, Repr, Inhabited

/-- Field service and the test access port (18, 19 R496 to R499). -/
structure SvcSt where
  /-- METER, in mV against METER_REF, as last set (R480, R481). -/
  meter : Nat
  /-- The locate code runs until this TB (R484); LED_TEST runs. -/
  locate : Option W64
  ledTest : Bool
  /-- FAULT_UNABSORBED has been raised since the last whole-device reset (R482). -/
  unabsorbed : Bool
  /-- The instruction register, and the 72 bits that PEEK captures next (R496). -/
  tapIr : BitVec 6
  /-- The boundary register's update stage, cell 0 in bit 0 (R497). -/
  boundary : BitVec 56
  peek : BitVec 72
deriving DecidableEq, Repr, Inhabited

/-- A point on a carrier: amplitude (i + jq) / √e times j^rot (04 R97, R104); delay and weights are the burst's. -/
structure TxPoint where
  k : Nat
  i : Int
  q : Int
  e : Nat
  rot : Nat
deriving DecidableEq, Repr, Inhabited

/-- A broadband burst as it leaves a group's ports (04 R89 to R113). -/
structure BbBurst where
  group : Nat
  /-- t0, and the ports that send it. -/
  t0 : Nat
  ports : List Nat
  /-- Ramp and guard in samples. -/
  ramp : Nat
  gi : Nat
  /-- Pre-weight bytes by carrier group, one per port (R108); resampling Δ in 0.01 ppm (R111). -/
  weights : List Bytes
  precomp : Int
  /-- Attenuation of each port in dB: BB_ATTEN and the governor's (R112). -/
  atten : List Nat
  /-- Points of the sync symbols, of T1 and T2, of the frame control and of each payload symbol (04 R96 to R104). -/
  sync : List TxPoint
  train : List TxPoint
  fc : List TxPoint
  symbols : List (List TxPoint)
deriving DecidableEq, Repr, Inhabited

/-- A narrowband burst (07 R193 to R198): deviations in twelfths of R_s, one per symbol from t0 on; the slot after its last,
counted from reset, and whether it was cut short (R196). -/
structure NbBurst where
  group : Nat
  chan : Nat
  t0 : Nat
  ports : List Nat
  cfg : W32
  rampUs : Nat
  atten : List Nat
  devs : List Int
  slotEnd : Nat
  cut : Bool
deriving DecidableEq, Repr, Inhabited

/-- What the block sends, in the order it sends it. -/
inductive OutItem where
  /-- An Ethernet frame with a packet (14 R389). -/
  | hostFrame (link : Nat) (dst src : BitVec 48) (vlan : Option (BitVec 12)) (payload : Bytes)
  /-- Characters of the console. -/
  | conText (text : Bytes)
  /-- The text of a reply whose line the manual gives by example only: the words asked and the reply packet. -/
  | conLine (words : List Bytes) (packet : Bytes)
  /-- A message on the chain (15 R431). -/
  | chainMsg (bytes : Bytes)
  /-- The two 2400-baud characters that wake an address (15 R438). -/
  | wakeChars (addr : Nat)
  /-- CHAIN_SYNC pulled low for 1 µs (02 R53). -/
  | syncPulse
  /-- Read data returned to a Trellis client: client, address, data, poisoned. -/
  | readData (client : BitVec 6) (addr : BitVec 23) (data : Bytes) (poisoned : Bool)
  /-- The acknowledgement of a client's write (09 R275). -/
  | writeAck (client : BitVec 6) (addr : BitVec 23)
  | bbBurst (b : BbBurst)
  | nbBurst (b : NbBurst)
  /-- A Virer frame on a lane, 4 × port + lane (12 R335). -/
  | virerFrame (lane : Nat) (bytes : Bytes)
  /-- The data register that the test access port selects: its width, the bits its next capture loads where the device sets
  them all, and the levels of the scanned outputs where it drives them, none a released ball (19 R496, R497). -/
  | tapScan (width : Nat) (bits : Option Nat) (drive : Option (List (Option Bool)))
deriving DecidableEq, Repr, Inhabited

/-- A class B write: its object, the write that was pending before, its value and its TB. -/
structure LateWrite where
  key : Nat
  old : Option W32
  new : W32
  tb : Nat
deriving DecidableEq, Repr

/-- The state of the block. -/
structure State where
  /-- Commands waiting, first in, first out. -/
  pending : List Instr
  /-- What runs: the device, a reset, sleep or power off (17 R460, R468). -/
  phase : Phase
  /-- Parameter objects: values stored or in force that differ from the Reset column. -/
  regs : List (Nat × W32)
  /-- Class B values written and not yet in force (14 R405, R408). -/
  shadow : List (Nat × W32)
  /-- Writes of the superframe boundary applied after the start of slot 15: one superframe later (08 R228). -/
  shadowLate : List (Nat × W32)
  /-- Class B writes of this clock, newest first: their boundary may still come in it (14 R408, 08 R228). -/
  lately : List LateWrite
  /-- Objects of class W1C (14 R405): the manual has none, so the list is the row's own. -/
  w1c : List (Nat × W32)
  /-- PD_AON: what survives every reset but power-on (17 R461). -/
  aon : AonSt
  /-- Fuses and KEKs (17 R476, 11 R316). -/
  fuse : FuseSt
  /-- Power, reset and temperature (17). -/
  pw : PowerSt
  /-- Timebase and mains tracking (02). -/
  clk : ClockSt
  /-- Event collector and store (02 R58 to R64). -/
  ev : EventSt
  /-- Commands, replies and forwards (14 R395 to R400). -/
  cmd : CmdSt
  /-- Host links (14 R388 to R391). -/
  hl : HostSt
  /-- Clusters and die-to-die lanes (01 R15, R19). -/
  cl : ClusterSt
  /-- Trellis regions, banks, copies and wipes (09). -/
  tr : TrellisSt
  /-- Contents of the Trellis by byte address (09 R270); unlisted bytes read zero (R284). -/
  mem : List Host.Cell
  /-- Poisoned 64-bit words (09 R278), by address / 8, rising. -/
  poison : List Nat
  /-- Queues by QID (10); an unlisted queue is as after its reset. -/
  queues : List (Nat × Que)
  /-- Line ports 0 to 5 (03). -/
  port : Vector PortSt 6
  /-- Broadband receivers (05). -/
  bb : BbSt
  /-- The codec (06). -/
  dec : DecSt
  /-- Narrowband channels (07). -/
  nb : NbSt
  /-- Link layer (08). -/
  lk : LinkSt
  /-- The Cloche (11). -/
  clo : ClocheSt
  /-- Backhaul (12). -/
  bh : BhSt
  /-- Mains measurement (13). -/
  meas : MeasSt
  /-- Application cores 0 to 3 (16). -/
  core : Vector CoreSt 4
  /-- Service console (15 R419 to R430). -/
  con : ConSt
  /-- Chain bus (15 R431 to R439). -/
  chain : ChainSt
  /-- Field service and test access port (18, 19 R496). -/
  svc : SvcSt
  /-- The model's own: occasions on which a free value has been used. -/
  free : Nat
  /-- The model's own: everything the block has sent, oldest first. -/
  out : List OutItem
deriving DecidableEq, Repr

/-- CLK_STATUS after the sequence of 17 R460: REF_OK, SLOW_OK and all eight locks (02). -/
def clkLocked : W32 := 0xDFE00000

/-- The state after a whole-device reset: the device has been supplied, the sequence of 17 R460 has ended without a fault
found, no command has come. Values the manual does not give are named in the assumption log. -/
def State.reset : State where
  pending := []
  phase := .running
  regs := [(0x200, 0x00100000), (0x780E09, clkLocked)]
  shadow := []
  shadowLate := []
  lately := []
  w1c := []
  aon := { addr := 0, epoch := 1, resets := 1 }
  fuse := { records := [], kekGen := 0, revoked := [], kek := [], svcGens := [] }
  pw := { (default : PowerSt) with dom := Vector.replicate 30 .on }
  clk := { (default : ClockSt) with track := .acquire, p := 2048000000, per := 2048000000 }
  ev := { (default : EventSt) with srcs := Vector.replicate 108 ⟨[], 0, 0⟩ }
  cmd := { mgmt := [], mgmtWait := [], deferred := [], replies := [], fwd := [] }
  hl := { pauseEnd := Vector.replicate 2 none, upSince := Vector.replicate 2 none, waiting := [], srcs := Vector.replicate 2 [] }
  cl := {
    cl := Vector.ofFn (fun (i : Fin 20) => if i.val % 5 = 4 then .spare else .active)
    d2l := Vector.ofFn (fun (i : Fin 40) => if 36 ≤ i.val then .spare else .active)
    l2d := Vector.ofFn (fun (i : Fin 40) => if 36 ≤ i.val then .spare else .active)
    slices := (List.range 16).map (fun i => (5 * (i / 4) + i % 4, 0x30000 * i, 0x30000)), leaving := [] }
  tr := { reg := Vector.replicate 4 default, mirCur := Vector.replicate 2 true, mirCopy := Vector.replicate 2 false, wiping := [] }
  mem := []
  poison := []
  queues := []
  port := Vector.replicate 6 default
  bb := { (default : BbSt) with mask := List.replicate 216 0 }
  dec := default
  nb := default
  lk := default
  clo := {
    keys := [], ctrs := [], mask := 0, drawMask := true, eng := Vector.replicate 16 none, redo := [], jobs := [], waiting := []
    lastReq := 0, seals := [], opens := [], trngAt := Vector.replicate 2 none, drbgReq := 0
    drbgKey := 0, drbgV := 0 }
  bh := {
    lane := Vector.replicate 8 default, members := [], graft := Vector.replicate 16 default, mfi := 0, cycleDue := false
    secs := Vector.replicate 24 [], uas := Vector.replicate 24 false, align := 0, secs15 := 0, secs24 := 0
    step15 := false, step24 := false, closed15 := 0, closed24 := 0, start15 := 0, start24 := 0 }
  meas := {
    slice := Vector.replicate 9 default, next := 0, loopNew := true, dirty := false, due := [], run := none, pend := false
    trigSeq := 0, trigAt := none, rseq := 0, last := [], cross := [], rot := none, relieved := none }
  core := Vector.replicate 4 { (default : CoreSt) with due := true }
  con := { (default : ConSt) with tag := 0xF000, cfgTx := 0x40D02800, cfgRx := 0x40D02800 }
  chain := default
  svc := { meter := 1200, locate := none, ledTest := false, unabsorbed := false, tapIr := 2, boundary := 0, peek := 0 }
  free := 0
  out := []

end Sys2Proof.Machine
end

