-- ==== Sys2Proof/Machine/Codec.lean ====
section
/-!
DEFINITION. The signal as numbers: the sequence generator and carriers (04 R87, R96, R97, R107), constellation points
(04 R101 to R104), the LDPC codes, the fit of a frame to its symbols and the Furrow's order (06 R153 to R164), and one
min-sum iteration (06 R173).
-/
namespace Sys2Proof.Machine

/-- n output bits of the sequence generator from a seed (04 R96). -/
def seqBits : Nat → Nat → List Bool
  | 0, _ => []
  | n + 1, s => nbit s 10 :: seqBits n (((s <<< 1) &&& 0x7FF) ||| (b2n (nbit s 10) ^^^ b2n (nbit s 1)))

/-- The two bits of entry i of a sequence. -/
def seqPair (b : Array Bool) (i : Nat) : Bool × Bool := (b.getD (2 * i) false, b.getD (2 * i + 1) false)

/-- The sync sequence, 108 carriers (04 R96). -/
def syncSeq : Array Bool := (seqBits 216 0x5A3).toArray

/-- The training sequence, carriers 37 to 1764 (04 R96). -/
def trainSeq : Array Bool := (seqBits 3456 0x2B1).toArray

/-- The rotation U(k) as a power of j (04 R97). -/
def rotOf (k : Nat) : Nat :=
  match seqPair trainSeq (k - 37) with
  | (false, false) => 0
  | (true, false) => 1
  | (true, true) => 2
  | (false, true) => 3

/-- Carriers of the preset mask (04 R107). -/
def presetMasked (k : Nat) : Bool :=
  [(37, 41), (71, 82), (143, 150), (206, 208), (286, 294), (370, 373), (430, 440), (509, 512), (573, 609),
   (1023, 1106)].any (fun r => decide (r.1 ≤ k ∧ k ≤ r.2))

/-- The last carrier of a profile (04 R87). -/
def lastCarrier (low : Bool) : Nat := if low then 614 else 1764

/-- The carriers of a profile. -/
def carriers (low : Bool) : List Nat := (List.range (lastCarrier low - 36)).map (· + 37)

/-- Repeated-block carriers of a profile (04 R87). -/
def repCount (low : Bool) : Nat := if low then 576 else 1728

/-- Gray code to binary index, bits most significant first. -/
def grayToBin (b : List Bool) : Nat := (b.foldl (fun (a : Nat × Bool) x => (2 * a.1 + b2n (a.2 != x), a.2 != x)) (0, false)).1

/-- The point of a group of bits (04 R104). -/
def qamPoint (k : Nat) (b : List Bool) : TxPoint :=
  let mi := (b.length + 1) / 2
  let mq := b.length / 2
  let ni := grayToBin (b.take mi)
  let nq := grayToBin (b.drop mi)
  ⟨k, 2 * (ni : Int) - ((2 ^ mi : Nat) - 1 : Int), 2 * (nq : Int) - ((2 ^ mq : Nat) - 1 : Int),
    ((4 ^ mi - 1) + (4 ^ mq - 1)) / 3, rotOf k⟩

/-- Sync-symbol points: carrier 16j carries 4 × A(16j) (04 R98). -/
def syncPoints (low : Bool) (masked : Nat → Bool) : List TxPoint :=
  ((List.range 108).map (fun j => 48 + 16 * j)).filterMap (fun k =>
    if masked k || decide ((if low then 608 else 1760) < k) then none
    else
      let p := seqPair syncSeq ((k - 48) / 16)
      some ⟨k, 4 * (1 - 2 * (b2n p.1 : Int)), 4 * (1 - 2 * (b2n p.2 : Int)), 2, 0⟩)

/-- Training points T(k), user 0 (04 R99). -/
def trainPoints (low : Bool) (masked : Nat → Bool) : List TxPoint :=
  ((carriers low).filter (fun k => !masked k)).map (fun k =>
    let p := seqPair trainSeq (k - 37)
    ⟨k, 1 - 2 * (b2n p.1 : Int), 1 - 2 * (b2n p.2 : Int), 2, 0⟩)

/-- Points of a repeated block: copies of M QPSK values (04 R100, R103). -/
def repPoints (low : Bool) (m : Nat) (masked : Nat → Bool) (bits : Array Bool) : List TxPoint :=
  ((List.range (repCount low)).map (· + 37)).filterMap (fun k =>
    if masked k then none
    else
      let j := (k - 37) % m
      some (qamPoint k [bits.getD (2 * j) false, bits.getD (2 * j + 1) false]))

/-- Points of a symbol with b(k) bits on each carrier (04 R102). -/
def mapPoints (low : Bool) (masked : Nat → Bool) (b : Nat → Nat) (bits : Array Bool) : List TxPoint :=
  ((carriers low).foldl (fun (a : List TxPoint × Nat) k =>
    let n := if masked k then 0 else b k
    if n = 0 then a
    else (qamPoint k ((List.range n).map (fun i => bits.getD (a.2 + i) false)) :: a.1, a.2 + n)) ([], 0)).1.reverse

/-- The rate-1/2 base matrix (R155). -/
def base12 : List (List Nat) :=
  [[57, 12, 99, 99, 88, 99, 99, 99, 30, 99, 99, 99, 1, 0, 99, 99, 99, 99, 99, 99, 99, 99, 99, 99],
   [3, 99, 71, 99, 99, 99, 46, 99, 99, 99, 19, 99, 99, 0, 0, 99, 99, 99, 99, 99, 99, 99, 99, 99],
   [99, 64, 99, 28, 99, 93, 99, 99, 99, 99, 99, 50, 99, 99, 0, 0, 99, 99, 99, 99, 99, 99, 99, 99],
   [80, 99, 99, 99, 7, 99, 99, 61, 99, 35, 99, 99, 99, 99, 99, 0, 0, 99, 99, 99, 99, 99, 99, 99],
   [99, 22, 90, 99, 99, 99, 99, 99, 45, 99, 99, 14, 99, 99, 99, 99, 0, 0, 99, 99, 99, 99, 99, 99],
   [38, 99, 99, 76, 99, 99, 9, 99, 99, 99, 67, 99, 99, 99, 99, 99, 99, 0, 0, 99, 99, 99, 99, 99],
   [99, 85, 99, 99, 99, 33, 99, 99, 99, 2, 99, 99, 0, 99, 99, 99, 99, 99, 0, 0, 99, 99, 99, 99],
   [26, 99, 54, 99, 41, 99, 99, 95, 99, 99, 99, 99, 99, 99, 99, 99, 99, 99, 99, 0, 0, 99, 99, 99],
   [99, 99, 99, 11, 99, 70, 99, 99, 59, 99, 99, 83, 99, 99, 99, 99, 99, 99, 99, 99, 0, 0, 99, 99],
   [92, 47, 99, 99, 99, 99, 68, 99, 99, 15, 99, 99, 99, 99, 99, 99, 99, 99, 99, 99, 99, 0, 0, 99],
   [99, 99, 6, 99, 52, 99, 99, 99, 99, 99, 78, 99, 99, 99, 99, 99, 99, 99, 99, 99, 99, 99, 0, 0],
   [99, 31, 99, 87, 99, 18, 99, 40, 99, 99, 99, 99, 1, 99, 99, 99, 99, 99, 99, 99, 99, 99, 99, 0]]

/-- The rate-2/3 base matrix (R155). -/
def base23 : List (List Nat) :=
  [[44, 9, 99, 72, 99, 27, 99, 99, 90, 99, 99, 5, 99, 99, 63, 99, 1, 0, 99, 99, 99, 99, 99, 99],
   [18, 99, 81, 99, 36, 99, 58, 99, 99, 13, 99, 99, 74, 99, 99, 29, 99, 0, 0, 99, 99, 99, 99, 99],
   [99, 67, 4, 49, 99, 99, 99, 86, 99, 99, 23, 99, 99, 55, 99, 99, 99, 99, 0, 0, 99, 99, 99, 99],
   [95, 99, 99, 99, 61, 16, 99, 99, 40, 99, 99, 99, 8, 99, 77, 99, 99, 99, 99, 0, 0, 99, 99, 99],
   [99, 99, 33, 20, 99, 99, 89, 99, 99, 47, 99, 70, 99, 12, 99, 99, 0, 99, 99, 99, 0, 0, 99, 99],
   [99, 52, 99, 99, 1, 99, 99, 37, 65, 99, 84, 99, 99, 26, 99, 93, 99, 99, 99, 99, 99, 0, 0, 99],
   [7, 99, 59, 99, 99, 82, 99, 14, 99, 71, 99, 43, 99, 99, 99, 24, 99, 99, 99, 99, 99, 99, 0, 0],
   [99, 88, 99, 35, 99, 99, 10, 99, 99, 99, 62, 99, 50, 99, 2, 99, 1, 99, 99, 99, 99, 99, 99, 0]]

/-- The rate-5/6 base matrix (R155). -/
def base56 : List (List Nat) :=
  [[13, 48, 77, 2, 91, 30, 56, 69, 99, 21, 84, 39, 99, 6, 73, 58, 99, 25, 94, 11, 1, 0, 99, 99],
   [60, 5, 36, 88, 19, 73, 44, 8, 52, 99, 67, 15, 81, 99, 34, 90, 46, 99, 3, 70, 99, 0, 0, 99],
   [27, 83, 10, 55, 64, 1, 92, 38, 17, 76, 99, 49, 23, 87, 99, 12, 61, 35, 99, 42, 0, 99, 0, 0],
   [94, 31, 66, 20, 45, 86, 15, 57, 79, 4, 41, 99, 62, 28, 53, 99, 9, 74, 32, 99, 1, 99, 99, 0]]

/-- Base rows m_b of a rate (R153). -/
def mbOf (rate : Nat) : Nat := if rate = 0 then 12 else if rate = 1 then 8 else 4

/-- Information columns k_b. -/
def kbOf (rate : Nat) : Nat := 24 - mbOf rate

/-- The base matrix of a rate. -/
def baseOf (rate : Nat) : List (List Nat) := if rate = 0 then base12 else if rate = 1 then base23 else base56

/-- The entries of base row i: columns with their lifted shifts (R154). -/
def baseRow (rate z i : Nat) : List (Nat × Nat) :=
  let r := (baseOf rate).getD i []
  (List.range 24).filterMap (fun j =>
    let s := r.getD j 99
    if s < 96 then some (j, s * z / 96) else none)

/-- rot(x, s)[i] = x[(i + s) mod Z] (R156). -/
def rotL (x : List Bool) (s : Nat) : List Bool := x.drop s ++ x.take s

/-- Bitwise exclusive or. -/
def xorL (a b : List Bool) : List Bool := List.zipWith (fun x y => x != y) a b

/-- The codeword of K information bits (R156). -/
def ldpcEncode (rate z : Nat) (u : List Bool) : List Bool :=
  let kb := kbOf rate
  let mb := mbOf rate
  let mid := mb / 2
  let blk := fun j => (u.drop (j * z)).take z
  let lam := (List.range mb).map (fun i =>
    ((baseRow rate z i).filter (fun e => decide (e.1 < kb))).foldl (fun a e => xorL a (rotL (blk e.1) e.2))
      (List.replicate z false))
  let p0 := lam.foldl xorL (List.replicate z false)
  let p1 := xorL (lam.getD 0 []) (rotL p0 (z / 96))
  let ps := (List.range (mb - 2)).foldl (fun (p : List (List Bool)) t =>
    let i := t + 1
    p ++ [xorL (xorL (lam.getD i []) (p.getD i [])) (if i = mid then p0 else List.replicate z false)]) [p0, p1]
  u ++ ps.flatMap id

/-- Hard decisions satisfy every parity check (R173). -/
def parityOk (rate z : Nat) (x : Array Bool) : Bool :=
  (List.range (mbOf rate)).all (fun i =>
    let row := baseRow rate z i
    (List.range z).all (fun r => !(row.foldl (fun a e => a != x.getD (e.1 * z + (r + e.2) % z) false) false)))

/-- How a frame fits its symbols (R158). -/
structure Fit where
  n : Nat
  s : Nat
  l0 : Nat
  nsym : Nat
  d : Nat
  pad : Nat
deriving DecidableEq, Repr, Inhabited

/-- The least x from `x` on with cap(x) ≥ need, looking at most `fuel` further; 0 when there is none. -/
def leastCap (cap : Nat → Nat) (need : Nat) : Nat → Nat → Nat
  | 0, _ => 0
  | f + 1, x => if need ≤ cap x then x else leastCap cap need f (x + 1)

/-- The fit of kf bits (R158); nsym 0 when no symbol count holds them. -/
def fitBb (rate kf : Nat) (cap : Nat → Nat) : Fit :=
  let k := kbOf rate * 96
  let n := cdiv kf k
  let s := n * k - kf
  let l0 := n * 2304 - s
  let ns := leastCap cap (l0 - 96) 4095 1
  ⟨n, s, l0, ns, l0 - cap ns, cap ns - l0⟩

/-- The fit of a narrowband payload (07 R202): nothing punctured or repeated; nsym counts coded bits. -/
def fitNb (rate kf : Nat) : Fit :=
  let k := kbOf rate * 12
  let n := cdiv kf k
  let s := n * k - kf
  ⟨n, s, n * 288 - s, n * 288 - s, 0, 0⟩

/-- A share of x for codeword c of n (R158). -/
def shareOf (x n c : Nat) : Nat := if n = 0 then 0 else x / n + (if c < x % n then 1 else 0)

/-- short(c), punct(c) and the bits sent of codeword c. -/
def Fit.short (f : Fit) (c : Nat) : Nat := shareOf f.s f.n c
def Fit.punct (f : Fit) (c : Nat) : Nat := shareOf f.d f.n c
def Fit.sent (f : Fit) (z c : Nat) : Nat := 24 * z - f.short c - f.punct c

/-- L: the coded bits of the frame. -/
def Fit.len (f : Fit) : Nat := f.l0 - f.d

/-- The order v_c of the bits of codeword c (R163). -/
def sentOrder (f : Fit) (rate z c : Nat) : List Nat :=
  let k := kbOf rate * z
  ((List.range z).flatMap (fun o => (List.range 24).map (fun col => col * z + o))).filter (fun i =>
    !(decide (k - f.short c ≤ i) && decide (i < k)) && decide (i < 24 * z - f.punct c))

/-- The Furrow block of codewords c0 to c0 + n - 1: stream positions as (codeword, index) (R164). -/
def furrowBlock (f : Fit) (rate z c0 n : Nat) : List (Nat × Nat) :=
  let v : Array (Array Nat) := ((List.range n).map (fun c => (sentOrder f rate z (c0 + c)).toArray)).toArray
  let m := (List.range n).foldl (fun a c => max a (v.getD c #[]).size) 0
  (List.range m).flatMap (fun r => (List.range n).filterMap (fun k =>
    let c := (k + r) % n
    match (v.getD c #[])[r]? with
    | some i => some (c0 + c, i)
    | none => none))

/-- Cut a frame's bits into codewords' information bits, shortened positions zero (R158). -/
def cutBits (f : Fit) (rate z : Nat) (bits : List Bool) : List (List Bool) :=
  let k := kbOf rate * z
  ((List.range f.n).foldl (fun (a : List (List Bool) × List Bool) c =>
    let m := k - f.short c
    let t := a.2.take m
    (a.1 ++ [t ++ List.replicate (k - t.length) false], a.2.drop m)) ([], bits)).1

/-- The coded stream of a frame, Furrow blocks of `per` codewords (R164, 07 R203). -/
def codedStream (f : Fit) (rate z per : Nat) (bits : List Bool) : List Bool :=
  let cws : Array (Array Bool) := ((cutBits f rate z bits).map (fun u => (ldpcEncode rate z u).toArray)).toArray
  let nb := if per = 0 then 0 else cdiv f.n per
  (List.range nb).flatMap (fun b =>
    (furrowBlock f rate z (b * per) (min per (f.n - b * per))).map (fun p => (cws.getD p.1 #[]).getD p.2 false))

/-- The frame bit stream of a broadband frame: bytes and CRC-32 (R157). -/
def frameBits (b : Bytes) : List Bool := bitsOfBytes (b ++ beBytes 4 (crc32 b))

/-- The payload bit stream of a narrowband frame: bytes and CRC-16 (07 R201). -/
def nbFrameBits (b : Bytes) : List Bool := bitsOfBytes (b ++ beBytes 2 (crc16 b))

/-- Check-to-bit messages of 6 bits and posteriors of 8 bits saturate (R173). -/
def sat6 (x : Int) : Int := clampInt (-32) 31 x
def sat8 (x : Int) : Int := clampInt (-128) 127 x

/-- 0.75 × a magnitude (R173), rounded where it is not whole. -/
def norm34 (m : Nat) : Nat := (rndDiv 173 (3 * m : Nat) 4).toNat

/-- New messages of one check from its incoming values: 0.75 × the least other magnitude, with the sign of the others. -/
def checkMsgs (q : List Int) : List Int :=
  (List.range q.length).map (fun i =>
    let o := (List.range q.length).filterMap (fun j => if j = i then none else some (q.getD j 0))
    let mag := o.foldl (fun a x => min a x.natAbs) 255
    let neg := o.foldl (fun a x => if x < 0 then !a else a) false
    let m : Int := (norm34 mag : Nat)
    sat6 (if neg then -m else m))

/-- One layer: base row i of an iteration. `frozen` holds for the indices of shortened bits. -/
def minSumRow (rate z i : Nat) (frozen : Nat → Bool) (post : Array Int) (msg : Array Int) : Array Int × List Int :=
  let row := baseRow rate z i
  let deg := row.length
  let r := (List.range z).foldl (fun (a : Array Int × List Int) r =>
    let idx := row.map (fun e => e.1 * z + (r + e.2) % z)
    let old := (List.range deg).map (fun t => msg.getD (r * deg + t) 0)
    let q := List.zipWith (fun p o => a.1.getD p 0 - o) idx old
    let q := List.zipWith (fun p x => if frozen p then 127 else sat8 x) idx q
    let new := checkMsgs q
    let post := ((idx.zip q).zip new).foldl (fun (p : Array Int) e =>
      if frozen e.1.1 then p else p.setIfInBounds e.1.1 (sat8 (e.1.2 + e.2))) a.1
    (post, new.reverse ++ a.2)) (post, [])
  (r.1, r.2.reverse)

/-- One iteration of layered normalised min-sum over every base row in order (R173). -/
def minSumIter (rate z : Nat) (frozen : Nat → Bool) (post : List Int) (msgs : List (List Int)) :
    List Int × List (List Int) :=
  let r := (List.range (mbOf rate)).foldl (fun (a : Array Int × List (List Int)) i =>
    let x := minSumRow rate z i frozen a.1 (msgs.getD i []).toArray
    (x.1, x.2 :: a.2)) (post.toArray, [])
  (r.1.toList, r.2.reverse)

/-- Hard decisions: a posterior of 0 or more gives bit 0. -/
def hardBits (post : List Int) : List Bool := post.map (fun x => decide (x < 0))

/-- At most n iterations, stopped at convergence: the decisions, and whether every check holds (R173, R177). -/
def minSumRun (rate z : Nat) (frozen : Nat → Bool) : Nat → List Int → List (List Int) → List Bool × Bool
  | 0, post, _ => (hardBits post, false)
  | n + 1, post, msgs =>
    let x := minSumIter rate z frozen post msgs
    let h := hardBits x.1
    if parityOk rate z h.toArray then (h, true) else minSumRun rate z frozen n x.1 x.2

end Sys2Proof.Machine
end

