-- ==== Sys2Proof/Machine/Flags.lean ====
section
/-!
DEFINITION. Event codes and severities (14 R418), status codes of replies (14 R402), and the flag computations that
several functions share.
-/
namespace Sys2Proof.Machine

/-- The events of 14 R418, by mnemonic. -/
inductive Ev where
  | capacityChange | faultCluster | faultRegion | faultD2d | mcRestart | faultUnabsorbed
  | faultHostLink | hostLinkUp | hostDataOversize | resetDone | thermalThrottle | thermalNormal
  | lcChange | faultPort | portCheckFail | portRestored | bbChannelStep | furrowFull
  | decodeLag | decodeThrottle | decodeNormal | nodeJoined | nodeLost | nodeLeft
  | tonemapCacheFull | nodeTableFull | routeFull | clocheReady | faultEngine | trngFail
  | drbgHalt | keyCounterWarn | keySaveDue | faultBhMember | bhSkewExceeded | graftDown
  | graftUp | measLoadStep | measSeqReject | measTrigLost | measSliceFail | measRefUnserved
  | chainAddress | lineStuck | appReloadRequest | appStarted | appFault | epochStart
  | eventsDropped | mainsLock | mainsRefLost | mainsRange | syncConflict | tbStep
  | faultRefclk | refclkRestored | tbAhead | trellisWindow | faultBank | trellisUe
  | ntMirrorLost | ntMirrorRestored | trellisWipeDone | queueFault | queueOversize | queueWatermark
deriving DecidableEq, Repr

/-- The code of an event (14 R418). -/
def evCode : Ev → Nat
  | .capacityChange => 0x0001
  | .faultCluster => 0x0002
  | .faultRegion => 0x0003
  | .faultD2d => 0x0004
  | .mcRestart => 0x0005
  | .faultUnabsorbed => 0x0006
  | .faultHostLink => 0x0007
  | .hostLinkUp => 0x0008
  | .hostDataOversize => 0x0009
  | .resetDone => 0x0201
  | .thermalThrottle => 0x0202
  | .thermalNormal => 0x0203
  | .lcChange => 0x0301
  | .faultPort => 0x0401
  | .portCheckFail => 0x0402
  | .portRestored => 0x0403
  | .bbChannelStep => 0x0501
  | .furrowFull => 0x0502
  | .decodeLag => 0x0503
  | .decodeThrottle => 0x0504
  | .decodeNormal => 0x0505
  | .nodeJoined => 0x0701
  | .nodeLost => 0x0702
  | .nodeLeft => 0x0703
  | .tonemapCacheFull => 0x0704
  | .nodeTableFull => 0x0705
  | .routeFull => 0x0706
  | .clocheReady => 0x0801
  | .faultEngine => 0x0802
  | .trngFail => 0x0803
  | .drbgHalt => 0x0804
  | .keyCounterWarn => 0x0805
  | .keySaveDue => 0x0806
  | .faultBhMember => 0x0901
  | .bhSkewExceeded => 0x0902
  | .graftDown => 0x0903
  | .graftUp => 0x0904
  | .measLoadStep => 0x0A01
  | .measSeqReject => 0x0A02
  | .measTrigLost => 0x0A03
  | .measSliceFail => 0x0A04
  | .measRefUnserved => 0x0A05
  | .chainAddress => 0x0B01
  | .lineStuck => 0x0B02
  | .appReloadRequest => 0x0C01
  | .appStarted => 0x0C02
  | .appFault => 0x0C03
  | .epochStart => 0x0E01
  | .eventsDropped => 0x0E02
  | .mainsLock => 0x0E03
  | .mainsRefLost => 0x0E04
  | .mainsRange => 0x0E05
  | .syncConflict => 0x0E06
  | .tbStep => 0x0E07
  | .faultRefclk => 0x0E08
  | .refclkRestored => 0x0E09
  | .tbAhead => 0x0E0A
  | .trellisWindow => 0x0F01
  | .faultBank => 0x0F02
  | .trellisUe => 0x0F03
  | .ntMirrorLost => 0x0F04
  | .ntMirrorRestored => 0x0F05
  | .trellisWipeDone => 0x0F06
  | .queueFault => 0x0F07
  | .queueOversize => 0x0F08
  | .queueWatermark => 0x0F09

/-- The severity of an event (14 R418). -/
def evSev : Ev → Nat
  | .capacityChange => 1
  | .faultCluster => 3
  | .faultRegion => 3
  | .faultD2d => 3
  | .mcRestart => 3
  | .faultUnabsorbed => 4
  | .faultHostLink => 3
  | .hostLinkUp => 1
  | .hostDataOversize => 2
  | .resetDone => 0
  | .thermalThrottle => 2
  | .thermalNormal => 1
  | .lcChange => 1
  | .faultPort => 3
  | .portCheckFail => 2
  | .portRestored => 1
  | .bbChannelStep => 1
  | .furrowFull => 2
  | .decodeLag => 2
  | .decodeThrottle => 1
  | .decodeNormal => 1
  | .nodeJoined => 0
  | .nodeLost => 1
  | .nodeLeft => 0
  | .tonemapCacheFull => 1
  | .nodeTableFull => 2
  | .routeFull => 2
  | .clocheReady => 0
  | .faultEngine => 3
  | .trngFail => 2
  | .drbgHalt => 4
  | .keyCounterWarn => 2
  | .keySaveDue => 1
  | .faultBhMember => 3
  | .bhSkewExceeded => 2
  | .graftDown => 4
  | .graftUp => 1
  | .measLoadStep => 0
  | .measSeqReject => 2
  | .measTrigLost => 1
  | .measSliceFail => 3
  | .measRefUnserved => 2
  | .chainAddress => 1
  | .lineStuck => 2
  | .appReloadRequest => 2
  | .appStarted => 0
  | .appFault => 3
  | .epochStart => 0
  | .eventsDropped => 1
  | .mainsLock => 0
  | .mainsRefLost => 2
  | .mainsRange => 1
  | .syncConflict => 2
  | .tbStep => 1
  | .faultRefclk => 3
  | .refclkRestored => 1
  | .tbAhead => 2
  | .trellisWindow => 2
  | .faultBank => 3
  | .trellisUe => 2
  | .ntMirrorLost => 2
  | .ntMirrorRestored => 1
  | .trellisWipeDone => 0
  | .queueFault => 3
  | .queueOversize => 2
  | .queueWatermark => 1

/-- Status DONE (14 R402). -/
abbrev stDone : W16 := 0x0000
/-- Status ACCEPTED (14 R402). -/
abbrev stAccepted : W16 := 0x0001
/-- Status IN_PROGRESS (14 R402). -/
abbrev stInProgress : W16 := 0x0002
/-- Status BAD_OPCODE (14 R402). -/
abbrev stBadOpcode : W16 := 0x0100
/-- Status BAD_LENGTH (14 R402). -/
abbrev stBadLength : W16 := 0x0101
/-- Status BAD_CRC (14 R402). -/
abbrev stBadCrc : W16 := 0x0102
/-- Status WRONG_REVISION (14 R402). -/
abbrev stWrongRevision : W16 := 0x0103
/-- Status BAD_TAG (14 R402). -/
abbrev stBadTag : W16 := 0x0104
/-- Status BAD_DEST (14 R402). -/
abbrev stBadDest : W16 := 0x0105
/-- Status BAD_FUNC (14 R402). -/
abbrev stBadFunc : W16 := 0x0106
/-- Status BAD_OBJECT (14 R402). -/
abbrev stBadObject : W16 := 0x0107
/-- Status NOT_WRITABLE (14 R402). -/
abbrev stNotWritable : W16 := 0x0108
/-- Status NOT_IN_STATE (14 R402). -/
abbrev stNotInState : W16 := 0x0200
/-- Status FUNCTION_RUNNING (14 R402). -/
abbrev stFunctionRunning : W16 := 0x0201
/-- Status FUNCTION_IN_RESET (14 R402). -/
abbrev stFunctionInReset : W16 := 0x0202
/-- Status NO_RESOURCE (14 R402). -/
abbrev stNoResource : W16 := 0x0203
/-- Status TIMEOUT (14 R402). -/
abbrev stTimeout : W16 := 0x0204
/-- Status QUEUE_FAULT (14 R402). -/
abbrev stQueueFault : W16 := 0x0205
/-- Status KEY_EXHAUSTED (14 R402). -/
abbrev stKeyExhausted : W16 := 0x0300
/-- Status AUTH_FAIL (14 R402). -/
abbrev stAuthFail : W16 := 0x0301
/-- Status OUT_OF_BAND (14 R402). -/
abbrev stOutOfBand : W16 := 0x0400
/-- Status BAD_SYNC_WORD (14 R402). -/
abbrev stBadSyncWord : W16 := 0x0401
/-- Status CAL_RANGE (14 R402). -/
abbrev stCalRange : W16 := 0x0402

/-- A level stands at or above the watermark of a queue of `size` units (10 R301); exact, the mark may lie between units. -/
def atMark (wm size level : Nat) : Bool := decide (wm * size ≤ 256 * level)

/-- A level stands below the low mark (10 R301), which is zero when HYST exceeds WM. -/
def underLow (wm hyst size level : Nat) : Bool := decide (256 * level < (wm - hyst) * size)

end Sys2Proof.Machine
end

