-- ==== Sys2Proof/Machine/Objects.lean ====
section
/-!
DEFINITION. The parameter objects of the manual (14 R404, R405): IDs, FUNCs that hold them, access class, Reset column,
bits that are not RSVD (00 R7) and the boundary of class B (14 R408). One row per object table of the chapters.
-/
namespace Sys2Proof.Machine

/-- Access classes (14 R405). No object of the manual is of class W1C. -/
inductive Cls where
  | s | b | l | ro | rc
deriving DecidableEq, Repr

/-- Boundary at which a class B write takes effect (14 R408): superframe start, start of the next frame transmitted by
a layer (03 PORT_TX), per feeder group (07 R213), control cycle (12), loop start (13 R368), next entry issued on the
channel (13 R370), character boundary (15 R426). -/
inductive Bound where
  | sf | txFrame | nbGroup | cycle | measLoop | measEntry | char
deriving DecidableEq, Repr

/-- One row: an object, or a run of objects of one layout. -/
structure Obj where
  idLo : Nat
  idHi : Nat
  fLo : Nat
  fHi : Nat
  cls : Cls
  reset : W32
  mask : W32
  bound : Bound
deriving DecidableEq, Repr

/-- Object rows, part 0. -/
def objRows0 : List Obj := [
  ⟨0x0, 0x0, 0x0, 0x0, .ro, 0x60864300, 0xFFFFFFFF, .sf⟩, -- ID_PART (14)
  ⟨0x1, 0x1, 0x0, 0x0, .ro, 0x00000000, 0xFFFFFFFF, .sf⟩, -- ID_EUI_HI (14)
  ⟨0x2, 0x2, 0x0, 0x0, .ro, 0x00000000, 0xFFFFFFFF, .sf⟩, -- ID_EUI_LO (14)
  ⟨0x3, 0x3, 0x0, 0x0, .ro, 0x00000000, 0xFFFFFFFF, .sf⟩, -- ID_MAC_HI (14)
  ⟨0x4, 0x4, 0x0, 0x0, .ro, 0x00000000, 0xFFFFFFFF, .sf⟩, -- ID_MAC_LO (14)
  ⟨0x5, 0x5, 0x0, 0x0, .ro, 0x00000000, 0xFFFFFFFF, .sf⟩, -- ID_ROM (14)
  ⟨0x6, 0x6, 0x0, 0x0, .ro, 0x00000000, 0xFFFFFFFF, .sf⟩, -- ID_STATE (14)
  ⟨0x10, 0x13, 0x10, 0x15, .ro, 0x10000000, 0xFFFFFF07, .sf⟩, -- UNIT_STATUS (01)
  ⟨0x10, 0x13, 0x20, 0x33, .ro, 0x10000000, 0xFFFFFF07, .sf⟩, -- UNIT_STATUS (01)
  ⟨0x20, 0x20, 0x0, 0x0, .ro, 0x84920000, 0xFFFFFFE0, .sf⟩, -- CAPACITY (01)
  ⟨0xE00, 0xE00, 0x78, 0x78, .ro, 0x00000000, 0xFFFFFFFF, .sf⟩, -- TB_LO (02)
  ⟨0xE01, 0xE01, 0x78, 0x78, .ro, 0x00000000, 0xFFFFFFFF, .sf⟩, -- TB_HI (02)
  ⟨0xE02, 0xE02, 0x78, 0x78, .ro, 0x7A120000, 0xFFFFFFFF, .sf⟩, -- MAINS_PERIOD (02)
  ⟨0xE03, 0xE03, 0x78, 0x78, .ro, 0x00000100, 0xFFFFFFC0, .sf⟩, -- MAINS_PHASE (02)
  ⟨0xE04, 0xE04, 0x78, 0x78, .ro, 0x00000000, 0xFFFFFFFF, .sf⟩, -- MAINS_CYCLE (02)
  ⟨0xE05, 0xE05, 0x78, 0x78, .b, 0x04280000, 0xFFFFFFFF, .sf⟩, -- MAINS_CTRL (02)
  ⟨0xE06, 0xE06, 0x78, 0x78, .b, 0x55551430, 0xFFFFFFF0, .sf⟩, -- MAINS_ALT (02)
  ⟨0xE07, 0xE07, 0x78, 0x78, .rc, 0x00000000, 0xFFFFFFFF, .sf⟩, -- MAINS_STATUS (02)
  ⟨0xE08, 0xE08, 0x78, 0x78, .b, 0x00000000, 0x8000FFFF, .sf⟩, -- SYNC_CTRL (02)
  ⟨0xE09, 0xE09, 0x78, 0x78, .ro, 0x00000000, 0xFFE00000, .sf⟩ -- CLK_STATUS (02)
]

/-- Object rows, part 1. -/
def objRows1 : List Obj := [
  ⟨0xE0A, 0xE0A, 0x78, 0x78, .rc, 0x00000000, 0xFFFFFFFF, .sf⟩, -- EVT_LOST (02)
  ⟨0x400, 0x400, 0x10, 0x15, .s, 0x9C000000, 0xFC000000, .sf⟩, -- PORT_CFG (03)
  ⟨0x401, 0x401, 0x10, 0x15, .b, 0x00000000, 0xFFC00000, .txFrame⟩, -- PORT_TX (03)
  ⟨0x402, 0x402, 0x10, 0x15, .l, 0x987A0000, 0xFFFFF800, .sf⟩, -- PORT_RX (03)
  ⟨0x403, 0x403, 0x10, 0x15, .ro, 0x00030000, 0xFFFFFFF0, .sf⟩, -- PORT_STATUS (03)
  ⟨0x404, 0x404, 0x10, 0x15, .rc, 0x00000000, 0xFFFFFFFF, .sf⟩, -- PORT_COUNT (03)
  ⟨0x410, 0x410, 0x0, 0x0, .b, 0x10101400, 0xFFFFFC00, .sf⟩, -- GROUP_CTRL (03)
  ⟨0x500, 0x500, 0x0, 0x0, .b, 0x14146A00, 0xFFFFFE00, .sf⟩, -- BB_CFG (04)
  ⟨0x502, 0x502, 0x10, 0x15, .l, 0x90000000, 0xF0000000, .sf⟩, -- SHAPE_CTRL (04)
  ⟨0x503, 0x503, 0x10, 0x15, .ro, 0x00020000, 0xFFFFFFE0, .sf⟩, -- SHAPE_STATUS (04)
  ⟨0x504, 0x504, 0x10, 0x15, .rc, 0x00000000, 0xFFFFFFFF, .sf⟩, -- BB_TX_COUNT (04)
  ⟨0x520, 0x520, 0x0, 0x0, .b, 0x80DB5000, 0xFFFFFC00, .sf⟩, -- BB_DET (05)
  ⟨0x521, 0x521, 0x0, 0x0, .b, 0x511A90E0, 0xFFFFFFF8, .sf⟩, -- BB_RX_CFG (05)
  ⟨0x524, 0x524, 0x10, 0x15, .ro, 0x00000000, 0xFFFFF000, .sf⟩, -- BB_PORT_STATUS (05)
  ⟨0x525, 0x525, 0x10, 0x15, .rc, 0x00000000, 0xFFFFFFFF, .sf⟩, -- BB_PORT_COUNT (05)
  ⟨0x528, 0x52D, 0x0, 0x0, .rc, 0x00000000, 0xFFFFFFFF, .sf⟩, -- BB_GRP_DET (05)
  ⟨0x538, 0x53D, 0x0, 0x0, .rc, 0x00000000, 0xFFFFFFFF, .sf⟩, -- BB_GRP_ABORT (05)
  ⟨0x540, 0x540, 0x0, 0x0, .b, 0x6514A120, 0xFFFFFFFC, .sf⟩, -- DEC_CFG (06)
  ⟨0x541, 0x541, 0x0, 0x0, .ro, 0x65400000, 0xFFFFFFFF, .sf⟩, -- DEC_STATUS (06)
  ⟨0x542, 0x542, 0x0, 0x0, .rc, 0x00000000, 0xFFFFFFFF, .sf⟩ -- DEC_COUNT (06)
]

/-- Object rows, part 2. -/
def objRows2 : List Obj := [
  ⟨0x543, 0x543, 0x0, 0x0, .rc, 0x00000000, 0xFFFFFFFF, .sf⟩, -- DEC_LOSS (06)
  ⟨0x600, 0x607, 0x0, 0x0, .b, 0x00000880, 0xFFFFFF80, .nbGroup⟩, -- NB_CH (07)
  ⟨0x610, 0x610, 0x0, 0x0, .b, 0x81070000, 0xFFFF8000, .sf⟩, -- NB_CFG (07)
  ⟨0x611, 0x611, 0x0, 0x0, .b, 0x1EB6C5A3, 0xFFFFFFFF, .sf⟩, -- NB_SYNC (07)
  ⟨0x612, 0x612, 0x0, 0x0, .b, 0x64C1B690, 0xFFFFFFFC, .sf⟩, -- NB_DET (07)
  ⟨0x620, 0x620, 0x10, 0x15, .ro, 0x00000000, 0xFFFFFF00, .sf⟩, -- NB_PORT_STATUS (07)
  ⟨0x621, 0x621, 0x10, 0x15, .rc, 0x00000000, 0xFFFFFFFF, .sf⟩, -- NB_TX_COUNT (07)
  ⟨0x630, 0x637, 0x0, 0x0, .rc, 0x00000000, 0xFFFFFFFF, .sf⟩, -- NB_COUNT (07)
  ⟨0x700, 0x700, 0x0, 0x0, .b, 0x0000C480, 0xFFFFFFE0, .sf⟩, -- LINK_CFG (08)
  ⟨0x701, 0x701, 0x0, 0x0, .b, 0x23200000, 0xFFF00000, .sf⟩, -- ARQ_CFG (08)
  ⟨0x702, 0x702, 0x0, 0x0, .b, 0x6004FF80, 0xFFFFFFFE, .sf⟩, -- ROUTE_CFG (08)
  ⟨0x703, 0x703, 0x0, 0x0, .b, 0x36448000, 0xFFFFF000, .sf⟩, -- MAP_CFG (08)
  ⟨0x704, 0x704, 0x0, 0x0, .b, 0x20000000, 0xFFE00000, .sf⟩, -- NB_SCHED (08)
  ⟨0x708, 0x708, 0x0, 0x0, .ro, 0x00000000, 0xFFFFFFFF, .sf⟩, -- LINK_STATUS (08)
  ⟨0x709, 0x709, 0x0, 0x0, .ro, 0x00000000, 0xFFFFF800, .sf⟩, -- LINK_RES (08)
  ⟨0x70A, 0x70A, 0x0, 0x0, .rc, 0x00000000, 0xFFFFFFFF, .sf⟩, -- LINK_COUNT (08)
  ⟨0x70B, 0x70B, 0x0, 0x0, .rc, 0x00000000, 0xFFFFFFFF, .sf⟩, -- ARQ_COUNT (08)
  ⟨0x710, 0x710, 0x10, 0x15, .rc, 0x00000000, 0xFFFFFFFF, .sf⟩, -- LINK_PORT_RX (08)
  ⟨0x711, 0x711, 0x10, 0x15, .ro, 0x00000000, 0xFFFFFFFF, .sf⟩, -- LINK_PORT_NODES (08)
  ⟨0xF00, 0xF00, 0x0, 0x0, .ro, 0x020A0000, 0xFFFFFFFF, .sf⟩ -- TR_STATUS (09)
]

/-- Object rows, part 3. -/
def objRows3 : List Obj := [
  ⟨0xF01, 0xF01, 0x0, 0x0, .l, 0xB8800000, 0xFFF00000, .sf⟩, -- TR_SCRUB (09)
  ⟨0xF02, 0xF02, 0x0, 0x0, .rc, 0x00000000, 0xFFFFFFC0, .sf⟩, -- TR_WINDOW (09)
  ⟨0xF10, 0xF15, 0x0, 0x0, .rc, 0x00000000, 0xFFFFFFFF, .sf⟩, -- TR_BW (09)
  ⟨0xF08, 0xF08, 0x7C, 0x7F, .ro, 0x00000000, 0xFFFFFFC0, .sf⟩, -- TR_REGION (09)
  ⟨0xF09, 0xF09, 0x7C, 0x7F, .rc, 0x00000000, 0xFFFFFFFF, .sf⟩, -- TR_ECC (09)
  ⟨0xF20, 0xF20, 0x0, 0x0, .rc, 0x00000000, 0xFFFFFF00, .sf⟩, -- Q_FAULT (10)
  ⟨0x800, 0x800, 0x50, 0x50, .ro, 0x02000000, 0xFFFFFFF8, .sf⟩, -- CLOCHE_STATUS (11)
  ⟨0x801, 0x801, 0x50, 0x50, .l, 0x40000000, 0xE0000000, .sf⟩, -- CLOCHE_CFG (11)
  ⟨0x802, 0x802, 0x50, 0x50, .rc, 0x00000000, 0xFFFFFFFF, .sf⟩, -- CLOCHE_COUNT (11)
  ⟨0x808, 0x808, 0x40, 0x4F, .ro, 0x10000000, 0xFFFFFFFF, .sf⟩, -- CE_STATUS (11)
  ⟨0x900, 0x900, 0x58, 0x59, .s, 0xF0000000, 0xFFF80000, .sf⟩, -- BH_CFG (12)
  ⟨0x904, 0x907, 0x58, 0x59, .ro, 0x20000000, 0xFFFFE000, .sf⟩, -- BH_LANE_STATUS (12)
  ⟨0x910, 0x91F, 0x0, 0x0, .b, 0x22800000, 0xFFE00000, .cycle⟩, -- GRAFT_CFG (12)
  ⟨0x920, 0x92F, 0x0, 0x0, .ro, 0x00000000, 0xFFFFFFFF, .sf⟩, -- GRAFT_STATUS (12)
  ⟨0x930, 0x93F, 0x0, 0x0, .rc, 0x00000000, 0xFFFFFFFF, .sf⟩, -- GRAFT_COUNT (12)
  ⟨0x940, 0x940, 0x0, 0x0, .ro, 0x0001F400, 0xFFFFFFF0, .sf⟩, -- BH_SKEW (12)
  ⟨0xA40, 0xA7F, 0x60, 0x60, .b, 0x00000000, 0xFFFFFFFC, .measLoop⟩, -- MEAS_SEQ (13)
  ⟨0xA00, 0xA00, 0x60, 0x60, .l, 0xB8800000, 0xFF800000, .sf⟩, -- MEAS_CTRL (13)
  ⟨0xA01, 0xA01, 0x60, 0x60, .ro, 0x80000000, 0xFFFFFE00, .sf⟩, -- MEAS_STATUS (13)
  ⟨0xA02, 0xA02, 0x60, 0x60, .rc, 0x00000000, 0xFFFFFFFF, .sf⟩ -- MEAS_COUNT (13)
]

/-- Object rows, part 4. -/
def objRows4 : List Obj := [
  ⟨0xA03, 0xA03, 0x60, 0x60, .ro, 0x76543210, 0xFFFFFFFF, .sf⟩, -- MEAS_MAP (13)
  ⟨0xA08, 0xA1F, 0x60, 0x60, .b, 0x0A100000, 0xFFFF8000, .measEntry⟩, -- MEAS_CH (13)
  ⟨0xA20, 0xA37, 0x60, 0x60, .l, 0x80000000, 0xFFFFFFFF, .sf⟩, -- MEAS_SYSCAL (13)
  ⟨0x30, 0x30, 0x5C, 0x5D, .ro, 0x00000000, 0xFFFF0000, .sf⟩, -- HL_STATUS (14)
  ⟨0x31, 0x31, 0x5C, 0x5D, .rc, 0x00000000, 0xFFFFFFFF, .sf⟩, -- HL_COUNT (14)
  ⟨0x32, 0x32, 0x5C, 0x5D, .s, 0x80000000, 0xFFFF0000, .sf⟩, -- HL_CFG (14)
  ⟨0xE20, 0xE20, 0x0, 0x0, .l, 0x00000000, 0xFF000000, .sf⟩, -- EVT_CFG (14)
  ⟨0xE21, 0xE21, 0x0, 0x0, .rc, 0x00000000, 0xFFFFFFFF, .sf⟩, -- EVT_COUNT (14)
  ⟨0xB00, 0xB00, 0x68, 0x68, .b, 0x40D02800, 0xFFFFFC00, .char⟩, -- CON_CFG (15)
  ⟨0xB01, 0xB01, 0x68, 0x68, .ro, 0x80000000, 0xFFFF0000, .sf⟩, -- CON_STATUS (15)
  ⟨0xB02, 0xB02, 0x68, 0x68, .rc, 0x00000000, 0xFFFFFFFF, .sf⟩, -- CON_COUNT (15)
  ⟨0xB08, 0xB08, 0x69, 0x69, .l, 0x140A0000, 0xFFFF0000, .sf⟩, -- CHAIN_CFG (15)
  ⟨0xB09, 0xB09, 0x69, 0x69, .ro, 0x00000000, 0xFFC00000, .sf⟩, -- CHAIN_STATUS (15)
  ⟨0xB0A, 0xB0A, 0x69, 0x69, .rc, 0x00000000, 0xFFFFFFFF, .sf⟩, -- CHAIN_COUNT (15)
  ⟨0xC00, 0xC00, 0x70, 0x73, .s, 0x40000000, 0xFFFFFE00, .sf⟩, -- APP_BOOT (16)
  ⟨0xC01, 0xC01, 0x70, 0x73, .s, 0x00800000, 0xFFC00000, .sf⟩, -- APP_WIN (16)
  ⟨0xC02, 0xC02, 0x70, 0x73, .l, 0x00F40000, 0xFFFC0000, .sf⟩, -- APP_CFG (16)
  ⟨0xC03, 0xC03, 0x70, 0x73, .ro, 0x00000000, 0xFFFF0000, .sf⟩, -- APP_STATUS (16)
  ⟨0xC04, 0xC04, 0x70, 0x73, .rc, 0x00000000, 0xFFFFFFFF, .sf⟩, -- APP_COUNT (16)
  ⟨0x200, 0x200, 0x0, 0x0, .ro, 0x00000000, 0xFFFCFFFF, .sf⟩ -- RESET_INFO (17)
]

/-- Object rows, part 5. -/
def objRows5 : List Obj := [
  ⟨0x201, 0x201, 0x0, 0x0, .ro, 0x00000000, 0xFFFFFFFF, .sf⟩, -- PD_STATUS_0 (17)
  ⟨0x202, 0x202, 0x0, 0x0, .ro, 0x00000000, 0xFFFFFFF0, .sf⟩, -- PD_STATUS_1 (17)
  ⟨0x203, 0x203, 0x0, 0x0, .rc, 0x00F80000, 0xFFFFF800, .sf⟩, -- PD_TRIPS (17)
  ⟨0x210, 0x210, 0x0, 0x0, .b, 0xDF200000, 0xFFF80000, .sf⟩, -- THERM_CFG (17)
  ⟨0x211, 0x211, 0x0, 0x0, .ro, 0x00000000, 0xFFFFC000, .sf⟩, -- THERM_STATUS (17)
  ⟨0x218, 0x218, 0x10, 0x15, .ro, 0x10000000, 0xFFFFFF00, .sf⟩, -- GOV_PORT (17)
  ⟨0x300, 0x300, 0x0, 0x0, .ro, 0x00000000, 0xFFF00000, .sf⟩, -- LC_STATUS (17)
  ⟨0xD00, 0xD00, 0x0, 0x0, .l, 0x01000000, 0xFF000000, .sf⟩, -- METER_CTRL (18)
  ⟨0xD01, 0xD01, 0x0, 0x0, .ro, 0x50000000, 0xFFFFFC00, .sf⟩ -- LED_STATUS (18)
]

/-- Every object of the manual. -/
def objRows : List Obj := objRows0 ++ objRows1 ++ objRows2 ++ objRows3 ++ objRows4 ++ objRows5

/-- The row of object `id` at `func`, when the FUNC holds it (14 R404). -/
def objRow (func id : Nat) : Option Obj :=
  objRows.find? (fun o => o.idLo ≤ id && id ≤ o.idHi && o.fLo ≤ func && func ≤ o.fHi)

/-- Reset table of the measurement sequencer (13, reset table): CH, LSLICE, REPEAT, LAST and EN of an entry. -/
def measSeqReset (i : Nat) : Nat :=
  if i < 3 then i * 2 ^ 27 + i * 2 ^ 24 + 4
  else if i < 23 then i * 2 ^ 27 + (3 + (i - 3) % 5) * 2 ^ 24 + 2 ^ 16 + 4
  else if i = 23 then 23 * 2 ^ 27 + 3 * 2 ^ 24 + 2 ^ 16 + 8 + 4
  else 0

/-- The value of an object after a reset, with the entries that depend on the FUNC or the ID: UNIT_STATUS.KIND (01 R13;
the 6 of a spare's units is put in where the object is read), TR_REGION.SPARE (09), APP_BOOT.FLASH_OFS and APP_WIN.BASE (16),
MEAS_SEQ (13). An object that the FUNC does not hold reads 0. -/
def objReset (func id : Nat) : W32 :=
  match objRow func id with
  | none => 0
  | some o =>
    if 0x10 ≤ id ∧ id ≤ 0x13 then
      if func < 0x20 then fput o.reset 27 24 (8 + (id - 0x10))
      else fput o.reset 27 24 (1 + (id - 0x10))
    else if id = 0xF08 then fput o.reset 29 28 (if func = 0x7D ∨ func = 0x7E then 1 else 0)
    else if id = 0xC00 then fput o.reset 16 9 (2 * (func - 0x70))
    else if id = 0xC01 then fput o.reset 31 27 (2 * (func - 0x70))
    else if 0xA40 ≤ id ∧ id ≤ 0xA7F then BitVec.ofNat 32 (measSeqReset (id - 0xA40))
    else o.reset

end Sys2Proof.Machine
end

