-- ==== Sys2Proof/Machine/Ops.lean ====
section
/-!
DEFINITION. The named operations over the state: sorted maps, the register file of parameter objects, Trellis bytes,
event records, what the block sends, and which functions are in reset.
-/
namespace Sys2Proof.Machine

-- Sorted maps: keys strictly rising, no entry equal to what an unlisted key reads as.

/-- The value at k; d k where k is not listed. -/
def smGet {α : Type} (d : Nat → α) : List (Nat × α) → Nat → α
  | [], k => d k
  | (j, a) :: t, k => if j = k then a else smGet d t k

/-- The map with v at k, kept in canonical form. -/
def smPut {α : Type} [DecidableEq α] (d : Nat → α) (k : Nat) (v : α) : List (Nat × α) → List (Nat × α)
  | [] => if v = d k then [] else [(k, v)]
  | (j, a) :: t =>
    if k < j then (if v = d k then (j, a) :: t else (k, v) :: (j, a) :: t)
    else if k = j then (if v = d k then t else (k, v) :: t)
    else (j, a) :: smPut d k v t

/-- The map without the keys that satisfy p. -/
def smErase {α : Type} (p : Nat → Bool) (m : List (Nat × α)) : List (Nat × α) := m.filter (fun e => !p e.1)

/-- The canonical form: keys strictly rising, no listed value equal to the unlisted one. -/
def smWf {α : Type} [DecidableEq α] (d : Nat → α) : List (Nat × α) → Bool
  | [] => true
  | (k, v) :: t => decide (v ≠ d k) && t.all (fun e => decide (k < e.1)) && smWf d t

/-- The element of a vector at i; the default past its end. -/
def vAt {α : Type} [Inhabited α] {n : Nat} (v : Vector α n) (i : Nat) : α := v.toList.getD i default

/-- The vector with element i replaced; unchanged past its end. -/
def vSet {α : Type} {n : Nat} (v : Vector α n) (i : Nat) (a : α) : Vector α n := v.setIfInBounds i a

-- The register file (14 R404, R405).

/-- The key of object `id` at `func`. -/
def okey (func id : Nat) : Nat := func * 65536 + id

/-- What an object reads when nothing is listed for it: its Reset column. -/
def regD (k : Nat) : W32 := objReset (k / 65536) (k % 65536)

/-- The stored value of an object, or the value in force for class B. -/
def getObj (s : State) (func id : Nat) : W32 := smGet regD s.regs (okey func id)

/-- Store an object's word. -/
def setObj (func id : Nat) (v : W32) (s : State) : State :=
  { s with regs := smPut regD (okey func id) v s.regs }

/-- A field of an object. -/
def objF (s : State) (func id hi lo : Nat) : Nat := fget (getObj s func id) hi lo

/-- Write a field of an object. -/
def setF (func id hi lo v : Nat) (s : State) : State :=
  setObj func id (fput (getObj s func id) hi lo v) s

/-- Add k to a saturating count of an object. -/
def bumpF (func id hi lo k : Nat) (s : State) : State :=
  setObj func id (fbump (getObj s func id) hi lo k) s

/-- The pending class B value of an object (14 R408). -/
def getShadow (s : State) (func id : Nat) : Option W32 :=
  (s.shadow.find? (fun e => e.1 == okey func id)).map (·.2)

/-- The value that will be in force once the pending write has taken effect. -/
def nextObj (s : State) (func id : Nat) : W32 := (getShadow s func id).getD (getObj s func id)

/-- Write a shadow. -/
def setShadow (func id : Nat) (v : W32) (s : State) : State :=
  { s with shadow := (okey func id, v) :: s.shadow.filter (fun e => e.1 != okey func id) }

/-- What was pending for an object before the writes of this clock, where it was written in this clock (14 R408). -/
def lateOld (s : State) (func id : Nat) : Option (Option W32) :=
  ((s.lately.filter (fun e => e.tb == s.clk.tb.toNat && e.key == okey func id)).getLast?).map (·.old)

/-- The pending value that a boundary of this clock brings into force: a write applied in the same clock waits for the next
boundary (14 R408). -/
def dueVal (s : State) (func id : Nat) : Option W32 :=
  match lateOld s func id with
  | some o => o
  | none => getShadow s func id

/-- The pending write of an object takes effect, if there is one (14 R408). -/
def adopt (func id : Nat) (s : State) : State :=
  match dueVal s func id with
  | none => s
  | some v => setObj func id v { s with
      shadow := if (lateOld s func id).isSome then s.shadow else s.shadow.filter (fun e => e.1 != okey func id) }

/-- A class B write goes into the shadow; that it was written in this clock is kept (14 R408). -/
def pendWrite (func id : Nat) (w : W32) (s : State) : State :=
  setShadow func id w { s with
    lately := ⟨okey func id, getShadow s func id, w, s.clk.tb.toNat⟩ :: s.lately.filter (fun e => e.tb == s.clk.tb.toNat) }

/-- Every pending write of the boundary takes effect together (14 R408). -/
def adoptBound (b : Bound) (s : State) : State :=
  s.shadow.foldl (fun t e =>
    match objRow (e.1 / 65536) (e.1 % 65536) with
    | some o => if o.bound = b then adopt (e.1 / 65536) (e.1 % 65536) t else t
    | none => t) s

/-- Every pending write of a function takes effect (14 R408, 17 R465). -/
def adoptFunc (func : Nat) (s : State) : State :=
  let s := s.shadow.foldl (fun t e => if e.1 / 65536 = func then adopt func (e.1 % 65536) t else t) s
  let late := s.shadowLate.filter (fun e => e.1 / 65536 == func)
  late.foldl (fun t e => setObj func (e.1 % 65536) e.2 t)
    { s with shadowLate := s.shadowLate.filter (fun e => e.1 / 65536 != func) }

/-- A write comes too late for the superframe start (08 R228). -/
def putLate (key : Nat) (w : W32) (s : State) : State :=
  { s with shadowLate := s.shadowLate.filter (fun e => e.1 != key) ++ [(key, w)] }

/-- Writes applied in the clock at TB t, in which slot 15 starts, count as arriving after it (08 R228): what was pending before
them is pending again. -/
def lateWrites (t : Nat) (s : State) : State :=
  let l := s.lately.filter (fun e => e.tb == t)
  let s := l.foldl (fun s e => { s with
    shadow := (match e.old with | some v => [(e.key, v)] | none => []) ++ s.shadow.filter (fun x => x.1 != e.key) }) s
  l.reverse.foldl (fun s e => putLate e.key e.new s) { s with lately := [] }

/-- Writes that came too late for a superframe start wait for the next (08 R228). -/
def lateDue (s : State) : State :=
  s.shadowLate.foldl (fun t e => setShadow (e.1 / 65536) (e.1 % 65536) e.2 t) { s with shadowLate := [] }

/-- Objects of a function return to their Reset column (00 R8), but for the IDs that survive. -/
def resetObjs (func : Nat) (keep : Nat → Bool) (s : State) : State :=
  { s with
    regs := smErase (fun k => k / 65536 == func && !keep (k % 65536)) s.regs
    shadow := s.shadow.filter (fun e => !(e.1 / 65536 == func && !keep (e.1 % 65536)))
    shadowLate := s.shadowLate.filter (fun e => !(e.1 / 65536 == func && !keep (e.1 % 65536))) }

-- Trellis contents.

/-- What an unlisted byte of the Trellis reads: every reset wipes the Trellis with zero (09 R284). -/
def memD (_ : Nat) : Byte := 0

/-- The size of the Trellis in bytes (09 R270). -/
def trSize : Nat := 2 ^ 23

/-- One byte of the Trellis. -/
def memByte (s : State) (a : Nat) : Byte := smGet memD s.mem (a % trSize)

/-- n bytes of the Trellis from address a. -/
def memRead (s : State) (a n : Nat) : Bytes := (List.range n).map (fun i => memByte s (a + i))

/-- A field of n bytes at address a, most significant first (09 R273). -/
def memNat (s : State) (a n : Nat) : Nat := beNat (memRead s a n)

/-- Write one byte of the Trellis. -/
def memPut (a : Nat) (b : Byte) (m : List Host.Cell) : List Host.Cell := smPut memD (a % trSize) b m

/-- Write bytes from an address on. -/
def memPutL : Nat → Bytes → List Host.Cell → List Host.Cell
  | _, [], m => m
  | a, b :: t, m => memPutL (a + 1) t (memPut a b m)

/-- The words of 8 bytes that a write of n bytes at a covers whole (09 R278). -/
def wholeWords (a n : Nat) : Nat → Bool := fun w => decide (a ≤ 8 * w) && decide (8 * w + 8 ≤ a + n)

/-- The words that a write of n bytes at a covers whole are no longer poisoned (09 R278). -/
def unpoison (a n : Nat) (s : State) : State := { s with poison := s.poison.filter (fun w => !wholeWords a n w) }

/-- Write bytes to the Trellis; a word covered whole is no longer poisoned (09 R278). -/
def memWrite (a : Nat) (b : Bytes) (s : State) : State :=
  { s with mem := memPutL a b s.mem, poison := s.poison.filter (fun w => !wholeWords a b.length w) }

/-- Write a number of n bytes, most significant first. -/
def memSetNat (a n v : Nat) (s : State) : State := memWrite a (beBytes n v) s

/-- Zero every byte from lo to hi - 1 and clear its poison: a wipe (09 R284). -/
def memWipe (lo hi : Nat) (s : State) : State :=
  { s with
    mem := s.mem.filter (fun e => !(decide (lo ≤ e.1) && decide (e.1 < hi)))
    poison := s.poison.filter (fun w => !(decide (lo ≤ 8 * w) && decide (8 * w < hi))) }

/-- Insert into a rising list without repeats. -/
def insRising (k : Nat) : List Nat → List Nat
  | [] => [k]
  | j :: t => if k < j then k :: j :: t else if k = j then j :: t else j :: insRising k t

/-- Mark a word poisoned (09 R278). -/
def poisonWord (w : Nat) (s : State) : State := { s with poison := insRising w s.poison }

/-- Some word of the n bytes at a is poisoned. -/
def isPoisoned (s : State) (a n : Nat) : Bool := s.poison.any (fun w => decide (8 * w < a + n) && decide (a < 8 * w + 8))

/-- EXTEST, CLAMP or HIGHZ is in the instruction register of the test access port (19 R498). -/
def tapHold (s : State) : Bool := s.svc.tapIr == 0 || s.svc.tapIr == 3 || s.svc.tapIr == 4

-- What the block sends.

/-- Append to what the block has sent. -/
def emit (o : OutItem) (s : State) : State := { s with out := s.out ++ [o] }

/-- Use one free value: the occasion number, and the state that has used it. -/
def takeFree (n : Nat) (s : State) : State := { s with free := s.free + n }

-- Events (02 R58, R59).

/-- What an unlisted source queue holds. -/
def srcQ0 : SrcQ := ⟨[], 0, 0⟩

/-- The record that reports the drops of a source (02 R59). -/
def droppedRec (src : Nat) (func : Byte) (now : W64) (q : SrcQ) : EvRec :=
  ⟨src, func, false, 1, now, BitVec.ofNat 16 (evCode .eventsDropped), beBytes 2 q.dropped ++ beBytes 8 q.first.toNat⟩

/-- A record joins its source's queue of four, behind an EVENTS_DROPPED record where drops are owed (02 R59). A record
that cannot be stored is counted, in the source's counter and in EVT_LOST.DROPPED. -/
def srcStore (r : EvRec) (s : State) : State :=
  let q := vAt s.ev.srcs r.src
  let need := if q.dropped = 0 then 1 else 2
  if q.q.length + need ≤ 4 then
    let own := if q.dropped = 0 then [] else [droppedRec r.src r.func r.tb q]
    { s with ev := { s.ev with srcs := vSet s.ev.srcs r.src ⟨q.q ++ own ++ [r], 0, 0⟩ } }
  else
    bumpF 0x78 0xE0A 15 0 1
      { s with ev := { s.ev with
          srcs := vSet s.ev.srcs r.src
            ⟨q.q, min (q.dropped + 1) 0xFFFF, if q.dropped = 0 then r.tb else q.first⟩ } }

/-- FAULT_UNABSORBED is remembered for SYS_LED (18 R482). -/
def noteUnabsorbed (e : Ev) (s : State) : State :=
  if e = .faultUnabsorbed then { s with svc := { s.svc with unabsorbed := true } } else s

/-- A source raises an event, stamped with TB (02 R42). -/
def raise (src func : Nat) (e : Ev) (data : Bytes) (s : State) : State :=
  noteUnabsorbed e <| srcStore ⟨src, BitVec.ofNat 8 func, false, BitVec.ofNat 3 (evSev e), s.clk.tb, BitVec.ofNat 16 (evCode e), data⟩ s

-- Functions, domains and reset (17).

/-- The power domains of a function (01, subsystems; 17, power domains). -/
def funcDomains (func : Nat) : List Nat :=
  if 0x10 ≤ func ∧ func ≤ 0x15 then [func - 0x10, func - 0x10 + 6]
  else if 0x20 ≤ func ∧ func ≤ 0x33 then [12 + (func - 0x20) / 5]
  else if 0x40 ≤ func ∧ func ≤ 0x50 then [22]
  else if func = 0x58 then [23] else if func = 0x59 then [24]
  else if func = 0x5C ∨ func = 0x5D then [25]
  else if func = 0x60 then [26]
  else if func = 0x68 ∨ func = 0x69 then [21]
  else if 0x70 ≤ func ∧ func ≤ 0x73 then [20]
  else if 0x7C ≤ func ∧ func ≤ 0x7F then [16 + (func - 0x7C)]
  else [29]

/-- The state of a domain. -/
def domOf (s : State) (d : Nat) : DomSt := s.pw.dom.toList.getD d .off

/-- Switch a domain. -/
def setDom (d : Nat) (v : DomSt) (s : State) : State := { s with pw := { s.pw with dom := vSet s.pw.dom d v } }

/-- FUNC codes of the table of 01. -/
def funcDefined (func : Nat) : Bool :=
  func = 0 || (0x10 ≤ func && func ≤ 0x15) || (0x20 ≤ func && func ≤ 0x33) || (0x40 ≤ func && func ≤ 0x4F)
    || func = 0x50 || func = 0x58 || func = 0x59 || func = 0x5C || func = 0x5D || func = 0x60 || func = 0x68
    || func = 0x69 || (0x70 ≤ func && func ≤ 0x73) || func = 0x78 || (0x7C ≤ func && func ≤ 0x7F)

/-- A function is held in reset, resetting, held by a lost region, or without power (14 R405, 17 R459, 09 R286). -/
def funcDown (s : State) (func : Nat) : Bool :=
  s.pw.held.any (fun f => f.toNat == func) || s.pw.resetting.any (fun r => r.func.toNat == func)
    || s.pw.regionHeld.any (fun f => f.toNat == func)
    || (funcDomains func).any (fun d => decide (domOf s d ≠ .on))

/-- Held by FUNC_RESET with HOLD (17 R463). -/
def funcHeld (s : State) (func : Nat) : Bool := s.pw.held.any (fun f => f.toNat == func)

-- Ports, groups and clusters.

/-- FUNC of line port p. -/
def pf (p : Nat) : Nat := 0x10 + p

/-- PORT_STATUS.STATE (03). -/
def portState (s : State) (p : Nat) : Nat := objF s (pf p) 0x403 31 28

/-- A port that failed while in SERVICE: FAILED already, and contributing until the superframe start (03 R83; 18, worked
example of a lost driver supply). -/
def failLeaves (s : State) (p : Nat) : Bool :=
  portState s p == 5 && decide ((vAt s.port p).move = some (PortMove.leave 5))

/-- Port p contributes: in SERVICE (03 R78), or FAILED until the superframe start. -/
def inService (s : State) (p : Nat) : Bool := portState s p == 2 || failLeaves s p

/-- GROUP_CTRL.MODE in force. -/
def grpMode (s : State) : Nat := objF s 0 0x410 31 30

/-- The group of port p in a mode (03 R78). -/
def groupOfM (mode p : Nat) : Nat :=
  if mode = 0 then 0 else if mode = 1 then p / 3 else if mode = 2 then p % 3 else p

/-- The number of groups in a mode. -/
def groupsOfM (mode : Nat) : Nat := if mode = 0 then 1 else if mode = 1 then 2 else if mode = 2 then 3 else 6

/-- The group of port p. -/
def groupOf (s : State) (p : Nat) : Nat := groupOfM (grpMode s) p

/-- Ports of group g under the current mode. -/
def portsOf (s : State) (g : Nat) : List Nat := (List.range 6).filter (fun p => groupOf s p == g)

/-- Ports of group g in SERVICE (03 R78). -/
def svcPorts (s : State) (g : Nat) : List Nat := (portsOf s g).filter (fun p => inService s p)

/-- Ports of group g whose reception is measured: in SERVICE, or monitoring in REMOVED_AUTO (03 R84, port states). -/
def monPorts (s : State) (g : Nat) : List Nat := (portsOf s g).filter (fun p => inService s p || portState s p == 3)

/-- Group g exists under the current mode. -/
def groupExists (s : State) (g : Nat) : Bool := decide (g < groupsOfM (grpMode s))

/-- A mask of ports. -/
def portMask (l : List Nat) : Nat := l.foldl (fun a p => a ||| 2 ^ p) 0

/-- FUNC of digital cluster c. -/
def cf (c : Nat) : Nat := 0x20 + c

/-- The state of cluster c. -/
def clOf (s : State) (c : Nat) : ClSt := s.cl.cl.toList.getD c .retired

/-- Cluster c can run work: active, powered, not in reset, not failed. -/
def clUsable (s : State) (c : Nat) : Bool := decide (clOf s c = .active) && !funcDown s (cf c)

/-- Replace a port's record. -/
def setPort (p : Nat) (f : PortSt → PortSt) (s : State) : State :=
  { s with port := vSet s.port p (f (vAt s.port p)) }

/-- The record of a port. -/
def portOf (s : State) (p : Nat) : PortSt := vAt s.port p

/-- TB as a number of ticks. -/
def now (s : State) : Nat := s.clk.tb.toNat

/-- Ticks of 2.5 ns in n microseconds (00). -/
def us (n : Nat) : Nat := 400 * n

/-- The life-cycle state (17 R476): that of the last complete record, or FACTORY. -/
def lifeCycle (s : State) : Nat := match s.fuse.records.getLast? with | some r => r.val | none => 0

end Sys2Proof.Machine
end

