-- ==== Sys2Proof/Machine/Caseri.lean ====
section
/-!
DEFINITION. The text side of the console (15 R427 to R430): words, numbers, the requests that words stand for, the reply
lines the manual fixes, and the framing of binary frames.
-/
namespace Sys2Proof.Machine

/-- Upper case (R427). -/
def upByte (b : Byte) : Byte := if 0x61 ≤ b.toNat ∧ b.toNat ≤ 0x7A then b - 0x20 else b

/-- The words of a line, separated by spaces (R428). -/
def tokens : Bytes → List Bytes
  | [] => []
  | b :: t =>
    if b = 0x20 then (match t with | [] => [] | _ => tokens t)
    else match t with
      | [] => [[b]]
      | c :: _ =>
        if c = 0x20 then [b] :: tokens t
        else match tokens t with
          | w :: r => (b :: w) :: r
          | [] => [[b]]

/-- A decimal number. -/
def decNum (b : Bytes) : Option Nat :=
  if b.isEmpty then none
  else b.foldl (fun a x => a.bind (fun n =>
    if 0x30 ≤ x.toNat ∧ x.toNat ≤ 0x39 then some (n * 10 + (x.toNat - 0x30)) else none)) (some 0)

/-- The value of a hexadecimal digit. -/
def hexDigit (x : Nat) : Option Nat :=
  if 0x30 ≤ x ∧ x ≤ 0x39 then some (x - 0x30) else if 0x41 ≤ x ∧ x ≤ 0x46 then some (x - 0x37) else none

/-- Hexadecimal digits with underscores ignored (R428). -/
def hexNum (b : Bytes) : Option Nat :=
  if (b.filter (· ≠ 0x5F)).isEmpty then none
  else (b.filter (· ≠ 0x5F)).foldl (fun a x => a.bind (fun n => (hexDigit x.toNat).map (fun d => n * 16 + d))) (some 0)

/-- A number of a line: hexadecimal with 0x, or decimal (R428). -/
def conNum (b : Bytes) : Option Nat :=
  match b with
  | 0x30 :: 0x58 :: t => hexNum t
  | _ => decNum b

/-- All of a list, or nothing. -/
def allSome {α : Type} : List (Option α) → Option (List α)
  | [] => some []
  | none :: _ => none
  | some a :: t => (allSome t).map (a :: ·)

/-- A request that a word stands for: opcode, FUNC, parameters. -/
abbrev WordReq := Nat × Nat × Bytes

/-- PARAM_READ of objects. -/
def prReq (func : Nat) (ids : List Nat) : WordReq := (0x101, func, ids.flatMap (fun i => beBytes 2 i ++ [0, 0]))

/-- A bank name x_n: region and index. -/
def bankName (b : Bytes) : Option (Nat × Nat) :=
  match b with
  | r :: 0x5F :: t =>
    if 0x41 ≤ r.toNat ∧ r.toNat ≤ 0x44 then
      (decNum t).bind (fun n => if n ≤ 16 then some (r.toNat - 0x41, n) else none)
    else none
  | _ => none

/-- The requests of a word with its arguments as numbers, for the words whose arguments are plain numbers. -/
def wordNum (w : Bytes) (n : List Nat) : Option (List WordReq) :=
  if w = ascii "PR" then
    match n with
    | f :: ids => if ids.isEmpty ∨ 16 < ids.length ∨ 255 < f then none else some [prReq f ids]
    | [] => none
  else if w = ascii "PW" then
    match n with
    | [f, i, v] => if 255 < f then none else some [(0x102, f, beBytes 2 i ++ [0, 0] ++ beBytes 4 v)]
    | _ => none
  else if w = ascii "PM" then
    match n with
    | [f, i, m, v] => if 255 < f then none else some [(0x103, f, beBytes 2 i ++ [0, 0] ++ beBytes 4 m ++ beBytes 4 v)]
    | _ => none
  else if w = ascii "PING" then (if n.isEmpty then some [(0x001, 0, [])] else none)
  else if w = ascii "ID?" then (if n.isEmpty then some [(0x002, 0, [])] else none)
  else if w = ascii "CON?" then (if n.isEmpty then some [prReq 0x68 [0xB01, 0xB02]] else none)
  else if w = ascii "CHAIN?" then (if n.isEmpty then some [prReq 0x69 [0xB09, 0xB0A]] else none)
  else if w = ascii "ASSIGN" then (if n.isEmpty then some [(0xB01, 0x69, [])] else none)
  else if w = ascii "WAKE" then (match n with | [a] => some [(0xB02, 0x69, beBytes 1 a ++ [0, 0, 0])] | _ => none)
  else if w = ascii "MAINS?" then (if n.isEmpty then some [prReq 0x78 [0xE02, 0xE03, 0xE04, 0xE05]] else none)
  else if w = ascii "HL?" then (match n with | [l] => if l ≤ 1 then some [prReq (0x5C + l) [0x30, 0x31]] else none | _ => none)
  else if w = ascii "PORT?" then
    (match n with | [p] => if p ≤ 5 then some [prReq (pf p) [0x403, 0x400, 0x404]] else none | _ => none)
  else if w = ascii "SOUND" then (match n with | [p] => if p ≤ 5 then some [(0x401, pf p, [])] else none | _ => none)
  else if w = ascii "ADMIT" then (match n with | [p] => if p ≤ 5 then some [(0x404, pf p, [])] else none | _ => none)
  else if w = ascii "BBTX" then
    (match n with | [p, t] => if p ≤ 5 ∧ t < 64 then some [(0x530, pf p, beBytes 4 (t * 2 ^ 26 + 2 * 2 ^ 22))] else none | _ => none)
  else if w = ascii "BBRX" then (match n with | [g] => if g ≤ 5 then some [(0x520, 0, beBytes 1 g ++ [0, 0, 0])] else none | _ => none)
  else if w = ascii "NOISE" then
    (match n with | [p] => if p ≤ 5 then some [prReq (pf p) [0x524], (0x523, pf p, [])] else none | _ => none)
  else if w = ascii "NB?" then
    (match n with
    | [g] => if g ≤ 5 then some (prReq 0 ((List.range 8).map (0x600 + ·) ++ (List.range 8).map (0x630 + ·)) ::
        (List.range 6).flatMap (fun p => [prReq (pf p) [0x620], (0x602, pf p, [])])) else none
    | _ => none)
  else if w = ascii "NBRX" then
    (match n with | [g, k] => if g ≤ 5 ∧ k ≤ 7 then some [(0x601, 0, beBytes 1 g ++ beBytes 1 k ++ [0, 0])] else none | _ => none)
  else if w = ascii "NBTX" then
    (match n with
    | [p, k, t] => if p ≤ 5 ∧ k ≤ 7 ∧ t < 64 then some [(0x603, pf p, beBytes 4 (t * 2 ^ 26 + k * 2 ^ 23))] else none
    | _ => none)
  else if w = ascii "PORTLINK" then (match n with | [p] => if p ≤ 5 then some [prReq (pf p) [0x711]] else none | _ => none)
  else if w = ascii "DEC?" then (if n.isEmpty then some [prReq 0 [0x541, 0x542, 0x543]] else none)
  else if w = ascii "LINK?" then (if n.isEmpty then some [prReq 0 [0x708, 0x709, 0x70A]] else none)
  else if w = ascii "NODE" then (match n with | [i] => if i ≤ 4095 then some [(0x710, 0, beBytes 4 (i * 2 ^ 20))] else none | _ => none)
  else if w = ascii "TRELLIS?" then
    (if n.isEmpty then some [prReq 0 [0xF00, 0xF01], prReq 0x7C [0xF08, 0xF09], prReq 0x7D [0xF08, 0xF09],
      prReq 0x7E [0xF08, 0xF09], prReq 0x7F [0xF08, 0xF09]] else none)
  else if w = ascii "Q?" then (match n with | [q] => if q ≤ 255 then some [(0xF10, 0, beBytes 1 q ++ [0, 0, 0])] else none | _ => none)
  else if w = ascii "CLOCHE?" then (if n.isEmpty then some [prReq 0x50 [0x800, 0x801, 0x802]] else none)
  else if w = ascii "CETEST" then (match n with | [e] => if e ≤ 15 then some [(0x820, 0x40 + e, [])] else none | _ => none)
  else if w = ascii "BH?" then (match n with | [b] => if b ≤ 1 then some [prReq (0x58 + b) [0x904, 0x905, 0x906, 0x907]] else none | _ => none)
  else if w = ascii "BHTEST" then
    (match n with
    | [b, m, t] => if b ≤ 1 ∧ m ≤ 3 ∧ t ≤ 255 then some [(0x930, 0x58 + b, beBytes 1 m ++ beBytes 1 t ++ [0, 0])] else none
    | _ => none)
  else if w = ascii "BHTRACE" then
    (match n with | [b, m] => if b ≤ 1 ∧ m ≤ 3 then some [(0x920, 0x58 + b, beBytes 1 m ++ [0, 0, 0])] else none | _ => none)
  else if w = ascii "GRAFT?" then (match n with | [g] => if g ≤ 15 then some [prReq 0 [0x920 + g, 0x930 + g]] else none | _ => none)
  else if w = ascii "MEAS?" then (match n with | [c] => if c ≤ 23 then some [(0xA05, 0x60, beBytes 1 c ++ [0, 0, 0])] else none | _ => none)
  else if w = ascii "MEASMAP" then (if n.isEmpty then some [prReq 0x60 [0xA03, 0xA01]] else none)
  else if w = ascii "APP?" then (match n with | [c] => if c ≤ 3 then some [prReq (0x70 + c) [0xC03, 0xC04]] else none | _ => none)
  else if w = ascii "PWR?" then (if n.isEmpty then some [prReq 0 [0x201, 0x202, 0x203]] else none)
  else if w = ascii "THERM?" then
    (if n.isEmpty then some (prReq 0 [0x211] :: (List.range 6).map (fun p => prReq (pf p) [0x218])) else none)
  else if w = ascii "LC?" then (if n.isEmpty then some [prReq 0 [0x300]] else none)
  else if w = ascii "RELEASE" then (match n with | [f] => if f ≤ 255 then some [(0x203, f, [])] else none | _ => none)
  else if w = ascii "SERVICE" then (match n with | [c] => some [(0x303, 0, beBytes 4 c)] | _ => none)
  else if w = ascii "METER" then (match n with | [m] => if m ≤ 255 then some [(0x102, 0, beBytes 2 0xD00 ++ [0, 0] ++ beBytes 4 (m * 2 ^ 24))] else none | _ => none)
  else if w = ascii "TEST" then (if n.isEmpty then some [(0xD01, 0, [])] else none)
  else if w = ascii "LOCATE" then (match n with | [t] => if t ≤ 65535 then some [(0xD02, 0, beBytes 2 t ++ [0, 0])] else none | _ => none)
  else if w = ascii "LEDTEST" then (if n.isEmpty then some [(0xD03, 0, [])] else none)
  else none

/-- The requests of a line (R428): `none` where Caseri cannot parse it. `v` is EPOCH × 2^32 + ESN of the last record,
for EVT. -/
def wordReqs (v : Nat) (l : List Bytes) : Option (List WordReq) :=
  match l with
  | [] => some []
  | w :: args =>
    if w = ascii "RESET" then
      match args with
      | [a] =>
        if a = ascii "DEVICE" then some [(0x201, 0, [])]
        else (conNum a).bind (fun f => if f ≤ 255 then some [(0x202, f, [0, 0, 0, 0])] else none)
      | [a, h] =>
        if h = ascii "HOLD" then (conNum a).bind (fun f => if f ≤ 255 then some [(0x202, f, [0x80, 0, 0, 0])] else none)
        else none
      | _ => none
    else if w = ascii "REMOVE" then
      match args with
      | [a] => (conNum a).bind (fun p => if p ≤ 5 then some [(0x403, pf p, [0, 0, 0, 0])] else none)
      | [a, f] =>
        if f = ascii "FORCE" then (conNum a).bind (fun p => if p ≤ 5 then some [(0x403, pf p, [0, 0, 0, 1])] else none)
        else none
      | _ => none
    else if w = ascii "BANKTEST" then
      match args with
      | [a] => (bankName a).map (fun r => [(0xF03, 0x7C + r.1, beBytes 1 r.2 ++ [0, 0, 0])])
      | _ => none
    else if w = ascii "CODEC" then
      match args with
      | [a] => (bankName a).bind (fun r => if r.2 ≤ 4 then some [(0x541, 0x20 + 5 * r.1 + r.2, [])] else none)
      | _ => none
    else if w = ascii "TRELLIS?" ∧ args ≠ [] then
      match args with
      | [[r]] => if 0x41 ≤ r.toNat ∧ r.toNat ≤ 0x44 then some [prReq (0x7C + (r.toNat - 0x41)) [0xF08, 0xF09]] else none
      | _ => none
    else if w = ascii "EVT" then
      match args with
      | [a] => (conNum a).bind (fun n =>
          if 1 ≤ n ∧ n ≤ 16 then
            let x := (v + 2 ^ 48 - (n - 1)) % 2 ^ 48
            some [(0xE01, 0, beBytes 2 (x / 2 ^ 32) ++ beBytes 2 n ++ beBytes 4 x)]
          else none)
      | _ => none
    else (allSome (args.map conNum)).bind (fun n => wordNum w n)

/-- A hexadecimal digit as a character. -/
def hexChar (d : Nat) : Byte := BitVec.ofNat 8 (if d < 10 then 0x30 + d else 0x37 + d)

/-- n hexadecimal digits with an underscore between every four when there are more than four (00, names and notation). -/
def hexText (n v : Nat) : Bytes :=
  [0x30, 0x78] ++ (List.range n).flatMap (fun i =>
    let d := [hexChar ((v >>> (4 * (n - 1 - i))) % 16)]
    if i ≠ 0 ∧ n > 4 ∧ (n - i) % 4 = 0 then 0x5F :: d else d)

/-- A decimal number as text. -/
def decTextAux : Nat → Nat → Bytes
  | 0, v => [BitVec.ofNat 8 (0x30 + v % 10)]
  | k + 1, v => if v < 10 then [BitVec.ofNat 8 (0x30 + v)] else decTextAux k (v / 10) ++ [BitVec.ofNat 8 (0x30 + v % 10)]

/-- A decimal number as text. -/
def decText (v : Nat) : Bytes := decTextAux 40 v

/-- CR LF. -/
def crlf : Bytes := [0x0D, 0x0A]

/-- The prompt that follows the last line of every reply (R427). -/
def prompt : Bytes := ascii "> "

/-- The mnemonic of a status (14 R402). -/
def statusName (st : Nat) : Bytes :=
  if st = 0x0000 then ascii "DONE" else if st = 0x0001 then ascii "ACCEPTED" else if st = 0x0002 then ascii "IN_PROGRESS"
  else if st = 0x0100 then ascii "BAD_OPCODE" else if st = 0x0101 then ascii "BAD_LENGTH"
  else if st = 0x0102 then ascii "BAD_CRC" else if st = 0x0103 then ascii "WRONG_REVISION"
  else if st = 0x0104 then ascii "BAD_TAG" else if st = 0x0105 then ascii "BAD_DEST"
  else if st = 0x0106 then ascii "BAD_FUNC" else if st = 0x0107 then ascii "BAD_OBJECT"
  else if st = 0x0108 then ascii "NOT_WRITABLE" else if st = 0x0200 then ascii "NOT_IN_STATE"
  else if st = 0x0201 then ascii "FUNCTION_RUNNING" else if st = 0x0202 then ascii "FUNCTION_IN_RESET"
  else if st = 0x0203 then ascii "NO_RESOURCE" else if st = 0x0204 then ascii "TIMEOUT"
  else if st = 0x0205 then ascii "QUEUE_FAULT" else if st = 0x0300 then ascii "KEY_EXHAUSTED"
  else if st = 0x0301 then ascii "AUTH_FAIL" else if st = 0x0400 then ascii "OUT_OF_BAND"
  else if st = 0x0401 then ascii "BAD_SYNC_WORD" else ascii "CAL_RANGE"

/-- The words of a line joined by single spaces. -/
def joinWords : List Bytes → Bytes
  | [] => []
  | [w] => w
  | w :: t => w ++ [0x20] ++ joinWords t

/-- The lines of PARAM_READ for `PR` (15): `PR f id = value`. -/
def prLines (func : Nat) : Nat → Bytes → Bytes
  | 0, _ => []
  | n + 1, b =>
    ascii "PR " ++ hexText 2 func ++ [0x20] ++ hexText 4 (beAt b 0 2) ++ ascii " = " ++ hexText 8 (beAt b 4 4) ++ crlf
      ++ prLines func n (b.drop 8)

/-- PASS, FAIL or SKIP, as a self-test result is coded (18, self-test reply). -/
def verdict (r : Nat) : Bytes := if r = 0 then ascii "PASS" else if r = 1 then ascii "FAIL" else ascii "SKIP"

/-- The lines of `TEST` (18): one for each item, then the sums. -/
def testLines (params : Bytes) : Bytes :=
  let res := (List.range 10).map (fun i => byteAt params (5 + 4 * i))
  (["ROM", "TRELLIS", "CLUSTERS", "CLOCHE", "D2D", "PORTS", "MEAS", "BACKHAUL", "HOST", "CHAIN"].zipIdx.flatMap (fun x =>
    ascii "TEST " ++ ascii x.1 ++ [0x20] ++ verdict (beAt params (5 + 4 * x.2) 1) ++ [0x20]
      ++ decText (beAt params (7 + 4 * x.2) 1) ++ ascii "/" ++ decText (beAt params (6 + 4 * x.2) 1) ++ crlf))
    ++ ascii "TEST DONE FAIL=" ++ decText (res.count 1) ++ ascii " SKIP=" ++ decText (res.count 2) ++ crlf

/-- Two decimal digits. -/
def decTwo (v : Nat) : Bytes := (if v < 10 then ascii "0" else []) ++ decText v

/-- Three decimals of a figure in thousandths. -/
def milliText (v : Nat) : Bytes :=
  decText (v / 1000) ++ ascii "." ++ [BitVec.ofNat 8 (0x30 + v / 100 % 10)] ++ decTwo (v % 100)

/-- The state names of 17, states table. -/
def lifeName (v : Nat) : Bytes :=
  ascii (["FACTORY", "PROVISIONED", "FIELD", "SERVICE", "RETIRED"].getD v "RETIRED")

/-- The reply text of a line whose word the manual prints word for word; `none` where it gives an example only. -/
def wordText (line : List Bytes) (func status : Nat) (params : Bytes) : Option Bytes :=
  let w := line.headD []
  if 0x100 ≤ status then
    some (ascii "ERR " ++ statusName status ++ ascii " DETAIL=" ++ hexText 4 (beAt params 2 2) ++ crlf)
  else if w = ascii "PR" then some (prLines func (params.length / 8) params)
  else if w = ascii "PW" ∨ w = ascii "PM" ∨ w = ascii "LEDTEST" then some (w ++ ascii " DONE" ++ crlf)
  else if w = ascii "LOCATE" then some (ascii "LOCATE DONE" ++ crlf)
  else if w = ascii "PING" then some (ascii "PING TB=" ++ hexText 16 (beAt params 0 8) ++ crlf)
  else if w = ascii "WAKE" then some (joinWords line ++ ascii " SENT" ++ crlf)
  else if w = ascii "ASSIGN" then some (ascii "ASSIGN " ++ decText (beAt params 0 1) ++ ascii " DEVICES" ++ crlf)
  else if w = ascii "RESET" then
    if line.tail = [ascii "DEVICE"] then some (ascii "RESET ACCEPTED" ++ crlf)
    else some (ascii "RESET " ++ line.tail.headD [] ++ ascii " DONE" ++ crlf)
  else if w = ascii "RELEASE" then some (joinWords line ++ ascii " DONE" ++ crlf)
  else if w = ascii "REMOVE" ∨ w = ascii "ADMIT" then
    some (w ++ [0x20] ++ line.tail.headD [] ++ ascii " ACCEPTED" ++ crlf)
  else if w = ascii "TEST" then some (testLines params)
  else if w = ascii "CETEST" then some (ascii "CETEST CE_" ++ decTwo (func - 0x40) ++ [0x20] ++ verdict (beAt params 0 1) ++ crlf)
  else if w = ascii "CODEC" then
    some (joinWords line ++ [0x20] ++ verdict (beAt params 0 1) ++ ascii " CW=" ++ decText (beAt params 2 2) ++ ascii " IT="
      ++ decText (beAt params 4 2 / 10) ++ ascii "." ++ decText (beAt params 4 2 % 10) ++ ascii " FAIL=" ++ decText (beAt params 6 2)
      ++ crlf)
  else if w = ascii "NBTX" then
    some (ascii "NBTX " ++ decText (func - 0x10) ++ ascii " CH" ++ decText (((conNum (line.getD 2 [])).getD 0)) ++ ascii " DONE RMS="
      ++ milliText (beAt params 0 2) ++ ascii "V BURSTS=" ++ decText (beAt params 2 2) ++ crlf)
  else if w = ascii "LC?" then
    some (ascii "LC " ++ lifeName (nfield (beAt params 4 4) 31 28) ++ ascii " RECORDS=" ++ decText (nfield (beAt params 4 4) 27 22)
      ++ ascii "/32 SVC_EN_N=" ++ (if nfield (beAt params 4 4) 21 21 = 1 then ascii "LOW" else ascii "HIGH") ++ crlf)
  else if w = ascii "CHAIN?" then
    let st := beAt params 4 4
    let c := beAt params 12 4
    some (ascii "CHAIN ADDR=" ++ decTwo (nfield st 31 26) ++ ascii " ENI=" ++ decText (nfield st 25 25) ++ ascii " ENO="
      ++ decText (nfield st 24 24) ++ ascii " RUN STUCK=" ++ decText (nfield st 23 23) ++ ascii " COLL=" ++ decText (nfield c 31 24)
      ++ ascii " CRC=" ++ decText (nfield c 23 16) ++ ascii " ABORT=" ++ decText (nfield c 15 8) ++ ascii " TX="
      ++ decText (nfield c 7 0) ++ crlf)
  else none

/-- Escapes of a binary frame (R430). -/
def escBytes (b : Bytes) : Bytes :=
  b.flatMap (fun x => if x = 0x01 ∨ x = 0x04 ∨ x = 0x10 ∨ x = 0x11 ∨ x = 0x13 then [0x10, x ^^^ 0x20] else [x])

/-- A binary frame around a packet (R430). -/
def conFrame (packet : Bytes) : Bytes := [0x01] ++ escBytes packet ++ [0x04]

end Sys2Proof.Machine
end

