-- ==== Sys2Proof/Machine/Queues.lean ====
section
/-!
DEFINITION. The one queue design (10 R288 to R303): catalogue, pointers, packets, watermarks, and the operations that
producers and consumers of other chapters use.
-/
namespace Sys2Proof.Machine

/-- A row of the catalogue (10): SIZE in units, width of a unit in bits, crossing queue, retaining queue, DROP producer. -/
structure QCat where
  size : Nat
  width : Nat
  crossing : Bool
  retain : Bool
  drop : Bool
deriving DecidableEq, Repr

/-- The queue catalogue (10). -/
def qCat (q : Nat) : Option QCat :=
  if q ≤ 1 then some ⟨8192, 64, false, false, true⟩
  else if q ≤ 3 then some ⟨8192, 64, false, false, false⟩
  else if q ≤ 5 then some ⟨8192, 64, false, false, true⟩
  else if q ≤ 7 then some ⟨8192, 64, false, false, false⟩
  else if q ≤ 0xD then some ⟨6144, 64, false, true, false⟩
  else if q = 0xE then some ⟨8192, 64, false, false, false⟩
  else if 0x10 ≤ q ∧ q ≤ 0x19 then some ⟨2048, 64, false, false, false⟩
  else if 0x40 ≤ q ∧ q ≤ 0x45 then some ⟨64, 128, true, false, true⟩
  else if 0x48 ≤ q ∧ q ≤ 0x4D then some ⟨64, 128, true, false, false⟩
  else if 0x50 ≤ q ∧ q ≤ 0x57 then some ⟨32, 64, true, false, true⟩
  else if q = 0x58 ∨ q = 0x59 then some ⟨64, 64, true, false, false⟩
  else if q = 0x5A ∨ q = 0x5B then some ⟨256, 64, true, false, true⟩
  else if q = 0x5C ∨ q = 0x5D then some ⟨256, 64, true, false, false⟩
  else if 0x60 ≤ q ∧ q ≤ 0x68 then some ⟨16, 64, true, false, true⟩
  else if q = 0x69 then some ⟨512, 256, true, false, true⟩
  else if q = 0x70 then some ⟨16, 9, true, false, true⟩
  else if q = 0x71 then some ⟨16, 9, true, false, false⟩
  else if q = 0x72 then some ⟨512, 9, true, false, true⟩
  else if q = 0x73 then some ⟨512, 9, true, false, false⟩
  else none

/-- SIZE of a queue; 0 outside the catalogue. -/
def qSize (q : Nat) : Nat := match qCat q with | some c => c.size | none => 0

/-- Width of a unit in bits; 0 outside the catalogue. -/
def qWidth (q : Nat) : Nat := match qCat q with | some c => c.width | none => 0

/-- A queue after its reset: pointers zero, WM 0xC0, HYST 0x10 (10, queue status block). -/
def que0 : Que :=
  ⟨0, 0, 0, [], [], none, false, 0, false, false, false, false, 0xC0, 0x10, 0, 0, 0, 0, 0, 0, 0, 0, false⟩

/-- The queue with a QID. -/
def getQ (s : State) (q : Nat) : Que := smGet (fun _ => que0) s.queues q

/-- Replace a queue. -/
def setQ (q : Nat) (v : Que) (s : State) : State := { s with queues := smPut (fun _ => que0) q v s.queues }

/-- Distance from pointer a up to pointer b, modulo 2 × SIZE (R288). -/
def ptrDist (size a b : Nat) : Nat := if size = 0 then 0 else (b + 2 * size - a) % (2 * size)

/-- A pointer advanced by n units. -/
def ptrAdd (size a n : Nat) : Nat := if size = 0 then 0 else (a + n) % (2 * size)

/-- The level: PP − RP (R288). -/
def qLevel (size : Nat) (q : Que) : Nat := ptrDist size q.rp q.pp

/-- Units in use, the packet being written included: WP − RP. -/
def qUsed (size : Nat) (q : Que) : Nat := ptrDist size q.rp q.wp

/-- The watermark evaluation of R301: the queue after it, and whether QUEUE_WATERMARK is due (R302). -/
def qWater (size : Nat) (q : Que) : Que × Bool :=
  let lv := qLevel size q
  let q := { q with peak := max q.peak lv }
  if !q.above && atMark q.wm.toNat size lv then
    ({ q with above := true, up := true, upCount := min (q.upCount + 1) 255 }, !q.up)
  else if q.above && underLow q.wm.toNat q.hyst.toNat size lv then
    ({ q with above := false, down := true, downCount := min (q.downCount + 1) 255 }, false)
  else (q, false)

/-- Store a queue after the evaluation of its watermark, raising QUEUE_WATERMARK where due (R302). -/
def putQ (qid : Nat) (q : Que) (s : State) : State :=
  let r := qWater (qSize qid) q
  let s := setQ qid r.1 s
  if r.2 then raise 76 0 .queueWatermark (beBytes 1 qid ++ [0] ++ beBytes 4 (qLevel (qSize qid) q)) s else s

/-- Abort the packet being written (R293): WP returns to the rewind mark, which is PP. -/
def qAbort (q : Que) : Que := { q with wp := q.pp, writing := none, aborts := min (q.aborts + 1) 0xFFFF }

/-- Units of a packet of n bytes, length word included (R292). -/
def pktUnits (n : Nat) : Nat := 1 + cdiv n 8

/-- The queue drops its producer: the packet is aborted and counted in DROPS (R294). -/
def qDrop (qid : Nat) (s : State) : State :=
  let q := getQ s qid
  putQ qid { qAbort q with drops := min (q.drops + 1) 0xFFFF } s

/-- The rewind mark is overtaken after n bytes (R295): the packet is aborted, OVERSIZE counts, QUEUE_OVERSIZE is raised. -/
def qOversize (qid n : Nat) (s : State) : State :=
  let q := getQ s qid
  let s := putQ qid { qAbort q with oversize := min (q.oversize + 1) 255 } s
  raise 76 0 .queueOversize (beBytes 1 qid ++ [0] ++ beBytes 4 n) (bumpF 0 0xF20 15 8 1 s)

/-- What became of a packet that a producer offers: committed; held by its WAIT producer until space frees; or lost to the
producer, dropped (R294) or too long for its ring (R295). -/
inductive Pushed where
  | stored
  | full
  | lost
deriving DecidableEq, Repr

/-- A producer writes a whole packet and commits it (R292), where its units are free. -/
def qPush (qid : Nat) (client : Nat) (mark : Bool) (tag : Nat) (data : Bytes) (s : State) : State × Pushed :=
  let q := getQ s qid
  let size := qSize qid
  let n := pktUnits data.length
  let drop := (qCat qid).any (·.drop)
  if q.heldR291 then (s, if drop then .lost else .full)
  else if qUsed size q + n ≤ size then
    let p : Pkt := ⟨q.pp, BitVec.ofNat 6 client, false, mark, BitVec.ofNat 8 tag, s.clk.tb.truncate 32, data⟩
    let w := ptrAdd size q.pp n
    (putQ qid { q with wp := w, pp := w, pkts := q.pkts ++ [p] } s, .stored)
  else if drop then (qDrop qid s, .lost)
  else if q.rp = q.pp then (qOversize qid (8 * (size - 1)) s, .lost)
  else (s, .full)

/-- The length word of a packet (R292). -/
def lenWord (p : Pkt) : Bytes :=
  beBytes 2 p.data.length ++ beBytes 2 (1024 * p.client.toNat + 512 * b2n p.released + 256 * b2n p.mark + p.tag.toNat)
    ++ beBytes 4 p.tb.toNat

/-- Unit i of a packet as the consumer reads it: the length word, then the payload. -/
def pktUnit (p : Pkt) (i : Nat) : BitVec 256 := BitVec.ofNat 256 (beAt (lenWord p ++ p.data ++ List.replicate 8 0) (8 * i) 8)

/-- The last unit of a packet: what a read while EMPTY returns after the packet has been read (R300). -/
def lastUnit (p : Pkt) : BitVec 256 := pktUnit p (pktUnits p.data.length - 1)

/-- A consumer takes the oldest packet of a queue that does not retain, freeing its units (R288). -/
def qPop (qid : Nat) (s : State) : Option (Pkt × State) :=
  let q := getQ s qid
  match q.pkts with
  | [] => none
  | p :: t =>
    some (p, putQ qid { q with
      pkts := t, rp := ptrAdd (qSize qid) q.rp (pktUnits p.data.length), lastRead := lastUnit p } s)

/-- A packet passes through a queue whose consumer keeps up. -/
def qPass (qid client tag : Nat) (data : Bytes) (s : State) : State × Pushed :=
  let r := qPush qid client false tag data s
  match r.2, qPop qid r.1 with
  | .stored, some (_, t) => (t, .stored)
  | p, _ => (r.1, p)

/-- The consumer of a retaining queue reads a committed packet by position; RP stays (R296). -/
def qReadAt (qid pos : Nat) (s : State) : Option (Pkt × State) :=
  let q := getQ s qid
  (q.pkts.find? (fun p => decide (p.pos = pos))).map (fun p => (p, putQ qid { q with lastRead := lastUnit p } s))

/-- The units freed by the run of released packets at the head (R296), and the packets left. -/
def releaseRun : List Pkt → Nat × List Pkt
  | [] => (0, [])
  | p :: t => if p.released then let r := releaseRun t; (pktUnits p.data.length + r.1, r.2) else (0, p :: t)

/-- The consumer releases the retained packet at a position (R296). -/
def qRelease (qid pos : Nat) (s : State) : State :=
  let q := getQ s qid
  let pk := q.pkts.map (fun p => if p.pos = pos then { p with released := true } else p)
  let r := releaseRun pk
  putQ qid { q with pkts := r.2, rp := ptrAdd (qSize qid) q.rp r.1 } s

/-- Push one word into a crossing queue (R294): a DROP producer loses the word at a full queue. The answer says whether
the word was stored. -/
def qWord (qid : Nat) (w : Nat) (s : State) : State × Bool :=
  let q := getQ s qid
  let size := qSize qid
  if q.heldR291 then (s, false)
  else if qUsed size q < size then
    let p := ptrAdd size q.wp 1
    (putQ qid { q with wp := p, pp := p, words := q.words ++ [BitVec.ofNat 256 (w % 2 ^ qWidth qid)] } s, true)
  else
    match qCat qid with
    | some c => if c.drop then (setQ qid { q with drops := min (q.drops + 1) 0xFFFF } s, false) else (s, false)
    | none => (s, false)

/-- A consumer reads one word of a crossing queue (R300): at EMPTY the last value read, and an underrun. -/
def qRead1 (qid : Nat) (s : State) : State × BitVec 256 :=
  let q := getQ s qid
  match q.words with
  | [] => (putQ qid { q with underrun := true, underruns := min (q.underruns + 1) 0xFFFF } s, q.lastRead)
  | w :: t => (putQ qid { q with words := t, rp := ptrAdd (qSize qid) q.rp 1, lastRead := w } s, w)

/-- A run of words crosses a domain through its queue while the consumer keeps up (02 R37, R298): the words the consumer
takes, in order. At a full queue a DROP producer loses them all; a queue held under R291 takes none. -/
def qStream (qid : Nat) (ws : List Nat) (s : State) : State × List Nat :=
  let q := getQ s qid
  let size := qSize qid
  let n := ws.length
  if n = 0 || q.heldR291 then (s, [])
  else if size ≤ qUsed size q then
    (if (qCat qid).any (·.drop) then setQ qid { q with drops := min (q.drops + n) 0xFFFF } s else s, [])
  else
    -- one word stands in the queue at a time
    let one := ptrAdd size q.wp 1
    let s := putQ qid { q with wp := one, pp := one } s
    let q := getQ s qid
    let all := q.words ++ ws.map (fun w => BitVec.ofNat 256 (w % 2 ^ qWidth qid))
    let p := ptrAdd size q.wp (n - 1)
    (putQ qid { q with
      wp := p, pp := p, rp := ptrAdd size q.rp n, words := all.drop n, lastRead := (all.take n).getLastD q.lastRead } s,
      (all.take n).map (·.toNat))

/-- The 64-bit words that carry n bytes. -/
def words64 (b : Bytes) : List Nat := (List.range (cdiv b.length 8)).map (fun i => beAt b (8 * i) 8)

/-- Pointers and contents as steps 1 to 3 of R290 leave them; the packet being written is lost, and what its producer still
offers of it is discarded. -/
def qCleared (q : Que) : Que :=
  { q with wp := 0, pp := 0, rp := 0, pkts := [], words := [], writing := none, lastRead := 0,
           discarding := q.writing.isSome || q.discarding }

/-- A reset of a queue that leaves no fault (R291); a producer that is reset begins with a packet of its own. -/
def qEmpty (qid : Nat) (held producer : Bool) (s : State) : State :=
  let q := qCleared (getQ s qid)
  putQ qid { q with heldR291 := held, discarding := q.discarding && !producer } s

/-- A reset of a queue under R290, with QUEUE_FAULT; domain 2 and pointer 3 where no pointer disagreed. -/
def qFault (qid dom ptr first second : Nat) (s : State) : State :=
  let q := qCleared (getQ s qid)
  let s := putQ qid { q with faults := min (q.faults + 1) 255 } s
  let s := setF 0 0xF20 23 16 qid (bumpF 0 0xF20 31 24 1 s)
  raise 76 0 .queueFault (beBytes 1 qid ++ beBytes 1 dom ++ beBytes 1 ptr ++ [0] ++ beBytes 4 first ++ beBytes 4 second) s

/-- The packet queues, all held in partition 4 (10, catalogue). -/
def packetQids : List Nat := List.range 15 ++ (List.range 10).map (· + 16)

/-- Every QID of the catalogue. -/
def allQids : List Nat := (List.range 0x74).filter (fun q => (qCat q).isSome)

/-- The queue status block of Q_READ (10). -/
def qStatus (qid : Nat) (s : State) : Bytes :=
  let q := getQ s qid
  let size := qSize qid
  let kind := match qCat qid with | some c => b2n c.crossing + 2 * b2n c.retain + 4 * b2n c.drop | none => 0
  beBytes 1 qid ++ beBytes 1 kind ++ beBytes 1 (if q.heldR291 then 2 else 0)
    ++ beBytes 1 (128 * b2n q.above + 64 * b2n q.up + 32 * b2n q.down + 16 * b2n q.underrun)
    ++ beBytes 4 size ++ beBytes 4 (qLevel size q) ++ beBytes 4 q.peak ++ [q.wm, q.hyst]
    ++ beBytes 1 q.upCount ++ beBytes 1 q.downCount ++ beBytes 2 q.aborts ++ beBytes 2 q.drops
    ++ beBytes 1 q.oversize ++ beBytes 1 q.faults ++ beBytes 2 q.underruns ++ beBytes 4 0

/-- Q_READ with CLEAR (R303). -/
def qClear (qid : Nat) (s : State) : State :=
  let q := getQ s qid
  setQ qid { q with up := false, down := false, underrun := false, upCount := 0, downCount := 0, aborts := 0, drops := 0,
                    oversize := 0, faults := 0, underruns := 0, peak := qLevel (qSize qid) q } s

/-- Q_WM (R303): ABOVE evaluated against the new marks, no crossing counted. -/
def qMarks (qid : Nat) (wm hyst : Byte) (s : State) : State :=
  let q := getQ s qid
  let lv := qLevel (qSize qid) q
  let above := if q.above then !underLow wm.toNat hyst.toNat (qSize qid) lv else atMark wm.toNat (qSize qid) lv
  setQ qid { q with wm := wm, hyst := hyst, above := above } s

end Sys2Proof.Machine
end

