-- ==== Sys2Proof/Machine/Requests.lean ====
section
/-!
DEFINITION. Command packets (14 R384 to R403): layout, the checks on receipt, forwarding, the reply store, and the one
flow in which every request is executed and answered.
-/
namespace Sys2Proof.Machine

/-- A command packet of R384, CRC included. -/
def cmdPacket (op tag dest func status esn : Nat) (params : Bytes) : Bytes :=
  let b := [0x6B, 0x43] ++ beBytes 2 op ++ beBytes 2 tag ++ beBytes 1 dest ++ beBytes 1 func ++ beBytes 2 params.length
    ++ beBytes 2 status ++ beBytes 4 esn ++ params
  b ++ beBytes 4 (crc32c b)

/-- The ESN of the last record issued (R397). -/
def lastEsn (s : State) : Nat := (s.ev.lastEsn.map (·.toNat)).getD 0

/-- DEST of every packet this device sends: its chain address with bit 7 set (R397). -/
def ownDest (s : State) : Nat := 0x80 + s.aon.addr.toNat

/-- A reply (R397). -/
def replyPacket (s : State) (op tag func status : Nat) (params : Bytes) : Bytes :=
  cmdPacket (op ||| 0x8000) tag (ownDest s) func status (lastEsn s) params

/-- Block lock of a host link. -/
def hlLock (s : State) (l : Nat) : Bool := objF s (0x5C + l) 0x30 31 31 == 1

/-- A link is up: block lock and no high BER (R391). -/
def hlUp (s : State) (l : Nat) : Bool := hlLock s l && objF s (0x5C + l) 0x30 30 30 == 0

/-- The link on which a reply leaves (R391). -/
def replyLink (s : State) (l : Nat) : Option Nat :=
  let o := 1 - l
  if hlUp s l then some l else if hlUp s o then some o else if hlLock s l then some l
  else if hlLock s o then some o else none

/-- The MAC address of a link: ID_MAC, and that plus one (R389). -/
def linkMac (l : Nat) : BitVec 48 := Config.mac + BitVec.ofNat 48 l

/-- A payload padded with zeros to the 64-byte minimum of a frame with header, tag and FCS (R389). -/
def padPayload (vlan : Option (BitVec 12)) (pkt : Bytes) : Bytes :=
  pkt ++ List.replicate ((if vlan.isSome then 42 else 46) - pkt.length) 0

/-- A host link takes nothing from its transmit queue: under PAUSE (R390), or while its queues are held (10 R291). -/
def hostBlocked (s : State) (l : Nat) : Bool := objF s (0x5C + l) 0x30 28 28 == 1 || (getQ s (2 + l)).heldR291

/-- Set the packets that wait for a link. -/
def setWaiting (w : List (Nat × BitVec 48 × Option (BitVec 12) × Bytes)) (s : State) : State :=
  { s with hl := { s.hl with waiting := w } }

/-- A packet taken from a link's transmit queue crosses queue 0x5C + l and leaves (02 R37). -/
def hostLeaves (l : Nat) (dst : BitVec 48) (vlan : Option (BitVec 12)) (pkt : Bytes) (s : State) : State :=
  emit (.hostFrame l dst (linkMac l) vlan (padPayload vlan pkt)) (qStream (0x5C + l) (words64 pkt) s).1

/-- A packet waits for its link, in transmit queue 0x02 + l where every packet before it stands there too and it has room;
else its producer, the link engine, holds it (10 R294). -/
def hostWaits (l : Nat) (dst : BitVec 48) (vlan : Option (BitVec 12)) (pkt : Bytes) (s : State) : State :=
  let w := s.hl.waiting
  let s := if (w.filter (fun e => e.1 == l)).length = (getQ s (2 + l)).pkts.length then (qPush (2 + l) 0x16 false 0 pkt s).1 else s
  setWaiting (w ++ [(l, dst, vlan, pkt)]) s

/-- Send a packet on a host link, through its transmit queue and queue 0x5C + l (02 R37, 10 R292); a link under PAUSE holds it
(R390), one that sends the test pattern in place of traffic loses it (HL_CFG.PRBS_TX). -/
def hostSend (l : Nat) (dst : BitVec 48) (vlan : Option (BitVec 12)) (pkt : Bytes) (s : State) : State :=
  if objF s (0x5C + l) 0x32 17 17 = 1 then s
  else if hostBlocked s l || s.hl.waiting.any (fun e => e.1 == l) then hostWaits l dst vlan pkt s
  else
    let r := qPass (2 + l) 0x16 0 pkt s
    match r.2 with
    | .stored => hostLeaves l dst vlan pkt r.1
    | .full => hostWaits l dst vlan pkt r.1
    | .lost => r.1

/-- The oldest packet that waits for a link leaves: from the queue, or through it where its producer held it. -/
def hostNext (l : Nat) (s : State) : State :=
  match s.hl.waiting.find? (fun e => e.1 == l) with
  | none => s
  | some e =>
    if hostBlocked s l then s
    else
      let t := setWaiting (s.hl.waiting.erase e) s
      match qPop (2 + l) t with
      | some (_, t) => hostLeaves l e.2.1 e.2.2.1 e.2.2.2 t
      | none => hostLeaves l e.2.1 e.2.2.1 e.2.2.2 (qPass (2 + l) 0x16 0 e.2.2.2 t).1

/-- What waits for a link leaves, in order. -/
def hostDrain (l : Nat) (s : State) : State := s.hl.waiting.foldl (fun s _ => hostNext l s) s

/-- One character stays in queue 0x73, or with the Caseri writer while the queue is full (15 R425). -/
def conHold (s : State) (x : Byte) : State :=
  let r := qWord 0x73 x.toNat s
  if s.con.wait.isEmpty && r.2 then r.1 else { s with con := { s.con with wait := s.con.wait ++ [x] } }

/-- Send characters on the console; a paused transmitter keeps them (15 R425). -/
def conSend (b : Bytes) (s : State) : State :=
  if tapHold s then s else
  if objF s 0x68 0xB01 30 30 = 1 then b.foldl conHold s else emit (.conText b) s

/-- A chain message (15, chain message). -/
def chainMsg (s : State) (ty dest : Nat) (body : Bytes) : Bytes :=
  let b := beBytes 1 (ty * 64 + dest % 64) ++ beBytes 1 s.aon.addr.toNat ++ beBytes 2 body.length ++ body
  b ++ beBytes 2 (crc16 b)

/-- Queue a message for the chain (15 R431). -/
def chainSend (ty dest : Nat) (body : Bytes) (s : State) : State :=
  { s with chain := { s.chain with txq := s.chain.txq ++ [chainMsg s ty dest body] } }

/-- After the prompt, a CON_CFG write that came over the console takes effect in both directions (15 R426). -/
def conPrompt (s : State) : State :=
  let s := conSend prompt s
  if s.con.cfgWait then
    let s := adopt 0x68 0xB00 s
    { s with con := { s.con with cfgWait := false, cfgTx := getObj s 0x68 0xB00, cfgRx := getObj s 0x68 0xB00 } }
  else s

/-- A reply reaches the console: as a frame for a frame, as text for a word (15 R428, R430). -/
def conReply (tag func status : Nat) (params pkt : Bytes) (s : State) : State :=
  if tag < 0xF000 then conSend (conFrame pkt) s
  else
    match s.con.asked.find? (fun e => e.1.toNat == tag) with
    | none => conSend (conFrame pkt) s
    | some e =>
      let s := { s with con := { s.con with asked := s.con.asked.filter (fun x => x.1.toNat != tag) } }
      let s := match wordText e.2 func status params with
        | some t => conSend t s
        | none => emit (.conLine e.2 pkt) s
      if s.con.asked.isEmpty then conPrompt s else s

/-- A reply or an event for the host or a core passes from the management controller to the link engine (10, queue 0x19),
which takes it at once (log 152). -/
def mcPass (pkt : Bytes) (s : State) : State := (qPass 0x19 0x21 0 pkt s).1

/-- A reply goes back to its source (R391, R392, R395, 16 R447). -/
def deliver (src : Source) (tag func status : Nat) (params pkt : Bytes) (s : State) : State :=
  match src with
  | .host l mac vlan =>
    match replyLink s l.val with
    | some k => hostSend k mac vlan pkt (mcPass pkt s)
    | none => s
  | .console => conReply tag func status params pkt s
  | .chain a => chainSend 2 a.toNat pkt s
  | .core n => (qPush (0x10 + n.val) 0x16 false 2 pkt (mcPass pkt s)).1

/-- A broadcast that came over the chain draws no reply (R393). -/
def silent (r : Req) : Bool :=
  match r.src with | .chain _ => r.dest.toNat < 0x40 && r.dest.toNat % 64 == 63 | _ => false

/-- Two sources and TAGs are the same (R400). -/
def sameAsk (a b : Req) : Bool := decide (a.src = b.src) && decide (a.tag = b.tag)

/-- Two requests match in source, TAG, DEST and FUNC (R400). -/
def sameReq (a b : Req) : Bool := sameAsk a b && decide (a.dest = b.dest) && decide (a.func = b.func)

/-- Keep a reply: the last 64, one per source and TAG (R400). -/
def keepReply (op : Nat) (r : Req) (pkt : Bytes) (s : State) : State :=
  let k := s.cmd.replies.filter (fun e => !sameAsk e.req r)
  let k := k ++ [⟨BitVec.ofNat 16 op, r, pkt, s.clk.tb⟩]
  { s with cmd := { s.cmd with replies := k.drop (k.length - 64) } }

/-- Form, keep and send the reply to a request (R397, R400). -/
def sendReply (op : Nat) (r : Req) (status : W16) (params : Bytes) (s : State) : State :=
  let pkt := replyPacket s op r.tag.toNat r.func.toNat status.toNat params
  let s := keepReply op r pkt s
  if silent r then s else deliver r.src r.tag.toNat r.func.toNat status.toNat params pkt s

/-- What a command's execution answers. -/
inductive Ans where
  | reply (st : W16) (params : Bytes) (s : State)
  | defer (aux : List Nat) (s : State)
  /-- The reply comes with a job that waits elsewhere. -/
  | hold (s : State)

/-- A refusal with DETAIL (R401); 0xFFFF when no field is concerned. -/
def refuse (st : W16) (det : Nat) (s : State) : Ans := .reply st (beBytes 4 det) s

/-- DETAIL when no particular field is refused (R401). -/
abbrev noField : Nat := 0xFFFF

/-- Commands that RETIRED accepts (17 R474). -/
def retiredOps : List Nat := [0x001, 0x002, 0x101, 0xE01, 0x201]

/-- The oldest request that its producer holds joins queue 0x18 once it has room (10 R294). -/
def mgmtJoins (s : State) : State :=
  match s.cmd.mgmtWait with
  | [] => s
  | e :: t =>
    let r := qPush 0x18 0x16 false 0 e.2.2 s
    if r.2 = .stored then { r.1 with cmd := { r.1.cmd with mgmt := r.1.cmd.mgmt ++ [(e.1, e.2.1)], mgmtWait := t } } else s

/-- Requests held for queue 0x18 join it, in order. -/
def mgmtRefill (s : State) : State := s.cmd.mgmtWait.foldl (fun s _ => mgmtJoins s) s

/-- The request leaves queue 0x18 when it stands at its head (R396). -/
def takeMgmt (op : Nat) (r : Req) (s : State) : State :=
  match s.cmd.mgmt with
  | (o, q) :: t =>
    if o.toNat = op ∧ q = r then
      let s := { s with cmd := { s.cmd with mgmt := t } }
      match qPop 0x18 s with
      | some (_, s') => mgmtRefill s'
      | none => s
    else s
  | [] => s

/-- The management controller can execute commands (17 R460, R466, R518). -/
def accepting (s : State) : Bool := decide (s.phase = .running) && !s.pw.mcDown && decide (domOf s 29 = .on)

/-- The request came over the chain; a deferred one then draws IN_PROGRESS at once (R395). -/
def viaChain (r : Req) : Bool := match r.src with | .chain _ => true | _ => false

/-- A deferred command is outstanding until its reply (R398); over the chain it draws IN_PROGRESS at once (R395). -/
def deferStart (op : Nat) (r : Req) (aux : List Nat) (s : State) : State :=
  let t := { s with cmd := { s.cmd with deferred := s.cmd.deferred ++ [⟨BitVec.ofNat 16 op, r, aux⟩] } }
  if viaChain r && !silent r then
    deliver r.src r.tag.toNat r.func.toNat stInProgress.toNat []
      (replyPacket t op r.tag.toNat r.func.toNat stInProgress.toNat []) t
  else t

/-- Steps 7 to 10 of R387 and the reply (R398). `okFunc` is step 8, `bad` the DETAIL of a failed step 9, `down` whether
the command's function cannot run. -/
def execReq (op : Nat) (r : Req) (okFunc : Bool) (bad : Option Nat) (down : Bool) (body : State → Ans) (s : State) :
    State :=
  if !accepting s then s
  else
    let s := takeMgmt op r s
    let a :=
      if !okFunc then refuse stBadFunc noField s
      else match bad with
        | some d => refuse stBadLength d s
        | none =>
          if lifeCycle s = 4 ∧ op ∉ retiredOps then refuse stNotInState noField s
          else if down then refuse stFunctionInReset noField s
          else body s
    match a with
    | .reply st p t => sendReply op r st p t
    | .hold t => t
    | .defer aux t => deferStart op r aux t

/-- Parameters must have exactly n bytes (step 9 of R387). -/
def lenIs (r : Req) (n : Nat) : Option Nat := if r.params.length = n then none else some noField

/-- A length and a field check: the offset refused. -/
def lenAnd (r : Req) (n : Nat) (bad : Option Nat) : Option Nat := if r.params.length = n then bad else some noField

/-- A field check at an offset. -/
def chk (ok : Bool) (off : Nat) : Option Nat := if ok then none else some off

/-- The first of two failed checks. -/
def firstBad (a b : Option Nat) : Option Nat := match a with | some d => some d | none => b

/-- The rules of R399 for a deferred command: one on each FUNC, 32 in all. -/
def deferRule (r : Req) (s : State) : Option W16 :=
  if s.cmd.deferred.any (fun d => decide (d.req.func = r.func)) then some stFunctionRunning
  else if 32 ≤ s.cmd.deferred.length then some stNoResource else none

/-- A deferred command starts, or is refused under R399. -/
def deferIf (r : Req) (aux : List Nat) (s : State) (go : State → State) : Ans :=
  match deferRule r s with
  | some st => refuse st noField s
  | none => .defer aux (go s)

/-- The deferred command with this opcode on this FUNC. -/
def findDeferred (op func : Nat) (s : State) : Option Deferred :=
  s.cmd.deferred.find? (fun d => d.op.toNat == op && d.req.func.toNat == func)

/-- A deferred command completes: its single reply is sent (R398). -/
def finish (d : Deferred) (st : W16) (params : Bytes) (s : State) : State :=
  let s := { s with cmd := { s.cmd with deferred := s.cmd.deferred.filter (fun e => decide (e ≠ d)) } }
  sendReply d.op.toNat d.req st params s

/-- Every opcode of the catalogue (R403). -/
def opDefined (op : Nat) : Bool :=
  [0x001, 0x002, 0x101, 0x102, 0x103, 0x201, 0x202, 0x203, 0x210, 0x220, 0x301, 0x302, 0x303, 0x304, 0x305, 0x401, 0x402,
   0x403, 0x404, 0x501, 0x502, 0x510, 0x511, 0x512, 0x513, 0x520, 0x521, 0x522, 0x523, 0x530, 0x540, 0x541, 0x601, 0x602,
   0x603].contains op
  || [0x710, 0x711, 0x712, 0x713, 0x714, 0x715, 0x716, 0x720, 0x721, 0x801, 0x802, 0x803, 0x810, 0x811, 0x812, 0x813,
   0x814, 0x820, 0x901, 0x902, 0x903, 0x910, 0x911, 0x920, 0x921, 0x930, 0xA01, 0xA02, 0xA03, 0xA04, 0xA05].contains op
  || [0xB01, 0xB02, 0xC01, 0xC02, 0xC03, 0xD01, 0xD02, 0xD03, 0xE01, 0xE10, 0xF01, 0xF02, 0xF03, 0xF04, 0xF10,
   0xF11].contains op

/-- Commands accepted as a broadcast (R394, 17, 18). -/
def bcastOp (op : Nat) : Bool := op = 0x102 || op = 0x103 || op = 0xA02 || op = 0x201 || op = 0xD02

/-- What step 6 of R387 decides about DEST (R393). -/
inductive DestRule where
  | here | bad | ignore | forward | bcast
deriving DecidableEq, Repr

/-- The DEST table of R393, rows from the top. -/
def destRule (a dest : Nat) (onChain : Bool) : DestRule :=
  let low := dest % 64
  if nbit dest 6 then (if onChain then .ignore else .bad)
  else if nbit dest 7 then .here
  else if low = a ∧ 1 ≤ a ∧ a ≤ 62 then .here
  else if low = 0 then (if onChain then .ignore else .bad)
  else if low ≤ 62 then (if onChain then .ignore else if a = 0 then .bad else .forward)
  else .bcast

/-- The request joins the management commands through queue 0x18 (R396); its producer holds it while the queue is full. -/
def enqueue (op : Nat) (r : Req) (pkt : Bytes) (s : State) : State :=
  mgmtRefill { s with cmd := { s.cmd with mgmtWait := s.cmd.mgmtWait ++ [(BitVec.ofNat 16 op, r, pkt)] } }

/-- Requests lost with queue 0x18 are answered QUEUE_FAULT (10 R290). -/
def failRequests (s : State) : State :=
  let l := s.cmd.mgmt
  mgmtRefill (l.foldl (fun t e => sendReply e.1.toNat e.2 stQueueFault (beBytes 4 noField) t) { s with cmd := { s.cmd with mgmt := [] } })

/-- A request that matches a kept reply draws that reply again (R400); any other goes on. -/
def unlessKept (op : Nat) (r : Req) (go : State → State) (s : State) : State :=
  match s.cmd.replies.find? (fun k => k.op.toNat == op && sameReq k.req r && decide (k.req.crc = r.crc)
      && decide (now s ≤ k.tb.toNat + 800000000)) with
  | some k => deliver r.src r.tag.toNat r.func.toNat (beAt k.packet 10 2) (slice k.packet 16 (beAt k.packet 8 2)) k.packet s
  | none => go s

/-- An immediate answer to a packet that is not executed. -/
def answer (src : Source) (op tag func : Nat) (st : W16) (params : Bytes) (s : State) : State :=
  deliver src tag func st.toNat params (replyPacket s op tag func st.toNat params) s

/-- Forward a request on the chain (R393, R395). -/
def forwardReq (op : Nat) (r : Req) (pkt : Bytes) (s : State) : State :=
  if s.cmd.fwd.any (fun f => f.op.toNat == op && decide (f.req = r)) then
    answer r.src op r.tag.toNat r.func.toNat stInProgress [] s
  else if objF s 0x69 0xB09 23 23 = 1 then sendReply op r stNotInState (beBytes 4 noField) s
  else if 8 ≤ s.cmd.fwd.length then sendReply op r stNoResource (beBytes 4 noField) s
  else
    let s := { s with cmd := { s.cmd with fwd := s.cmd.fwd ++ [⟨BitVec.ofNat 16 op, r, none⟩] } }
    chainSend 2 (r.dest.toNat % 64) pkt s

/-- The retention of R400: what an accepted request meets before it is executed. -/
def admitReq (op : Nat) (r : Req) (pkt : Bytes) : State → State :=
  unlessKept op r (fun s =>
    if s.cmd.deferred.any (fun d => d.op.toNat == op && sameReq d.req r) then
      answer r.src op r.tag.toNat r.func.toNat stInProgress [] s
    else if !opDefined op then sendReply op r stBadOpcode (beBytes 4 noField) s
    else enqueue op r pkt s)

/-- Steps 2 to 6 of R387 for a packet with MARK 0x6B. -/
def receiveCmd (src : Source) (pkt : Bytes) (s : State) : State :=
  let op := beAt pkt 2 2
  let tag := beAt pkt 4 2
  let dest := byteAt pkt 6
  let func := byteAt pkt 7
  let len := beAt pkt 8 2
  let onChain := match src with | .chain _ => true | _ => false
  let quiet := onChain && !(!nbit dest 6 && dest % 64 == s.aon.addr.toNat)
  let no := fun st => if quiet then s else answer src op tag func st (beBytes 4 noField) s
  if byteAt pkt 1 ≠ 0x43 then no stWrongRevision
  else if len > 2048 ∨ pkt.length < 20 + len then no stBadLength
  else if beAt pkt (16 + len) 4 ≠ crc32c (pkt.take (16 + len)) then no stBadCrc
  else if tag = 0 then no stBadTag
  else if nbit op 15 then no stBadOpcode
  else
    let pkt := pkt.take (20 + len)
    let r : Req := ⟨src, BitVec.ofNat 16 tag, BitVec.ofNat 8 dest, BitVec.ofNat 8 func, slice pkt 16 len,
      BitVec.ofNat 32 (beAt pkt (16 + len) 4)⟩
    match destRule s.aon.addr.toNat dest onChain with
    | .ignore => s
    | .bad => unlessKept op r (sendReply op r stBadDest (beBytes 4 noField)) s
    | .here => admitReq op r pkt s
    | .forward => unlessKept op r (forwardReq op r pkt) s
    | .bcast =>
      if !bcastOp op then (if onChain then s else unlessKept op r (sendReply op r stBadDest (beBytes 4 noField)) s)
      else
        let t := admitReq op r pkt s
        if onChain || s.aon.addr.toNat == 0 || t.cmd.mgmt.length + t.cmd.mgmtWait.length == s.cmd.mgmt.length + s.cmd.mgmtWait.length then t
        else chainSend 2 63 pkt t

end Sys2Proof.Machine
end

