-- ==== Sys2Proof/Machine/Trellis.lean ====
section
/-!
DEFINITION. The Trellis (09): partitions and interleave, access rules, ECC and poison, scrubbing, spare banks and the
node-table mirror, wipe, repartition, region failure and the bank test.
-/
namespace Sys2Proof.Machine

/-- SKEW_BANKS in force (R283). -/
def skewBanks (s : State) : Nat := objF s 0 0xF00 25 22

/-- The bank list that the skew and core partitions divide (R283). -/
def skewList : List (Nat × Nat) :=
  [(0, 12), (1, 12), (2, 12), (3, 12), (0, 13), (1, 13), (2, 13), (3, 13)]

/-- Banks of a partition in interleave order, as region and logical index (R270, R283). -/
def partBanks (s : State) (p : Nat) : List (Nat × Nat) :=
  if p = 0 then (List.range 24).map (fun i => (i % 4, i / 4))
  else if p = 1 then (List.range 12).map (fun i => (i % 4, 6 + i / 4))
  else if p = 2 then (List.range 4).map (fun i => (i, 9))
  else if p = 3 then [(0, 14), (0, 15)]
  else if p = 4 then (List.range 8).map (fun i => (i % 4, 10 + i / 4))
  else if p = 5 then [(3, 14), (3, 15)]
  else if p = 6 then skewList.take (skewBanks s)
  else [(1, 14), (2, 14), (1, 15), (2, 15)] ++ skewList.drop (skewBanks s)

/-- Base address of a partition (R270, R283). -/
def partBase (s : State) (p : Nat) : Nat :=
  if p = 0 then 0 else if p = 1 then 0x300000 else if p = 2 then 0x480000 else if p = 3 then 0x500000
  else if p = 4 then 0x540000 else if p = 5 then 0x640000 else if p = 6 then 0x680000
  else 0x680000 + skewBanks s * 0x20000

/-- End address of a partition. -/
def partEnd (s : State) (p : Nat) : Nat := if p < 7 then partBase s (p + 1) else trSize

/-- The partition that contains an address. -/
def partOf (s : State) (a : Nat) : Nat :=
  if a < 0x300000 then 0 else if a < 0x480000 then 1 else if a < 0x500000 then 2 else if a < 0x540000 then 3
  else if a < 0x640000 then 4 else if a < 0x680000 then 5 else if a < 0x680000 + skewBanks s * 0x20000 then 6 else 7

/-- Where an address is held: region, logical bank index, bank line (R271). -/
def place (s : State) (a : Nat) : Nat × Nat × Nat :=
  let p := partOf s a
  let l := (a - partBase s p) / 64
  let bs := partBanks s p
  let nb := bs.length
  let b := bs.getD (if nb = 0 then 0 else l % nb) (0, 0)
  (b.1, b.2, if nb = 0 then 0 else l / nb)

/-- The address of a line of a logical bank: the inverse of R271. -/
def lineAddr (s : State) (r i line : Nat) : Option Nat :=
  (List.range 8).findSome? (fun p =>
    let bs := partBanks s p
    let k := bs.findIdx (fun b => b.1 == r && b.2 == i)
    if k < bs.length then some (partBase s p + 64 * (k + bs.length * line)) else none)

/-- The state of a region. -/
def regOf (s : State) (r : Nat) : RegionSt := vAt s.tr.reg r

/-- Replace the state of a region. -/
def setReg (r : Nat) (f : RegionSt → RegionSt) (s : State) : State :=
  { s with tr := { s.tr with reg := vSet s.tr.reg r (f (regOf s r)) } }

/-- The spare of region r has been switched in (R281 step 3). -/
def spareIn (s : State) (r : Nat) : Bool := objF s (0x7C + r) 0xF08 29 28 == 2

/-- The physical bank that serves a logical position (R281). -/
def physBank (s : State) (r i : Nat) : Nat :=
  if spareIn s r && objF s (0x7C + r) 0xF08 27 24 == i then 16 else i

/-- The logical position that a physical bank serves. -/
def logBank (s : State) (r b : Nat) : Option Nat :=
  if b < 16 then (if physBank s r b = b then some b else none)
  else if spareIn s r then some (objF s (0x7C + r) 0xF08 27 24) else none

/-- The event code of a bank: 32 × region + index (14 R418). -/
def bankCode (r b : Nat) : Nat := 32 * r + b

/-- Clients of R274 by kind. -/
def isCluster (c : Nat) : Bool := c < 0x14
def isBh (c : Nat) : Bool := c = 0x19 || c = 0x1A
def isHl (c : Nat) : Bool := c = 0x1B || c = 0x1C
def isCore (c : Nat) : Bool := 0x1D ≤ c && c ≤ 0x20

/-- The partition table (R270): what a client may write or read. -/
def mayAccess (s : State) (client a : Nat) (write : Bool) : Bool :=
  if 0x23 ≤ client ∧ client ≤ 0x26 then (place s a).1 == client - 0x23
  else
    match partOf s a with
    | 0 => isCluster client || (client == 0x21 && !write)
    | 1 => isCluster client || (client == 0x21 && !write)
    | 2 => client == 0x16 || client == 0x21 || (isCluster client && !write)
    | 3 => client == 0x16 || client == 0x21 || (client == 0x17 && !write)
    | 4 => isCluster client || client == 0x16 || client == 0x17 || client == 0x18 || isBh client || isHl client
        || isCore client || client == 0x21
    | 5 => isCluster client || isBh client || client == 0x22 || client == 0x21 || (if write then client == 0x14 else client == 0x15)
    | 6 => isBh client || (client == 0x21 && !write)
    | _ => isCore client || client == 0x21

/-- The region has failed (R286). -/
def regionLost (s : State) (r : Nat) : Bool := objF s (0x7C + r) 0xF08 31 30 == 2

/-- The object field that gives the region of mirror half h (09, TR_STATUS): 7 none. -/
def mirLoc (s : State) (h : Nat) : Nat := if h = 0 then objF s 0 0xF00 21 19 else objF s 0 0xF00 18 16

/-- Set the region of mirror half h. -/
def setMirLoc (h v : Nat) (s : State) : State := if h = 0 then setF 0 0xF00 21 19 v s else setF 0 0xF00 18 16 v s

/-- Both mirror halves are current copies: NT_MIRROR (R25). -/
def mirrorOk (s : State) : Bool := vAt s.tr.mirCur 0 && vAt s.tr.mirCur 1

/-- Half h is a current copy in a region that has not failed (R282, R286). -/
def mirHas (s : State) (h : Nat) : Bool := vAt s.tr.mirCur h && mirLoc s h != 7 && !regionLost s (mirLoc s h)

/-- The half of the mirror that holds an address of the node table (R271, R282). -/
def halfOf (s : State) (a : Nat) : Nat := (place s a).2.1 - 14

/-- An unclaimed spare that is free in a region with power (R282): no substitution is using it. -/
def spareFree (s : State) (r : Nat) : Bool :=
  objF s (0x7C + r) 0xF08 29 28 == 0 && (regOf s r).sub.isNone && !regionLost s r

/-- Place a displaced mirror half: D_16, B_16, C_16 in order, else the spare of the primary's region (R282). -/
def placeHalf (h : Nat) (s : State) : State :=
  match ([3, 1, 2, 0] : List Nat).find? (fun r => spareFree s r) with
  | none => s
  | some r =>
    let s := setF (0x7C + r) 0xF08 29 28 1 (setMirLoc h r s)
    let s := setF (0x7C + r) 0xF08 6 6 1 s
    { s with tr := { s.tr with mirCopy := vSet s.tr.mirCopy h true } }

/-- Abandon the mirror half that the spare of region r holds, and a copy to it that runs, with NT_MIRROR_LOST (R281 step 1,
R521). -/
def abandonHalf (r : Nat) (s : State) : State :=
  (List.range 2).foldl (fun s h =>
    if mirLoc s h = r then
      let s := setF (0x7C + r) 0xF08 29 28 0 (setF (0x7C + r) 0xF08 6 6 0 s)
      let s := { s with tr := { s.tr with mirCur := vSet s.tr.mirCur h false, mirCopy := vSet s.tr.mirCopy h false } }
      raise (71 + r) (0x7C + r) .ntMirrorLost (beBytes 1 h) (setMirLoc h 7 s)
    else s) s

/-- A bank does not answer: it is fenced at once (R281). -/
def bankDies (r b : Nat) (s : State) : State :=
  setReg r (fun g => { g with fenced := g.fenced ||| BitVec.ofNat 17 (2 ^ b), dead := g.dead ||| BitVec.ofNat 17 (2 ^ b) }) s

/-- Place every half that has no bank (R282), while there is a primary to copy. -/
def placeHalves (s : State) : State :=
  (List.range 2).foldl (fun s h => if mirLoc s h = 7 && !regionLost s 0 then placeHalf h s else s) s

/-- A bank is declared failing (R280): substitution starts, an unclaimed spare is retired (R521), or the bank stays in
use where no spare is left. `b` is the physical bank. The spare is claimed from now on; TR_REGION and CAPACITY show it at the
switch (R281). -/
def bankFailing (r b : Nat) (answers : Bool) (s : State) : State :=
  let f := 0x7C + r
  let sp := objF s f 0xF08 29 28
  let sub := (regOf s r).sub
  if nbit (objF s f 0xF08 23 7) b || regionLost s r then s
  else if b = 16 ∧ sp ≤ 1 ∧ sub.isNone then
    let s := if sp = 1 then abandonHalf r s else s
    let s := setF f 0xF08 23 7 (objF s f 0xF08 23 7 ||| 2 ^ 16) (setF f 0xF08 29 28 3 s)
    let s := if answers then s else bankDies r 16 s
    placeHalves (raise (71 + r) f .faultBank (beBytes 1 (bankCode r 16) ++ [0xFF, 2]) s)
  else if sub.any (fun u => u.idx.val == b) then
    -- a bank that stops answering while it is copied has its contents rebuilt (R281 step 3)
    if answers then s
    else bankDies r b (setReg r (fun g => { g with sub := g.sub.map (fun u => { u with answers := false }) }) s)
  else if h : b < 16 ∧ sp ≤ 1 ∧ sub.isNone then
    let mirror := mirrorOk s
    let s := if sp = 1 then abandonHalf r s else s
    let s := setReg r (fun g => { g with sub := some ⟨⟨b, by omega⟩, answers, mirror⟩ }) (setF f 0xF08 6 6 1 s)
    let s := if answers then s else bankDies r b s
    placeHalves s
  else raise (71 + r) f .faultUnabsorbed (beBytes 1 f) (if answers then s else bankDies r b s)

/-- Record a corrected word; CE_LIMIT distinct words in one pass declare the bank failing (R277, R280). -/
def correctedWord (r b line word : Nat) (s : State) : State :=
  let s := bumpF (0x7C + r) 0xF09 31 20 1 s
  let l := (regOf s r).ceWords
  let l := if l.contains (b, line, word) then l else l ++ [(b, line, word)]
  let s := setReg r (fun g => { g with ceWords := l }) s
  let lim := max 1 (objF s 0 0xF01 25 20)
  if lim ≤ (l.filter (fun e => e.1 == b)).length then bankFailing r b true s else s

/-- A word found uncorrectable (R278): poisoned and counted, with TRELLIS_UE. -/
def wordLost (r b line word client : Nat) (s : State) : State :=
  let s := match logBank s r b with
    | some i => (match lineAddr s r i line with | some a => poisonWord (a / 8 + word) s | none => s)
    | none => s
  raise (71 + r) (0x7C + r) .trellisUe
    (beBytes 1 (bankCode r b) ++ beBytes 2 line ++ beBytes 1 word ++ beBytes 1 client) (bumpF (0x7C + r) 0xF09 19 16 1 s)

/-- Words that a copy or a self-test finds uncorrectable (R278). -/
def wordsLost (r b : Nat) (bad : List (Fin 2048 × Fin 8)) (s : State) : State :=
  bad.foldl (fun s e => wordLost r b e.1.val e.2.val (0x23 + r) s) s

/-- A read finds a word uncorrectable: the bank is failing (R278, R280). -/
def uncorrectable (r b line word client : Nat) (s : State) : State := bankFailing r b true (wordLost r b line word client s)

/-- The packet queue whose ring contains an address of partition 4; bases are the device's (Config.ringBase). -/
def queueAt (a : Nat) : Option Nat :=
  packetQids.find? (fun q => decide (0x540000 + Config.ringBase q ≤ a) && decide (a < 0x540000 + Config.ringBase q + 8 * qSize q))

/-- The byte of a tone-map slot that holds FLAGS (04 R106). -/
def slotFlagsAt (a : Nat) : Nat := 0x480000 + 1024 * ((a - 0x480000) / 1024) + 1013

/-- Mark the tone-map slot that contains an address invalid (08 R261, R278). -/
def slotInvalid (a : Nat) (s : State) : State := memWrite (slotFlagsAt a) [memByte s (slotFlagsAt a) &&& 0xFE] s

/-- An access outside the client's partitions (01 R18). -/
def windowFault (client a : Nat) (write : Bool) (s : State) : State :=
  let r := (place s a).1
  let s := bumpF 0 0xF02 31 16 1 s
  let s := setF 0 0xF02 15 10 client (setF 0 0xF02 9 7 (partOf s a) (setF 0 0xF02 6 6 (b2n write) s))
  raise (71 + r) (0x7C + r) .trellisWindow
    (beBytes 1 client ++ beBytes 1 (partOf s a) ++ beBytes 1 (b2n write) ++ [0] ++ beBytes 4 a) s

/-- An address lies in a bank under wipe (R285). -/
def underWipe (s : State) (a : Nat) : Bool := s.tr.wiping.any (fun w => w.started && decide (w.lo ≤ a) && decide (a < w.hi))

/-- The access is held: its region controller restarts, or its bank is being wiped (01 R17, R285). -/
def accessHeld (s : State) (a : Nat) : Bool := objF s (0x7C + (place s a).1) 0xF08 31 30 == 1 || underWipe s a

-- Bytes as the fabric reads and writes them.

/-- The byte of a ring at offset o: that of the committed packet whose units hold it, else what the Trellis holds there. -/
def ringByte (s : State) (q o : Nat) : Byte :=
  let n := 8 * qSize q
  let at_ := fun (p : Pkt) => (o + n - 8 * (p.pos % qSize q)) % n
  match (getQ s q).pkts.find? (fun p => decide (at_ p < 8 * pktUnits p.data.length)) with
  | some p => (lenWord p ++ p.data).getD (at_ p) 0
  | none => memByte s (0x540000 + Config.ringBase q + o)

/-- A packet with byte k of its units overwritten. Its length stays (log 14). -/
def pktPut (p : Pkt) (k : Nat) (b : Byte) : Pkt :=
  if 8 ≤ k then { p with data := p.data.set (k - 8) b }
  else
    let w := beNat ((lenWord p).set k b)
    { p with
      client := BitVec.ofNat 6 (w / 2 ^ 42), released := nbit w 41, mark := nbit w 40, tag := BitVec.ofNat 8 (w / 2 ^ 32)
      tb := BitVec.ofNat 32 w }

/-- Write a byte of a ring: of the packet whose units hold it, and of the storage. -/
def ringPut (q o : Nat) (b : Byte) (s : State) : State :=
  let n := 8 * qSize q
  let at_ := fun (p : Pkt) => (o + n - 8 * (p.pos % qSize q)) % n
  let k := getQ s q
  setQ q { k with pkts := k.pkts.map (fun p => if at_ p < 8 * pktUnits p.data.length then pktPut p (at_ p) b else p) }
    (memWrite (0x540000 + Config.ringBase q + o) [b] s)

/-- The offset of an address in the ring of a queue. -/
def ringOff (q a : Nat) : Nat := a - (0x540000 + Config.ringBase q)

/-- Entry 0 of the node table is the Garurn's own: its EUI-64 and STATE ACTIVE (08 R256). -/
def ownEntry : Bytes := beBytes 8 Config.eui.toNat ++ [0x40] ++ List.replicate 55 0

/-- A byte of the Trellis as a client reads it: the rings of partition 4 hold their packets (R273), and entry 0 of the node table
its fixed contents. -/
def trByte (s : State) (a : Nat) : Byte :=
  if partOf s a = 4 then (match queueAt a with | some q => ringByte s q (ringOff q a) | none => memByte s a)
  else if 0x500000 ≤ a ∧ a < 0x500040 then ownEntry.getD (a - 0x500000) 0
  else memByte s a

/-- Write a byte of partition 4: of the ring that holds it, or beside every ring. -/
def packetPut (a : Nat) (b : Byte) (s : State) : State :=
  match queueAt a with | some q => ringPut q (ringOff q a) b s | none => memWrite a [b] s

/-- A permitted write (R270): dropped where the region has failed (R286), unless it is the node table's and a copy remains
(R282). -/
def trWrite (a : Nat) (data : Bytes) (s : State) : State :=
  if regionLost s (place s a).1 && !(partOf s a == 3 && mirHas s (halfOf s a)) then s
  else if partOf s a = 4 then
    unpoison a data.length ((data.zipIdx).foldl (fun s e => packetPut (a + e.2) e.1 s) s)
  else memWrite a data s

/-- The runs of consecutive bytes that a byte mask writes (R269). -/
def maskRuns : Nat → List (Option Byte) → List (Nat × Bytes)
  | _, [] => []
  | a, none :: t => maskRuns (a + 1) t
  | a, some b :: t =>
    match maskRuns (a + 1) t with
    | (x, l) :: r => if x = a + 1 then (a, b :: l) :: r else (a, [b]) :: (x, l) :: r
    | [] => [(a, [b])]

/-- A logical bank delivers nothing: it does not answer, or its contents are being rebuilt (R281). -/
def bankMute (s : State) (r i : Nat) : Bool :=
  (regOf s r).dead.getLsbD (physBank s r i) || (regOf s r).rebuild.any (fun e => e.1.val == i)

/-- A word of 8 bytes reads as poisoned (R278, R281, R286): the node table is served from a current mirror half. -/
def badWord (s : State) (w : Nat) : Bool :=
  let p := place s (8 * w)
  (isPoisoned s (8 * w) 8 || regionLost s p.1 || bankMute s p.1 p.2.1) && !(partOf s (8 * w) == 3 && mirHas s (p.2.1 - 14))

/-- The poisoned words among n bytes at a. -/
def badWords (s : State) (a n : Nat) : List Nat :=
  ((List.range ((a + n + 7) / 8 - a / 8)).map (· + a / 8)).filter (badWord s)

/-- The data of a permitted read of n bytes, poisoned words zero, and whether there are any (R278, R286). -/
def trReadData (s : State) (a n : Nat) : Bytes × Bool :=
  let bad := badWords s a n
  ((List.range n).map (fun i => if bad.contains ((a + i) / 8) then 0 else trByte s (a + i)), !bad.isEmpty)

-- Wipes (R284, R285).

/-- A region holds a bank of addresses lo to hi − 1. -/
def wipeTouches (s : State) (lo hi r : Nat) : Bool :=
  (List.range 8).any (fun p => decide (lo ≤ partBase s p ∧ partBase s p < hi) && (partBanks s p).any (fun b => b.1 == r))

/-- A wipe runs in a region: scrubbing, copying and self-test pause (R285). -/
def wipeOn (s : State) (r : Nat) : Bool := s.tr.wiping.any (fun w => w.started && wipeTouches s w.lo w.hi r)

/-- A wipe waits while a substitution copy runs in a region that it touches (R285). -/
def wipeWaits (s : State) (lo hi : Nat) : Bool := (List.range 4).any (fun r => wipeTouches s lo hi r && (regOf s r).sub.isSome)

/-- A wipe that covers the performance bins clears them (12 R359). -/
def binsCleared (lo hi : Nat) (s : State) : State :=
  let a := partBase s 5 + 0x38000
  if lo ≤ a ∧ a < hi then { s with bh := { s.bh with closed15 := 0, closed24 := 0, secs15 := 0, secs24 := 0 } } else s

/-- Every wipe that waits for no copy begins (R284, R285): its bytes read zero from now on, and STATE reads 1. -/
def wipesBegin (s : State) : State :=
  s.tr.wiping.foldl (fun s w =>
    if w.started || wipeWaits s w.lo w.hi then s
    else
      let s := { s with tr := { s.tr with wiping := s.tr.wiping.map (fun x => if x = w then { x with started := true } else x) } }
      let s := binsCleared w.lo w.hi (memWipe w.lo w.hi s)
      if objF s 0 0xF00 31 30 = 2 then s else setF 0 0xF00 31 30 1 s) s

/-- A wipe of addresses lo to hi − 1 is ordered, by a command that its end answers (R283, R285). -/
def startWipe (lo hi op : Nat) (r : Req) (s : State) : State :=
  wipesBegin { s with tr := { s.tr with wiping := s.tr.wiping ++ [⟨lo, hi, false, some (BitVec.ofNat 16 op, r)⟩] } }

/-- Banks that do not answer in all regions, as the 9 bytes of TRELLIS_WIPE_DONE (14 R418). -/
def deadMask (s : State) : Nat := (List.range 4).foldl (fun m r => m + (regOf s r).dead.toNat * 2 ^ (17 * r)) 0

/-- How many banks no wipe reaches. -/
def deadCount (s : State) : Nat := ((List.range 68).filter (fun i => nbit (deadMask s) i)).length

/-- The end of a whole-Trellis wipe (R284): TRELLIS_WIPE_DONE, and the mirror matches where two spares hold it. -/
def wipeDone (s : State) : State :=
  let s := { s with mem := [], poison := [], tr := { s.tr with wiping := [] } }
  let s := (List.range 2).foldl (fun s h =>
    if mirLoc s h = 7 then s else { s with tr := { s.tr with mirCur := vSet s.tr.mirCur h true } }) s
  raise 76 0 .trellisWipeDone (beBytes 1 (68 - deadCount s) ++ beBytes 9 (deadMask s)) s

/-- A function is held in reset or has no power (17 R463). -/
def allDown (s : State) (l : List Nat) : Bool := l.all (fun f => funcDown s f)

/-- Core n is stopped, after a failed check too, or held (16 R443, APP_STATUS). -/
def coreStopped (s : State) (n : Nat) : Bool :=
  objF s (0x70 + n) 0xC03 31 28 == 0 || objF s (0x70 + n) 0xC03 31 28 == 4 || funcDown s (0x70 + n)

/-- The application cores are to start again (16 R446). -/
def coresDue (s : State) : State := { s with core := s.core.map (fun c => { c with due := true }) }

/-- TR_BANK_TEST (R287): deferred; only an unclaimed spare without a mirror half, or a retired bank. -/
def execTrBankTest (r : Req) (s : State) : Host.Outcome State Fault Refusal :=
  let g := r.func.toNat - 0x7C
  .next (execReq 0xF03 r (decide (0x7C ≤ r.func.toNat ∧ r.func.toNat ≤ 0x7F))
    (lenAnd r 4 (chk (decide (byteAt r.params 0 ≤ 16)) 0)) (regionLost s g || funcDown s r.func.toNat)
    (fun s =>
      let b := byteAt r.params 0
      let retired := nbit (objF s r.func.toNat 0xF08 23 7) b
      if (b = 16 ∧ spareFree s g) ∨ retired then deferIf r [b] s id
      else refuse stNotInState noField s) s)

/-- One error that a scrub read finds (R277 to R280). -/
def scrubFind (r line : Nat) (f : ScrubFind) (s : State) : State :=
  if f.uncorr then uncorrectable r f.bank.val line f.word.val (0x23 + r) s
  else correctedWord r f.bank.val line f.word.val s

/-- A scrub read of the next line of every bank of a region (R279); `portFail` names the bank whose port reports a
parity error, and whether that bank still answers (R280, R281). -/
def execScrubRead (r : Fin 4) (finds : List ScrubFind) (portFail : Option (Fin 17 × Bool)) (s : State) :
    Host.Outcome State Fault Refusal :=
  let f := 0x7C + r.val
  .next (if objF s 0 0xF01 31 31 = 0 ∨ objF s f 0xF08 31 30 ≠ 0 ∨ wipeOn s r.val then s
    else
      let line := (regOf s r.val).scrubLine
      let s := finds.foldl (fun t x => scrubFind r.val line x t) s
      let s := match portFail with | some (b, answers) => bankFailing r.val b.val answers s | none => s
      if line = 2047 then
        bumpF f 0xF09 11 0 1 (setReg r.val (fun g => { g with scrubLine := 0, ceWords := [] }) s)
      else setReg r.val (fun g => { g with scrubLine := line + 1 }) s)

/-- The bank map switches to the spare (R281 step 3): FAULT_BANK, the bank retired and fenced, and SPARE_FOR; a bank that
does not answer is rebuilt (01 R26). `bad` are the words that the copy found uncorrectable (R278). -/
def bankSwitch (r : Nat) (bad : List (Fin 2048 × Fin 8)) (s : State) : State :=
  let f := 0x7C + r
  match (regOf s r).sub with
  | none => s
  | some u =>
    if wipeOn s r then s
    else
      let i := u.idx.val
      let s := if u.answers then wordsLost r i bad s else s
      let s := setF f 0xF08 23 7 (objF s f 0xF08 23 7 ||| 2 ^ i) s
      let s := setF f 0xF08 29 28 2 (setF f 0xF08 27 24 i s)
      let s := setReg r (fun g => { g with
        sub := none, fenced := g.fenced ||| BitVec.ofNat 17 (2 ^ i)
        rebuild := if u.answers then none else some (u.idx, u.mirror) }) s
      let s := if u.answers then setF f 0xF08 6 6 0 s else s
      -- a poisoned word of the node table is copied from the mirror (R281 step 2)
      let s := if u.answers && r == 0 && decide (14 ≤ i) && mirHas s (i - 14) then
          { s with poison := s.poison.filter (fun w => !(partOf s (8 * w) == 3 && (place s (8 * w)).2.1 == i)) }
        else s
      wipesBegin (raise (71 + r) f .faultBank
        (beBytes 1 (bankCode r i) ++ beBytes 1 (bankCode r 16) ++ beBytes 1 (if u.answers then 0 else 1)) s)

/-- BANK_SWITCH. -/
def execBankSwitch (r : Fin 4) (bad : List (Fin 2048 × Fin 8)) (s : State) : Host.Outcome State Fault Refusal :=
  .next (bankSwitch r.val bad s)

/-- A mirror half has been copied (R282); a wipe in its region pauses the copy (R285). -/
def execMirrorCopyDone (half : Fin 2) (s : State) : Host.Outcome State Fault Refusal :=
  .next (if vAt s.tr.mirCopy half.val && !wipeOn s (mirLoc s half.val) then
      let r := mirLoc s half.val
      let s := { s with tr := { s.tr with mirCur := vSet s.tr.mirCur half.val true, mirCopy := vSet s.tr.mirCopy half.val false } }
      let s := setF (0x7C + r) 0xF08 6 6 0 s
      raise (71 + r) (0x7C + r) .ntMirrorRestored (beBytes 1 half.val ++ beBytes 1 (bankCode r 16)) s
    else s)

/-- A region controller's lockstep pair disagrees and restarts (01 R17). -/
def execRegionControllerMismatch (r : Fin 4) (s : State) : Host.Outcome State Fault Refusal :=
  .next (if objF s (0x7C + r.val) 0xF08 31 30 = 0 then setF (0x7C + r.val) 0xF08 31 30 1 s else s)

/-- Functions with write rights to a partition with a bank in region r (R286), the management controller left out. -/
def regionWriters (s : State) (r : Nat) : List Byte :=
  let has := fun p => (partBanks s p).any (fun b => b.1 == r)
  let cl := if has 0 || has 1 || has 4 || has 5 then (List.range 20).map (fun c => 0x20 + c) else []
  let link := if has 4 then (List.range 16).map (· + 0x40) ++ [0x50, 0x5C, 0x5D] else []
  let bh := if has 4 || has 5 || has 6 then [0x58, 0x59] else []
  let ac := if has 4 || has 7 then [0x70, 0x71, 0x72, 0x73] else []
  let lp := if has 5 then (List.range 6).map (· + 0x10) ++ [0x78] else []
  (cl ++ link ++ bh ++ ac ++ lp).map (BitVec.ofNat 8)

/-- Every byte of a logical bank reads zero: what its spare held after the wipe (R284), and what is left of a lost bank of the
node table, whose entries read FREE (R282). -/
def bankLost (r i : Nat) (s : State) : State :=
  let here := fun a => (place s a).1 == r && (place s a).2.1 == i
  { s with mem := s.mem.filter (fun e => !here e.1), poison := s.poison.filter (fun w => !here (8 * w)) }

/-- The node table after its region is lost: a half of the mirror outside keeps its bank's entries while NT_MIRROR read 1
(R282, R286). -/
def tableLost (r : Nat) (s : State) : State :=
  if r ≠ 0 then s
  else (List.range 2).foldl (fun t h => if mirrorOk s && mirLoc s h != 0 then t else bankLost 0 (14 + h) t) s

/-- PD_TR_x trips: the region fails (R286). -/
def loseRegion (r : Nat) (s : State) : State :=
  let f := 0x7C + r
  let s := abandonHalf r (tableLost r s)
  let s := setF f 0xF08 31 30 2 s
  let s := setF 0 0xF00 31 30 2 s
  let s := setF 0 0xF00 29 26 (objF s 0 0xF00 29 26 ||| 2 ^ (3 - r)) s
  let s := setReg r (fun g => { g with fenced := 0x1FFFF, dead := 0x1FFFF, sub := none, rebuild := none }) s
  placeHalves (raise (71 + r) f .faultUnabsorbed (beBytes 1 f) (wipesBegin s))

end Sys2Proof.Machine
end

