-- ==== Sys2Proof/Machine/Clock.lean ====
section
/-!
DEFINITION. Timebase, mains tracking and the superframe (02). Times with fractions are numbers of 1/256 tick.
-/
namespace Sys2Proof.Machine

/-- Replace the clock record. -/
def setClk (f : ClockSt → ClockSt) (s : State) : State := { s with clk := f s.clk }

/-- Fields of MAINS_CTRL in force. -/
def refCh (s : State) : Nat := objF s 0x78 0xE05 31 27
def refEn (s : State) : Bool := objF s 0x78 0xE05 26 26 == 1
def altCh (s : State) : Nat := objF s 0x78 0xE05 25 21
def altEn (s : State) : Bool := objF s 0x78 0xE05 20 20 == 1
def avgN (s : State) : Nat := 2 ^ objF s 0x78 0xE05 19 18
def srcChain (s : State) : Bool := objF s 0x78 0xE05 16 16 == 1
/-- MISS; 0 acts as 1. -/
def missLimit (s : State) : Nat := max 1 (objF s 0x78 0xE06 7 4)
/-- This device is the sync master (R53). -/
def isMaster (s : State) : Bool := objF s 0x78 0xE08 31 31 == 1
/-- CABLE_DELAY in ticks. -/
def cableDelay (s : State) : Nat := objF s 0x78 0xE08 15 0

/-- The nominal period of NOMINAL in 1/256 tick (R48). -/
def nominalP (bit : Nat) : Nat := if bit = 0 then 8000000 * 256 else 6666666 * 256 + 171

/-- SF_OFFSET in use: the master's in CHAIN (R55), the device's own in every other state: DESIGN CHOICE for a device that
leaves CHAIN (log 116). -/
def sfOffset (s : State) : Nat :=
  if s.clk.track = .chain then s.clk.sfOffMaster.toNat else objF s 0x78 0xE05 15 0

/-- An interval of 45 Hz to 65 Hz, in 1/256 tick (R44). -/
def inRange (iv : Nat) : Bool := decide (6153846 * 256 ≤ iv) && decide (iv ≤ 8888889 * 256)

/-- Accepted intervals join the mean of R45; P moves once 2^AVG are there. -/
def addIntervals (n iv : Nat) (s : State) : State :=
  let l := (List.replicate n iv ++ s.clk.intervals).take 8
  let k := avgN s
  setClk (fun c => { c with
    intervals := l
    p := if k ≤ l.length then (l.take k).foldl (· + ·) 0 / k else c.p }) s

/-- A measured interval outside 45 Hz to 65 Hz (R45). -/
def rangeEvent (iv : Nat) (s : State) : State :=
  raise 77 0x78 .mainsRange (beBytes 4 (iv / 256)) (bumpF 0x78 0xE07 7 0 1 s)

/-- A capture is discarded (R44). -/
def rejectCap (s : State) : State := bumpF 0x78 0xE07 31 16 1 s

/-- MAINS_LOCK, once per whole-device reset (R49). -/
def mainsLock (s : State) : State :=
  if s.clk.lockSeen then s
  else raise 77 0x78 .mainsLock [] (setClk (fun c => { c with lockSeen := true }) s)

/-- In HOLDOVER with ALT_EN, captures come from ALT_CH at once (R51). -/
def takeAlt (s : State) : State :=
  if s.clk.track = .holdover ∧ altEn s = true ∧ s.clk.onAlt = false then
    setClk (fun c => { c with onAlt := true, lastCap := none, refLast := none, refRun := 0 }) s
  else s

/-- An entry to HOLDOVER (R51), counted; a device in HOLDOVER already makes none. -/
def enterHoldover (s : State) : State :=
  if s.clk.track = .holdover then s
  else takeAlt (bumpF 0x78 0xE07 15 8 1 (setClk (fun c => { c with track := .holdover, goodRun := 0, missRun := 0 }) s))

/-- The tracking state is about to change: where it stands outside LOCKED, SLEW and CHAIN, this TB is kept (13, HOLD). -/
def outEnds (c : ClockSt) : ClockSt :=
  if c.track = .locked ∨ c.track = .slew ∨ c.track = .chain then c else { c with outTb := some c.tb.toNat }

/-- A good or a bad error moves the tracking state (R48). -/
def judgeErr (e : Int) (s : State) : State :=
  if e.natAbs * 1024 ≤ s.clk.p then
    let g := s.clk.goodRun + 1
    setClk (fun c => { outEnds c with goodRun := g, track := if 4 ≤ g then .locked else c.track }) s
  else
    setClk (fun c => { outEnds c with
      goodRun := 0
      track := if c.track = .locked ∨ c.track = .holdover then .slew else c.track }) s

/-- The C that a capture is nearest to: that of the cycle in progress, or the next; and its error. -/
def nearC (c per cap : Nat) : Bool × Int :=
  let e0 : Int := (cap : Int) - c
  let e1 : Int := (cap : Int) - (c + per)
  if e1.natAbs < e0.natAbs then (true, e1) else (false, e0)

/-- An accepted capture: its error waits for the C at which R46 uses it, and the cycle it belongs to is noted (R45). -/
def putErr (next : Bool) (e : Int) (s : State) : State :=
  setClk (fun c => { c with
    err := if next then c.err else some e
    errNext := if next then some e else c.errNext
    accAge := if next then -1 else 0
    capThis := true, missRun := 0 }) s

/-- A capture in LOCKED or SLEW (R44, R45, R48). -/
def capTracked (cap : Nat) (s : State) : State :=
  match s.clk.c with
  | none => s
  | some c =>
    let (next, e) := nearC c s.clk.per cap
    if e.natAbs * 16 ≤ s.clk.p then
      -- the cycles from the previous accepted capture to this one
      let n := max 1 (s.clk.accAge + (if next then 1 else 0)).toNat
      let s := match s.clk.lastAcc with
        | none => s
        | some l =>
          let iv := (cap - l) / n
          if inRange iv then addIntervals n iv s else rangeEvent iv s
      let s := judgeErr e (putErr next e s)
      setClk (fun c => { c with lastAcc := some cap }) s
    else rejectCap s

/-- A capture in HOLDOVER or ACQUIRE: the interval test of R44. A capture that fails it counts as a reject (R44) and as a
range error with MAINS_RANGE (R45): DESIGN CHOICE, since R44 says that a discarded capture raises no event (log 111). -/
def capInterval (cap : Nat) (s : State) : State :=
  match s.clk.lastCap with
  | none => s
  | some l =>
    let iv := cap - l
    if !inRange iv then rangeEvent iv (rejectCap s)
    else if s.clk.track = .holdover then
      let s1 := addIntervals 1 iv s
      let s1 := setClk (fun c => { c with lastAcc := some cap }) s1
      match s1.clk.c with
      | none => s1
      | some c => let (next, e) := nearC c s1.clk.per cap; judgeErr e (putErr next e s1)
    else
      -- ACQUIRE
      let good := match s.clk.pred with
        | some q => decide (((cap : Int) - q).natAbs * 1024 ≤ s.clk.p)
        | none => false
      let g := if good then s.clk.goodRun + 1 else 0
      let s1 := addIntervals 1 iv (setClk (fun c => { c with goodRun := g, lastAcc := some cap }) s)
      if 4 ≤ g then
        mainsLock (setClk (fun c => { outEnds c with
          track := .locked, c := some cap, per := c.p, hist := [], accAge := 0, cycle := if c.lockSeen then c.cycle else 0
          err := none, errNext := none, missRun := 0, capThis := true }) s1)
      else if avgN s1 ≤ s1.clk.intervals.length then
        setClk (fun c => { c with pred := some (cap + c.p) }) s1
      else s1

/-- A capture on the channel in use (R44, R51, R57). In ACQUIRE with SRC 1 a capture serves as reference only, so that
CHAIN alone ends ACQUIRE: DESIGN CHOICE (log 112). -/
def capInUse (cap : Nat) (s : State) : State :=
  let s1 := match s.clk.track with
    | .locked => capTracked cap s
    | .slew => capTracked cap s
    | .holdover => if refEn s && !s.clk.chainHold then capInterval cap s else s
    | .acquire => if refEn s && !srcChain s then capInterval cap s else s
    | .free => s
    | .chain => s
  setClk (fun c => { c with lastCap := some cap }) s1

/-- H of R43 in 1/1024 of full scale; 0 acts as 1. -/
def hyst (s : State) : Nat := max 1 (objF s 0x78 0xE06 15 8)

/-- The TB at which the line from (t, a) to (u, b) passes zero, to 1 tick (R43). -/
def zeroTb (t : Nat) (a : Int) (u : Nat) (b : Int) : Nat :=
  (rndDiv 43 ((t : Int) * (b - a) + ((u : Int) - t) * (-a)) (b - a).toNat).toNat

/-- What the search of R43 keeps: the output before, whether the channel has been below -H, the latest zero passed upwards
since, and the crossing recognised. -/
structure CrossScan where
  prev : Option (Nat × Int)
  armed : Bool
  zero : Option Nat
  found : Option Nat
deriving DecidableEq, Repr

/-- One coarse output in the search of R43; full scale is 31 250 codes (13 R362). -/
def crossScan (h : Nat) (x : CrossScan) (o : Nat × Int) : CrossScan :=
  if x.found.isSome then x
  else
    let armed := x.armed || decide (o.2 * 1024 < -(h * 31250 : Int))
    let zero := match x.prev with
      | some (t, a) => if a < 0 ∧ 0 ≤ o.2 ∧ x.armed = true then some (zeroTb t a o.1 o.2) else x.zero
      | none => x.zero
    ⟨some o, armed, zero, if armed && decide ((h * 31250 : Int) < o.2 * 1024) then zero else none⟩

/-- The crossing in a run of coarse outputs, each with its TB (R43): from below -H to above +H, at zero volts. -/
def crossingIn (h : Nat) (outs : List (Nat × Int)) : Option Nat :=
  (outs.foldl (crossScan h) ⟨none, false, none, none⟩).found

/-- A crossing recognised on a channel reaches mains tracking (R43, R44, R51). While ON_ALT is 1 the captures come from
ALT_CH whatever ALT_EN has become: DESIGN CHOICE (log 113). -/
def captureClock (ch stamp : Nat) (s : State) : State :=
  if s.clk.onAlt then
    if ch = altCh s then
      capInUse (stamp * 256 - objF s 0x78 0xE06 31 16 * s.clk.p / 65536) s
    else if ch = refCh s then
      let good := match s.clk.refLast with | some l => inRange (stamp * 256 - l) | none => false
      setClk (fun c => { c with refLast := some (stamp * 256), refRun := if good then c.refRun + 1 else 0 }) s
    else s
  else if ch = refCh s then capInUse (stamp * 256) s
  else s

/-- The adjustment of R46: e/4 held to ± p/256. -/
def adjOf (p : Nat) (e : Int) : Int := clampInt (-((p / 256 : Nat) : Int)) ((p / 256 : Nat) : Int) (e / 4)

/-- C_m falls, C being c (R46, R47): the cycle count advances and the period in use of the new cycle is fixed. -/
def cycleBegins (c : Nat) (s : State) : State :=
  let e := match s.clk.track with
    | .locked | .slew | .chain => s.clk.err.getD 0
    | _ => 0
  let per := ((s.clk.p : Int) + adjOf s.clk.p e).toNat
  let missed := decide (s.clk.track = .locked ∨ s.clk.track = .slew) && !s.clk.capThis
  setClk (fun k => { k with
    c := some (c + k.per), per := per, hist := ((c, k.per) :: k.hist).take 4, cycle := k.cycle + 1
    err := k.errNext, errNext := none, accAge := k.accAge + 1
    capThis := k.errNext.isSome, missRun := if missed then k.missRun + 1 else k.missRun }) s

/-- MISS cycles without an accepted capture (R48, R51). -/
def execMainsMissHoldover (s : State) : Host.Outcome State Fault Refusal :=
  .next (if (s.clk.track = .locked ∨ s.clk.track = .slew) ∧ missLimit s ≤ s.clk.missRun then
      raise 77 0x78 .mainsRefLost [0] (enterHoldover s)
    else s)

/-- MISS superframes without a CHAIN_SYNC edge (R57). -/
def execChainSyncMiss (s : State) : Host.Outcome State Fault Refusal :=
  .next (if s.clk.track = .chain ∧ missLimit s ≤ s.clk.edgeMiss then
      raise 77 0x78 .mainsRefLost [1] (enterHoldover s)
    else s)

/-- A falling edge of CHAIN_SYNC (R55); every device but the master keeps the chain free for the announcement
(15 R434). -/
def execChainSyncEdge (s : State) : Host.Outcome State Fault Refusal :=
  .next (if isMaster s then s
    else
      let t := now s * 256
      let s := { s with chain := { s.chain with syncHold := some (s.clk.tb + 10000000) } }
      setClk (fun c => { c with
        edgeInts := match c.lastEdge with | some l => ((t - l) :: c.edgeInts).take 8 | none => c.edgeInts
        lastEdge := some t, edgeWait := some t, edgeMiss := 0 }) s)

/-- The master finds CHAIN_SYNC low while it does not drive it (R54). -/
def execChainSyncLowSeen (s : State) : Host.Outcome State Fault Refusal :=
  .next (if isMaster s && !s.clk.driving then raise 77 0x78 .syncConflict [] s else s)

/-- The announcement goes ahead of every other message (R53, 15 R434). -/
def execSyncAnnounceSend (s : State) : Host.Outcome State Fault Refusal :=
  .next (if isMaster s && s.clk.annDue then
      let body := beBytes 8 s.clk.edgeTb.toNat ++ beBytes 4 s.clk.sfCycle.toNat ++ beBytes 2 (sfOffset s) ++ [0, 0]
      let m := chainMsg s 0 63 body
      { s with clk := { s.clk with annDue := false }, chain := { s.chain with txq := m :: s.chain.txq } }
    else s)

/-- TB moves by d (R56); the times the device keeps in TB move with it, so that no phase changes. -/
def stepTb (d : Nat) (s : State) : State :=
  let up := fun (o : Option Nat) => o.map (· + d * 256)
  setClk (fun c => { c with
    tb := c.tb + BitVec.ofNat 64 d, c := up c.c, hist := c.hist.map (fun h => (h.1 + d * 256, h.2)), pred := up c.pred, lastCap := up c.lastCap, lastAcc := up c.lastAcc
    outTb := c.outTb.map (· + d), refLast := up c.refLast, lastEdge := up c.lastEdge, edgeWait := up c.edgeWait
    slotTb := c.slotTb + BitVec.ofNat 64 d, sfTb := c.sfTb + BitVec.ofNat 64 d }) s

/-- TB is loaded or stepped forward, with TB_STEP (R56): the record's TB is TB after the step. -/
def tbStep (d : Nat) (s : State) : State :=
  let old := s.clk.tb
  let s := { s with bh := { s.bh with step15 := true, step24 := true } }
  raise 77 0x78 .tbStep (beBytes 8 old.toNat) (stepTb d s)

/-- What the announcement does to TB (R56). With abs(d) below 3, and with d below −2^20, a slew that runs goes on to its end:
DESIGN CHOICE (log 114). -/
def announceTb (d : Int) (s : State) : State :=
  let first := !s.clk.firstAnn
  let s := setClk (fun c => { c with firstAnn := true }) s
  if first ∧ 0 ≤ d then setClk (fun c => { c with slew := 0 }) (tbStep d.toNat s)
  else if 2 ^ 20 < d then setClk (fun c => { c with slew := 0 }) (tbStep d.toNat s)
  else if d < -(2 ^ 20) then
    let due := match s.clk.aheadFor with | some n => decide (1024 ≤ n) | none => true
    if due then raise 77 0x78 .tbAhead (beBytes 8 (toBits 64 d)) (setClk (fun c => { c with aheadFor := some 0 }) s) else s
  else if 3 ≤ d.natAbs then setClk (fun c => { c with slew := d }) s
  else s

/-- The first entry to CHAIN sets C and the count (R47, R49). -/
def chainLock (cap : Nat) (cycle : W32) (s : State) : State :=
  mainsLock (setClk (fun c => { outEnds c with
    track := .chain, chainHold := false, c := some cap, per := c.p, hist := [], cycle := cycle }) s)

/-- The C values the device holds, each with the cycles begun since it: the next one, that of the cycle in progress, and
those kept (R55). -/
def keptC (s : State) (c : Nat) : List (Int × Nat) :=
  (-1, c + s.clk.per) :: (0, c) :: (s.clk.hist.zipIdx.map (fun h => ((h.2 : Int) + 1, h.1.1)))

/-- The C nearest to a capture. -/
def nearestC (cap : Nat) (l : List (Int × Nat)) : Int × Nat :=
  l.foldl (fun a x => if ((cap : Int) - x.2).natAbs < ((cap : Int) - a.2).natAbs then x else a) (l.headD (0, cap))

/-- The edge as the capture of the announced cycle's crossing, against the C kept for that cycle; the announced count is
adopted, and the superframe in progress keeps its place (R55). -/
def announceTrack (edge : Nat) (cycle : W32) (sfo : W16) (s : State) : State :=
  let k := avgN s
  let s := setClk (fun c => { c with
    p := if k ≤ c.edgeInts.length then (c.edgeInts.take k).foldl (· + ·) 0 / (2 * k) else c.p
    sfOffMaster := sfo }) s
  let cap := edge - cableDelay s * 256 - sfo.toNat * s.clk.p / 65536
  match s.clk.c with
  | none =>
    chainLock cap cycle s
  | some c0 =>
    if !s.clk.lockSeen then chainLock cap cycle s
    else
      let n := nearestC cap (keptC s c0)
      let count := cycle + BitVec.ofInt 32 n.1
      setClk (fun c => { outEnds c with
        track := .chain, chainHold := false, onAlt := false, err := some ((cap : Int) - n.2), errNext := none
        cycle := count, sfCycle := c.sfCycle + (count - c.cycle) }) s

/-- What a sync announcement does (R55, R56); it ends the hold of 15 R434. -/
def syncAnnounced (tb : W64) (cycle : W32) (sfo : W16) (s : State) : State :=
  if isMaster s then s
  else
    let s := { s with chain := { s.chain with syncHold := none } }
    match s.clk.edgeWait with
    | none => s
    | some edge =>
      let d := signedOf 64 ((tb + BitVec.ofNat 64 (cableDelay s)) - BitVec.ofNat 64 (edge / 256)).toNat
      let s := announceTb d s
      let edge := s.clk.edgeWait.getD edge
      let s := setClk (fun c => { c with edgeWait := none }) s
      if srcChain s then announceTrack edge cycle sfo s else s

/-- A sync announcement arrives (R55, R56). -/
def execSyncAnnouncement (tb : W64) (cycle : W32) (sfo : W16) (s : State) : Host.Outcome State Fault Refusal :=
  .next (syncAnnounced tb cycle sfo s)

/-- One tick added or skipped, in every 10 000 (R41, R56). -/
def execTbSlewAdjust (s : State) : Host.Outcome State Fault Refusal :=
  .next (if s.clk.slew = 0 ∨ s.clk.slewTicks < 10000 then s
    else if 0 < s.clk.slew then
      setClk (fun c => { c with tb := c.tb + 1, slew := c.slew - 1, slewTicks := 0 }) s
    else setClk (fun c => { c with skipTick := true, slew := c.slew + 1, slewTicks := 0 }) s)

/-- The reference is declared lost (R38, R39). -/
def execRefclkLoss (s : State) : Host.Outcome State Fault Refusal :=
  .next (if objF s 0x78 0xE09 31 31 = 1 then
      let s := setF 0x78 0xE09 31 31 0 (setF 0x78 0xE09 29 29 1 s)
      raise 77 0x78 .faultRefclk [] (setClk (fun c => { c with refSlew := false }) s)
    else s)

/-- 1024 periods in the window: the synthesizers slew back (R40). REF_OK reads 1 again from here on: DESIGN CHOICE, the
field says no more than within the window (log 115). -/
def execRefclkRestoreDetect (s : State) : Host.Outcome State Fault Refusal :=
  .next (if objF s 0x78 0xE09 29 29 = 1 then
      setClk (fun c => { c with refSlew := true }) (setF 0x78 0xE09 31 31 1 s)
    else s)

/-- The slew back to the reference ends (R40). -/
def execRefclkSlewEnd (s : State) : Host.Outcome State Fault Refusal :=
  .next (if s.clk.refSlew then
      raise 77 0x78 .refclkRestored [] (setClk (fun c => { c with refSlew := false }) (setF 0x78 0xE09 29 29 0 s))
    else s)

/-- The slow clock starts or stops (SLOW_OK, 20 R511). -/
def execSlowClockChange (running : Bool) (s : State) : Host.Outcome State Fault Refusal :=
  .next (setF 0x78 0xE09 30 30 (b2n running) s)

/-- The mains phase (R47). -/
def mainsPhase (s : State) : Nat :=
  match s.clk.c with
  | none => 0
  | some c => if s.clk.per = 0 then 0 else min 0xFFFF (65536 * (now s * 256 - c) / s.clk.per)

/-- The code of a tracking state (R48). -/
def trackCode : Track → Nat
  | .free => 0 | .acquire => 1 | .locked => 2 | .slew => 3 | .holdover => 4 | .chain => 5

/-- crossing(m) and period(m) of the cycle k after the one in progress (R52): kept for cycles that have begun, and with P
where no period is fixed yet. -/
def cycleAfter (s : State) (k : Int) : Nat × Nat :=
  let c := s.clk.c.getD 0
  if 0 < k then (c + s.clk.per + (k.toNat - 1) * s.clk.p, s.clk.p)
  else if k = 0 then (c, s.clk.per)
  else
    match s.clk.hist[(-k).toNat - 1]? with
    | some h => h
    | none => (c - (-k).toNat * s.clk.p, s.clk.p)

/-- The mains phase of an instant of the cycle in progress or of a kept cycle before it (R47). -/
def phaseAt (s : State) (t : Nat) : Nat :=
  match ((List.range 9).map (fun k => cycleAfter s (-(k : Int)))).find? (fun e => decide (e.1 ≤ 256 * t)) with
  | some (c, per) => if per = 0 then 0 else min 0xFFFF (65536 * (256 * t - c) / per)
  | none => 0

/-- The mains-phase bin in which an instant lies (05 R145). -/
def binAt (s : State) (t : Nat) : Nat := phaseAt s t / 1024

/-- The TB at which slot n of the superframe in progress begins (R52). -/
def slotStartTb (s : State) (n : Nat) : Nat :=
  let u := sfOffset s + n * 8192
  let x := cycleAfter s (((u >>> 16 : Nat) : Int) - (s.clk.cycle - s.clk.sfCycle).toInt)
  (x.1 * 65536 + u % 65536 * x.2) / (65536 * 256)

/-- A change of REF_EN or SRC takes effect at a superframe start (R519). -/
def sourceChange (old new : W32) (s : State) : State :=
  let en := fget new 26 26
  let sc := fget new 16 16
  if (fget old 26 26 = en ∧ fget old 16 16 = sc) ∨ !s.clk.lockSeen then s
  else if sc = 1 then
    (if fget old 16 16 = 1 then s else setClk (fun c => { c with chainHold := true }) (enterHoldover s))
  else if en = 0 then setClk (fun c => { c with track := .free, onAlt := false, chainHold := false }) s
  else if fget old 16 16 = 1 ∨ fget old 26 26 = 0 then
    setClk (fun c => { c with chainHold := false }) (if s.clk.track = .chain ∨ s.clk.track = .free then enterHoldover s else s)
  else s

/-- A change of REF_CH, or of ALT_CH while captures come from it: the first capture of the new channel serves only as
reference (R44). -/
def channelChange (old new : W32) (s : State) : State :=
  let ref := decide (fget old 31 27 ≠ fget new 31 27)
  let alt := decide (fget old 25 21 ≠ fget new 25 21)
  setClk (fun c => { c with
    lastCap := if (if c.onAlt then alt else ref) then none else c.lastCap
    refLast := if ref then none else c.refLast
    refRun := if ref then 0 else c.refRun }) s

/-- Until 2^AVG intervals have been accepted, of captures or of edges, P holds the nominal period (R45). -/
def nominalHeld (s : State) : State :=
  if s.clk.intervals.length < avgN s ∧ s.clk.edgeInts.length < avgN s then
    setClk (fun c => { c with p := nominalP (objF s 0x78 0xE05 17 17) }) s
  else s

/-- Four good captures on REF_CH bring tracking back from ALT_CH (R51). -/
def altReturn (s : State) : State :=
  if s.clk.onAlt ∧ 4 ≤ s.clk.refRun then
    setClk (fun c => { c with onAlt := false, lastCap := none, refRun := 0, refLast := none }) s
  else s

/-- One tick of SYN_L (R41): what the block does when no command waits. A negative slew holds TB for one count (R56). -/
def tick (s : State) : State :=
  if s.phase ≠ .running then s
  else
    setClk (fun c => { c with
      tb := if c.skipTick then c.tb else c.tb + 1
      skipTick := false
      slewTicks := c.slewTicks + 1
      driving := c.driving && decide (c.tb.toNat < c.edgeTb.toNat + 400) }) s

end Sys2Proof.Machine
end

