-- ==== Sys2Proof/Machine/Events.lean ====
section
/-!
DEFINITION. The event collector (02 R58 to R64): acceptance, release in order, numbering, the event store, the event
packets (14 R415, R416) and EVT_READ (14 R417).
-/
namespace Sys2Proof.Machine

/-- The event link of 14 R391. -/
def eventLink (s : State) : Option Nat :=
  let p := objF s 0 0xE20 30 30
  let o := 1 - p
  if hlUp s p then some p else if hlUp s o then some o else if hlLock s p then some p
  else if hlLock s o then some o else none

/-- The path of EVT_CFG is available (14 R416, 15 R439). -/
def eventPath (s : State) : Bool :=
  if objF s 0 0xE20 31 31 = 0 then (eventLink s).isSome
  else s.aon.addr != 0 && objF s 0 0xE20 29 24 != 0 && objF s 0x69 0xB09 23 23 == 0

/-- The 32 bytes of an issued record (02, event record layout). -/
def recordBytes (esn : Nat) (epoch : Nat) (r : EvRec) : Bytes :=
  beBytes 4 esn ++ beBytes 2 epoch ++ [r.func] ++ beBytes 1 (128 * b2n r.late + r.sev.toNat) ++ beBytes 8 r.tb.toNat
    ++ beBytes 2 r.code.toNat ++ beBytes 2 r.data.length ++ slice r.data 0 12

/-- Copies of a record to the cores that ask for its severity (16 R447). -/
def coreCopies (sev : Nat) (rec : Bytes) (s : State) : State :=
  (List.range 4).foldl (fun t n =>
    if objF t (0x70 + n) 0xC02 22 20 ≤ sev then
      let x := qPush (0x10 + n) 0x16 false 3 rec (mcPass rec t)
      if x.2 = .stored then x.1 else bumpF (0x70 + n) 0xC04 15 4 1 t
    else t) s

/-- A numbered record goes to the store, the packets and the cores (02 R64, 14 R415, R416). -/
def storeRecord (esn : Nat) (r : EvRec) (s : State) : State :=
  let rec32 := recordBytes esn s.aon.epoch.toNat r
  let s := trWrite (0x640000 + 32 * s.ev.storeAt) rec32 s
  let s := if s.ev.storeN = 2048 then bumpF 0x78 0xE0A 31 16 1 s else s
  let s := { s with ev := { s.ev with
    storeAt := (s.ev.storeAt + 1) % 2048, storeN := min 2048 (s.ev.storeN + 1), lastEsn := some (BitVec.ofNat 32 esn) } }
  let s := if eventPath s then { s with ev := { s.ev with unsent := s.ev.unsent ++ [rec32] } }
    else bumpF 0 0xE21 15 0 1 s
  coreCopies r.sev.toNat rec32 s

/-- The EPOCH_START record ahead of a record (02 R62). -/
def epochStart (r : EvRec) (s : State) : State :=
  storeRecord 0 ⟨108, 0x78, false, 0, r.tb, BitVec.ofNat 16 (evCode .epochStart), beBytes 2 s.aon.epoch.toNat⟩ s

/-- Issue one record (02 R60, R62). -/
def issue (r : EvRec) (s : State) : State :=
  match s.ev.lastEsn with
  | none => storeRecord 1 r (epochStart r s)
  | some n =>
    if n.toNat = 0xFFFFFFFF then
      let s := { s with aon := { s.aon with epoch := s.aon.epoch + 1 } }
      storeRecord 1 r (epochStart r s)
    else storeRecord (n.toNat + 1) r s

/-- Issue order (02 R60): stamp, then source. -/
def evBefore (a b : EvRec) : Bool := a.tb.toNat < b.tb.toNat || (a.tb == b.tb && a.src < b.src)

/-- Insert a record behind those that are not after it. -/
def evInsert (r : EvRec) : List EvRec → List EvRec
  | [] => [r]
  | x :: t => if evBefore r x then r :: x :: t else x :: evInsert r t

/-- The records in issue order; those of one source and stamp keep their order. -/
def evSort (l : List EvRec) : List EvRec := l.foldl (fun a r => evInsert r a) []

/-- The release point has passed a stamp (02 R60): TB lies 1024 ticks past it. -/
def released (s : State) (r : EvRec) : Bool := decide (r.tb.toNat + 1024 ≤ now s)

/-- The collector is held with a lost region (09 R286): it takes and issues no record. -/
def collectorHeld (s : State) : Bool := s.pw.regionHeld.any (fun f => f == 0x78)

/-- The collector accepts the oldest record of a source (02 R60, R61). -/
def acceptOldest (src : Nat) (s : State) : State :=
  let q := vAt s.ev.srcs src
  match q.q with
  | [] => s
  | r :: t =>
    if collectorHeld s then s else
    let s := { s with ev := { s.ev with srcs := vSet s.ev.srcs src { q with q := t } } }
    if released s r then issue { r with late := true } s
    else { s with ev := { s.ev with held := s.ev.held ++ [r] } }

/-- EVENT_RECORD_ACCEPT (02 R60, R61). -/
def execEventRecordAccept (src : Fin 108) (s : State) : Host.Outcome State Fault Refusal := .next (acceptOldest src.val s)

/-- What one command does to each item of a list in turn, each raising a record of one source: the collector accepts one
record per clock (02 R60), so it takes the oldest where the source's queue is nearly full. DEDUCED. -/
def inTurn {α : Type} (src : Nat) (f : α → State → State) (l : List α) (s : State) : State :=
  l.foldl (fun s x =>
    let s := f x s
    if 3 ≤ (vAt s.ev.srcs src).q.length then acceptOldest src s else s) s

/-- The hold window of held records ends: they are issued in order (02 R60). -/
def execEventRelease (s : State) : Host.Outcome State Fault Refusal :=
  .next (if collectorHeld s then s else
    let due := evSort (s.ev.held.filter (fun r => released s r))
    let s := { s with ev := { s.ev with held := s.ev.held.filter (fun r => !released s r) } }
    due.foldl (fun t r => issue r t) s)

/-- The event packet of a record (14 R415). -/
def eventPacket (s : State) (rec : Bytes) : Bytes :=
  cmdPacket 0x8E00 0 (ownDest s) (byteAt rec 6) 0 (beAt rec 0 4) rec

/-- Where packets on the event link go (14 R416). -/
def eventDst (s : State) : BitVec 48 × Option (BitVec 12) := s.ev.dst.getD (0xFFFFFFFFFFFF, none)

/-- The next record is sent on its path (14 R415, R416). -/
def execEventPacketSend (s : State) : Host.Outcome State Fault Refusal :=
  .next (match s.ev.unsent with
    | [] => s
    | r :: t =>
      let s := { s with ev := { s.ev with unsent := t } }
      if !eventPath s then bumpF 0 0xE21 15 0 1 s
      else
        let s := bumpF 0 0xE21 31 16 1 s
        if objF s 0 0xE20 31 31 = 0 then
          match eventLink s with
          | some l => hostSend l (eventDst s).1 (eventDst s).2 (eventPacket s r) (mcPass (eventPacket s r) s)
          | none => s
        else chainSend 2 (objF s 0 0xE20 29 24) (eventPacket s r) s)

/-- Records of the store, oldest first; a record that cannot be read, or whose bank was rebuilt
without it, is lost (09 R278, 01 R26). -/
def storedRecords (s : State) : List Bytes :=
  ((List.range s.ev.storeN).map (fun i => 0x640000 + 32 * ((s.ev.storeAt + 2048 - s.ev.storeN + i) % 2048))).filterMap
    (fun a => let d := trReadData s a 32; if d.2 || beNat d.1 == 0 then none else some d.1)

/-- V of R417: EPOCH × 2^32 + ESN of a record. -/
def recordV (b : Bytes) : Nat := beAt b 4 2 * 2 ^ 32 + beAt b 0 4

/-- The records EVT_READ returns (14 R417). -/
def evtSelect (s : State) (v n : Nat) : List Bytes :=
  ((storedRecords s).filter (fun b => decide ((recordV b + 2 ^ 48 - v) % 2 ^ 48 < 2 ^ 47))).take n

/-- EVT_READ (14 R417). -/
def execEvtRead (r : Req) (s : State) : Host.Outcome State Fault Refusal :=
  .next (execReq 0xE01 r (r.func == 0)
    (lenAnd r 8 (chk (decide (1 ≤ beAt r.params 2 2 ∧ beAt r.params 2 2 ≤ 63)) 2)) false
    (fun s => .reply stDone
      ((evtSelect s (beAt r.params 0 2 * 2 ^ 32 + beAt r.params 4 4) (beAt r.params 2 2)).flatMap id) s) s)

end Sys2Proof.Machine
end

