-- ==== Sys2Proof/Machine/QueueRows.lean ====
section
/-!
DEFINITION. The commands of the queues (10): units, commits, aborts, reads, releases, pointer faults, Q_READ and Q_WM.
-/
namespace Sys2Proof.Machine

/-- A packet or word lost at a DROP producer is counted by its owner too: HL_COUNT.DROPS for the host receive queues
(14 R390). -/
def dropOwner (q : Nat) (s : State) : State :=
  if q = 0 ∨ q = 1 then bumpF (0x5C + q) 0x31 19 8 1 s
  else if q = 0x5A ∨ q = 0x5B then bumpF (0x5C + (q - 0x5A)) 0x31 19 8 1 s
  else if 0x40 ≤ q ∧ q ≤ 0x45 then bumpF 0 0xF00 15 8 1 s
  else s

/-- The rest of the packet that its producer offers is taken and discarded (R294, R295). -/
def qDiscards (qid : Nat) (s : State) : State := setQ qid { getQ s qid with discarding := true } s

/-- The client ID of a packet queue's producer (10, catalogue; 09 R274). -/
def producerOf (q : Nat) : Nat :=
  if q ≤ 1 then 0x1B + q else if q = 4 ∨ q = 5 then 0x19 + (q - 4) else if q = 0xE then 0x17
  else if 0x14 ≤ q ∧ q ≤ 0x17 then 0x1D + (q - 0x14) else if q = 0x19 then 0x21 else 0x16

/-- The payload that BYTES leaves of the units written: BYTES must end in the last of them (log 151). -/
def payloadOf (d : Bytes) (bytes : Nat) : Bytes := if cdiv bytes 8 = cdiv d.length 8 then d.take bytes else d

/-- The Trellis address of the unit at a position of a packet queue's ring (R292). -/
def unitAddr (qid pos : Nat) : Nat := 0x540000 + Config.ringBase qid + 8 * (pos % qSize qid)

/-- One unit offered to a packet queue (R292, R294, R295). -/
def unitPacket (qid : Nat) (c : QCat) (unit : BitVec 256) (s : State) : State :=
  let q := getQ s qid
  if q.discarding || q.heldR291 then s
  else
    let data := beBytes 8 (unit.toNat % 2 ^ 64)
    -- a packet begins by reserving the unit of its length word
    let need := if q.writing.isNone then 2 else 1
    let used := qUsed c.size q
    if used + need ≤ c.size then
      -- a whole word is written
      putQ qid { q with
        wp := ptrAdd c.size q.wp need, writing := some (q.writing.getD [] ++ data) }
        (unpoison (unitAddr qid (ptrAdd c.size q.wp (need - 1))) 8 s)
    else if c.drop then dropOwner qid (qDiscards qid (qDrop qid s))
    else if q.rp = q.pp then
      -- the next unit would be the rewind mark: the packet can never complete
      qDiscards qid (qOversize qid (q.writing.getD []).length s)
    else s

/-- A producer writes a unit (R294, R295). -/
def execQueueUnitWrite (q : Byte) (unit : BitVec 256) (s : State) : Host.Outcome State Fault Refusal :=
  .next (match qCat q.toNat with
    | none => s
    | some c =>
      if c.crossing then
        let full := decide (c.size ≤ qUsed c.size (getQ s q.toNat)) && c.drop && !(getQ s q.toNat).heldR291
        let s := (qWord q.toNat unit.toNat s).1
        if full then dropOwner q.toNat s else s
      else unitPacket q.toNat c unit s)

/-- A producer commits its packet with the BYTES, MARK and TAG of its length word (R292 steps 2 to 4); with nothing written it
is a packet without payload. The rest of a lost packet ends here. -/
def execPacketCommit (q : Byte) (bytes : Nat) (mark : Bool) (tag : Byte) (s : State) : Host.Outcome State Fault Refusal :=
  .next (match qCat q.toNat with
    | none => s
    | some c =>
      let k := getQ s q.toNat
      if c.crossing then s
      else if k.discarding then setQ q.toNat { k with discarding := false, writing := none } s
      else match k.writing with
        | none => (qPush q.toNat (producerOf q.toNat) mark tag.toNat [] s).1
        | some d =>
          let p : Pkt := ⟨k.pp, BitVec.ofNat 6 (producerOf q.toNat), false, mark, tag, s.clk.tb.truncate 32, payloadOf d bytes⟩
          putQ q.toNat { k with pp := k.wp, pkts := k.pkts ++ [p], writing := none }
            (unpoison (unitAddr q.toNat k.pp) 8 s))

/-- A producer aborts its packet (R293). -/
def execPacketAbort (q : Byte) (s : State) : Host.Outcome State Fault Refusal :=
  .next (match qCat q.toNat with
    | none => s
    | some c =>
      let k := getQ s q.toNat
      if c.crossing then s
      else if k.discarding then setQ q.toNat { k with discarding := false } s
      else if k.writing.isSome then putQ q.toNat (qAbort k) s else s)

/-- The consumer of a retaining queue releases a packet (R296). -/
def execPacketRelease (q : Byte) (pos : Nat) (s : State) : Host.Outcome State Fault Refusal :=
  .next (match qCat q.toNat with
    | none => s
    | some c => if c.retain then qRelease q.toNat pos s else s)

/-- Q_READ (R303). -/
def execQRead (r : Req) (s : State) : Host.Outcome State Fault Refusal :=
  .next (execReq 0xF10 r (r.func == 0) (lenIs r 4) false
    (fun s =>
      let q := byteAt r.params 0
      if (qCat q).isNone then refuse stNoResource 0 s
      else .reply stDone (qStatus q s) (if nbit (byteAt r.params 1) 0 then qClear q s else s)) s)

/-- Q_WM (R303). -/
def execQWm (r : Req) (s : State) : Host.Outcome State Fault Refusal :=
  .next (execReq 0xF11 r (r.func == 0) (lenIs r 4) false
    (fun s =>
      let q := byteAt r.params 0
      if (qCat q).isNone then refuse stNoResource 0 s
      else .reply stDone [] (qMarks q (BitVec.ofNat 8 (byteAt r.params 1)) (BitVec.ofNat 8 (byteAt r.params 2)) s)) s)

end Sys2Proof.Machine
end

