-- ==== Sys2Proof/Machine/HostLink.lean ====
section
/-!
DEFINITION. The host links (14 R388 to R391): frames received, PAUSE, link state and the choice of the event link.
-/
namespace Sys2Proof.Machine

/-- The link is powered and out of reset. -/
def hlRuns (s : State) (l : Nat) : Bool := !funcDown s (0x5C + l) && decide (s.phase = .running)

/-- The address, tag and Ethertype of R389 are accepted. -/
def frameForUs (s : State) (l : Nat) (f : EthFrame) : Bool :=
  let cfg := getObj s (0x5C + l) 0x32
  (decide (f.dst = linkMac l) || (decide (f.dst = 0xFFFFFFFFFFFF) && fget cfg 31 31 == 1))
    && (if fget cfg 30 30 = 1 then decide (f.vlan = some (BitVec.ofNat 12 (fget cfg 29 18))) else f.vlan.isNone)
    && f.etype == 0x88B5

/-- A data packet passes steps 2 to 4 of R387. -/
def dataPacketOk (p : Bytes) : Bool :=
  byteAt p 1 == 0x43 && decide (beAt p 8 2 ≤ 9000) && decide (20 + beAt p 8 2 ≤ p.length)
    && beAt p (16 + beAt p 8 2) 4 == crc32c (p.take (16 + beAt p 8 2))

/-- Replace what is known of the requests in a host receive queue. -/
def setSrcs (l : Nat) (f : List (Nat × BitVec 48 × Option (BitVec 12)) → List (Nat × BitVec 48 × Option (BitVec 12)))
    (s : State) : State :=
  { s with hl := { s.hl with srcs := vSet s.hl.srcs l (f (vAt s.hl.srcs l)) } }

/-- The link engine takes the requests at the head of a host receive queue through the rest of R387; a data packet there
waits for DATA_PACKET_DOWNLINK (14 R387, R390). -/
def hostTake (link : Fin 2) : Nat → State → State
  | 0, s => s
  | n + 1, s =>
    match (getQ s link.val).pkts.head? with
    | none => s
    | some p =>
      match (vAt s.hl.srcs link.val).find? (fun e => e.1 == p.pos), qPop link.val s with
      | some e, some (_, t) =>
        if byteAt p.data 0 ≠ 0x6B then s
        else hostTake link n (receiveCmd (.host link e.2.1 e.2.2) p.data (setSrcs link.val (fun l => l.filter (fun x => x.1 != p.pos)) t))
      | _, _ => s

/-- As far as the requests at the head go. -/
def hostRequests (link : Fin 2) (s : State) : State := hostTake link (getQ s link.val).pkts.length s

/-- A request joins a host receive queue; one that finds no room is lost and counted (14 R390). -/
def hostRequest (link : Fin 2) (f : EthFrame) (s : State) : State :=
  let l := link.val
  let x := qPush l (0x1B + l) false 0 f.payload s
  if x.2 ≠ .stored then bumpF (0x5C + l) 0x31 19 8 1 x.1
  else
    let q := (getQ x.1 l).pkts
    hostRequests link (setSrcs l (fun k => k.filter (fun e => e.1 != (q.getLastD default).pos && q.any (fun p => p.pos == e.1))
      ++ [((q.getLastD default).pos, f.src, f.vlan)]) x.1)

/-- The payload of an accepted frame (14 R387, R389). A packet stands in the host receive queue: a request until the link
engine comes to it, a data packet that passes step 4 for DATA_PACKET_DOWNLINK. -/
def hostPayload (link : Fin 2) (f : EthFrame) (s : State) : State :=
  let l := link.val
  let F := 0x5C + l
  if byteAt f.payload 0 = 0x6B then hostRequest link f s
  else if byteAt f.payload 0 = 0x6C then
    if !dataPacketOk f.payload then bumpF F 0x31 7 4 1 s
    else
      let x := qPush l (0x1B + l) false 0 f.payload s
      if x.2 = .stored then x.1 else bumpF F 0x31 19 8 1 x.1
  else bumpF F 0x31 7 4 1 s

/-- A frame arrives on a host link (14 R388, R389). -/
def execHostFrameReceive (link : Fin 2) (f : EthFrame) (s : State) : Host.Outcome State Fault Refusal :=
  let l := link.val
  let F := 0x5C + l
  .next (if !hlRuns s l then s
    else if !f.fcsOk ∨ f.len < 64 ∨ 9216 < f.len then bumpF F 0x31 31 20 1 s
    else if !frameForUs s l f then bumpF F 0x31 7 4 1 s
    else
      -- the frame crosses through queue 0x5A + l (02 R37); one lost there counts as a drop (14 R390)
      let x := qStream (0x5A + l) (words64 f.payload) s
      if x.2.isEmpty ∧ f.payload ≠ [] then bumpF F 0x31 19 8 1 x.1 else hostPayload link f x.1)

/-- Ticks of n pause quanta: 512 bit times at 10 Gbit/s are 51.2 ns, or 20.48 ticks (IEEE 802.3 Annex 31B). -/
def pauseTicks (quanta : Nat) : Nat := cdiv (quanta * 2048) 100

/-- A link leaves PAUSE and sends what waited (14 R390). -/
def pauseEnds (l : Nat) (s : State) : State :=
  let s := setF (0x5C + l) 0x30 28 28 0 s
  hostDrain l { s with hl := { s.hl with pauseEnd := vSet s.hl.pauseEnd l none } }

/-- A PAUSE frame arrives (14 R390): quanta 0 ends the pause. -/
def execPauseReceive (link : Fin 2) (quanta : W16) (s : State) : Host.Outcome State Fault Refusal :=
  let l := link.val
  .next (if !hlRuns s l then s
    else if quanta = 0 then pauseEnds l s
    else
      let s := setF (0x5C + l) 0x30 28 28 1 s
      { s with hl := { s.hl with
        pauseEnd := vSet s.hl.pauseEnd l (some (s.clk.tb + BitVec.ofNat 64 (pauseTicks quanta.toNat))) } })

/-- The time of the last PAUSE runs out (14 R390). -/
def execPauseExpire (link : Fin 2) (s : State) : Host.Outcome State Fault Refusal :=
  .next (match vAt s.hl.pauseEnd link.val with
    | some t => if t.toNat ≤ now s then pauseEnds link.val s else s
    | none => s)

/-- The event link moved from `before` by a change of the links (14 R391): FAULT_HOST_LINK when it left a link that is
no longer up, or when none remains. -/
def eventLinkMoved (before : Option Nat) (s : State) : State :=
  match before with
  | none => s
  | some l =>
    if eventLink s = some l then s
    else if hlUp s l ∧ (eventLink s).isSome then s
    else raise (53 + l) (0x5C + l) .faultHostLink (beBytes 1 l) s

/-- Block lock or high BER changes (14 R391), with the test-pattern errors found since the last change (HL_CFG.PRBS_RX). -/
def execHostLinkState (link : Fin 2) (lock hiBer : Bool) (prbsErr : BitVec 12) (s : State) : Host.Outcome State Fault Refusal :=
  let l := link.val
  let F := 0x5C + l
  .next (if !hlRuns s l then s
    else
      let before := eventLink s
      let wasUp := hlUp s l
      let lost := hlLock s l && !lock
      let s := setF F 0x30 31 31 (b2n lock) (setF F 0x30 30 30 (b2n hiBer) s)
      let s := if lost then bumpF F 0x31 3 0 1 s else s
      let s := if objF s F 0x32 16 16 = 1 then bumpF F 0x30 27 16 prbsErr.toNat s else s
      let up := hlUp s l
      let s := if up && !wasUp then { s with hl := { s.hl with upSince := vSet s.hl.upSince l (some s.clk.tb) } }
        else if !up then { s with hl := { s.hl with upSince := vSet s.hl.upSince l none } } else s
      let s := eventLinkMoved before s
      -- the last link to the host is lost: the condition of 01 R23 does not hold (01 R28)
      if before.isSome ∧ eventLink s = none then raise (53 + l) F .faultUnabsorbed (beBytes 1 F) s else s)

/-- A link has stayed up for 1 s (14 R391). -/
def execHostLinkUp (link : Fin 2) (s : State) : Host.Outcome State Fault Refusal :=
  let l := link.val
  .next (if (vAt s.hl.upSince l).any (fun t => decide (t.toNat + 400000000 ≤ now s)) && hlUp s l then
      raise (53 + l) (0x5C + l) .hostLinkUp (beBytes 1 l) { s with hl := { s.hl with upSince := vSet s.hl.upSince l none } }
    else s)

end Sys2Proof.Machine
end

