-- ==== Sys2Proof/Machine/Signal.lean ====
section
/-!
DEFINITION. Numbers of the signal chapters (03 to 07, 13): complex values with rational parts, and the real functions that
the rules name. Where a function's value is not rational it is its series, which is within 2^-40 of it, plus a free
deviation of at most 2^-40 (`Config.slack`): the manual states no arithmetic width (log 117).
-/
namespace Sys2Proof.Machine

/-- The smallest deviation that an approximated value may have. -/
def ulp : Rat := 1 / 2 ^ 40

/-- A value known to within `ulp`: the function's number, its argument and its series. -/
def near (f : Nat) (x v : Rat) : Rat := v + max (-ulp) (min ulp (Config.slack f x))

/-- The nearest whole number; of two equally near ones, either. -/
def roundNear (rule : Nat) (x : Rat) : Int :=
  let d := x - x.floor
  x.floor + (if d < 1 / 2 then 0 else if 1 / 2 < d then 1 else if Config.roundUp rule x.num x.den then 1 else 0)

/-- A value as a whole number where the manual gives its unit and no rounding: one of the two whole numbers around it. -/
def roundAny (rule : Nat) (x : Rat) : Int :=
  if x.den = 1 then x.num else x.floor + (if Config.roundUp rule x.num x.den then 1 else 0)

/-- π to 30 places. -/
def piQ : Rat := 3141592653589793238462643383279 / 10 ^ 30

/-- The sum of `n` terms of a series whose next term follows from its number and the present one. -/
def series (next : Nat → Rat → Rat) (n : Nat) (t : Rat) : Rat :=
  ((List.range n).foldl (fun (a : Rat × Rat) i => (a.1 + a.2, next i a.2)) (0, t)).1

/-- cos 2πx; whole values of 1/12 turn with a rational cosine are exact. -/
def cosTurn (x : Rat) : Rat :=
  let r := x - x.floor
  if r = 0 then 1 else if r = 1 / 2 then -1 else if r = 1 / 4 ∨ r = 3 / 4 then 0
  else if r = 1 / 6 ∨ r = 5 / 6 then 1 / 2 else if r = 1 / 3 ∨ r = 2 / 3 then -1 / 2
  else
    let a := 2 * piQ * (r - 1 / 2)
    near 0 r (-(series (fun i t => -t * a * a / ((2 * i + 1) * (2 * i + 2))) 24 1))

def sinTurn (x : Rat) : Rat := cosTurn (x - 1 / 4)

/-- e^x: the series at x / 2^k, squared k times. -/
def expQ (x : Rat) : Rat :=
  if x = 0 then 1
  else
    let k := x.num.natAbs.log2 + 1 - x.den.log2
    let y := series (fun i t => t * (x / 2 ^ k) / (i + 1)) 40 1
    near 1 x ((List.range k).foldl (fun a _ => a * a) y)

/-- 2 artanh((m − 1) / (m + 1)) = ln m, for m near 1. -/
def lnSeries (m : Rat) : Rat :=
  let z := (m - 1) / (m + 1)
  2 * ((List.range 60).foldl (fun (a : Rat × Rat) i => (a.1 + a.2 / (2 * i + 1), a.2 * z * z)) (0, z)).1

/-- ln x of a positive x. -/
def lnQ (x : Rat) : Rat :=
  if x = 1 then 0
  else
    let k : Int := (x.num.natAbs.log2 : Int) - x.den.log2
    near 2 x (lnSeries (x / (2 : Rat) ^ k) + k * lnSeries 2)

/-- Whether x is a power of ten, and its exponent, from 10^-20 to 10^20. -/
def tenExp (x : Rat) : Option Int :=
  ((List.range 41).map (fun i => (i : Int) - 20)).find? (fun e => decide (x = (10 : Rat) ^ e))

/-- log10 of a positive x; exact at powers of ten. -/
def log10Q (x : Rat) : Rat :=
  match tenExp x with
  | some e => e
  | none => near 3 x (lnQ x / lnQ 10)

/-- 10^y; exact at whole y. -/
def pow10Q (y : Rat) : Rat := if y.den = 1 then (10 : Rat) ^ y.num else near 4 y (expQ (y * lnQ 10))

/-- The square root of x ≥ 0; exact where it has at most 40 binary places. -/
def sqrtQ (x : Rat) : Rat :=
  let n := x.num.natAbs * x.den * 2 ^ 80
  let r : Rat := (isqrtAux (n.log2 / 2 + 1) n 0 : Nat) / (x.den * 2 ^ 40)
  if r * r = x then r else near 5 x r

/-- erf x. -/
def erfQ (x : Rat) : Rat :=
  if x = 0 then 0
  else near 6 x (2 / sqrtQ piQ
    * ((List.range 120).foldl (fun (a : Rat × Rat) i => (a.1 + a.2 / (2 * i + 1), -a.2 * x * x / (i + 1))) (0, x)).1)

-- Powers and decibels.

/-- The power ratio of a decibel figure. -/
def ofDb (d : Rat) : Rat := pow10Q (d / 10)

/-- The quotient of two powers; a division by nothing reads as 120 dB, or as 0 where there is nothing to divide. -/
def ratio (a b : Rat) : Rat := if b = 0 then (if a = 0 then 0 else 10 ^ 12) else a / b

/-- 10 log10 of a power ratio; nothing reads as −120 dB. -/
def dbOf (x : Rat) : Rat := if x ≤ 0 then -120 else 10 * log10Q x

/-- The LQI of an SNR in dB (05 R150, 07 R223): min(255, max(0, round(6 × (s + 4)))). -/
def lqiDb (d : Rat) : Nat := (clampInt 0 255 (roundNear 150 (6 * (d + 4)))).toNat

-- Complex values.

def cx (r : Rat) : Cx := ⟨r, 0⟩
def cAdd (a b : Cx) : Cx := ⟨a.re + b.re, a.im + b.im⟩
def cSub (a b : Cx) : Cx := ⟨a.re - b.re, a.im - b.im⟩
def cMul (a b : Cx) : Cx := ⟨a.re * b.re - a.im * b.im, a.re * b.im + a.im * b.re⟩
def cConj (a : Cx) : Cx := ⟨a.re, -a.im⟩
def cScale (r : Rat) (a : Cx) : Cx := ⟨r * a.re, r * a.im⟩
/-- |a|². -/
def cNorm (a : Cx) : Rat := a.re * a.re + a.im * a.im
def cDiv (a b : Cx) : Cx := cScale (1 / cNorm b) (cMul a (cConj b))
def cSum (l : List Cx) : Cx := l.foldl cAdd ⟨0, 0⟩
def rSum (l : List Rat) : Rat := l.foldl (· + ·) 0
/-- The mean of a list; 0 for none. -/
def rMean (l : List Rat) : Rat := if l.isEmpty then 0 else rSum l / l.length
/-- e^{j2πx}. -/
def cis (x : Rat) : Cx := ⟨cosTurn x, sinTurn x⟩
/-- a × b* summed. -/
def cDot (a b : List Cx) : Cx := cSum (List.zipWith (fun x y => cMul x (cConj y)) a b)

/-- The angle, in turns from 0 to 1/4, of a value whose parts are not negative: 44 steps of bisection. -/
def argQuarter (z : Cx) : Rat :=
  if z.im = 0 then 0 else if z.re = 0 then 1 / 4
  else
    near 7 (z.im / z.re) ((List.range 44).foldl (fun (a : Rat × Rat) _ =>
      let t := a.1 + a.2
      if z.re * sinTurn t ≤ z.im * cosTurn t then (t, a.2 / 2) else (a.1, a.2 / 2)) (0, 1 / 8)).1

/-- The angle of a value in turns, above −1/2 up to 1/2; 0 for zero. -/
def argTurn (z : Cx) : Rat :=
  if 0 ≤ z.re then (if 0 ≤ z.im then argQuarter z else -argQuarter (cConj z))
  else if 0 ≤ z.im then 1 / 2 - argQuarter ⟨-z.re, z.im⟩ else argQuarter ⟨-z.re, -z.im⟩ - 1 / 2

/-- A row less a multiple of another. -/
def rowSub (a : List Cx) (f : Cx) (b : List Cx) : List Cx := List.zipWith (fun x y => cSub x (cMul f y)) a b

/-- The solution of a linear system given as rows [A | b], by elimination; A is Hermitian with a positive diagonal, so no
pivoting is needed. -/
def solveCx (rows : List (List Cx)) : List Cx :=
  let n := rows.length
  let m := (List.range n).foldl (fun (m : List (List Cx)) i =>
    let p := (m.getD i []).map (fun x => cDiv x ((m.getD i []).getD i ⟨1, 0⟩))
    (List.range n).map (fun j => if j = i then p else rowSub (m.getD j []) ((m.getD j []).getD i ⟨0, 0⟩) p)) rows
  m.map (fun r => r.getD n ⟨0, 0⟩)

-- Sample words (03 R67).

/-- A code of the 14-bit converters. -/
def adcCode (x : Int) : Int := clampInt (-8192) 8191 x

/-- The receive word of a sample: the code, TX_ACTIVE, and OVER at either end of the range (03 R67). -/
def rxWord (x : Int) (tx : Bool) : Nat :=
  4 * toBits 14 (adcCode x) + 2 * b2n tx + b2n (adcCode x == -8192 || adcCode x == 8191)

/-- The parts of a receive word. -/
def wordCode (w : Nat) : Int := signedOf 14 (w / 4)
def wordTx (w : Nat) : Bool := nbit w 1
def wordOver (w : Nat) : Bool := nbit w 0

/-- Sample k before the newest of a list that begins with the newest; what the list does not hold reads zero. -/
def backCode (xs : List Int) (k : Nat) : Int := adcCode (xs.getD k 0)

/-- A stream at a position that need not be whole, counted back from its newest sample: the fractional resampler, whose
filter the manual does not give (log 118). -/
def backAt (xs : List Int) (pos : Rat) : Rat :=
  if pos.den = 1 then (if pos < 0 then 0 else backCode xs pos.num.toNat) else Config.interpolate xs pos

end Sys2Proof.Machine
end

