-- ==== Sys2Proof/Machine/Ports.lean ====
section
/-!
DEFINITION. The line ports (03) and their shaping banks (04 R114 to R118): checks and soundings, clamps, gain control,
leaving and entering service, and the commands of both chapters that concern one port.
-/
namespace Sys2Proof.Machine

/-- PORT_CFG.COUPLER (03). -/
def coupler (s : State) (p : Nat) : Nat := objF s (pf p) 0x400 31 30

/-- PORT_CFG.PROFILE: 1 for the low-band profile. -/
def profileLow (s : State) (p : Nat) : Bool := objF s (pf p) 0x400 29 29 == 1

/-- Event source of port p (02 R58). -/
def psrc (p : Nat) : Nat := 20 + p

/-- The TB from which the loopbacks and tones of a port run, where its start-up checks have come to them or a PORT_SOUND runs:
in start-up checks after the mains check, port by port (R75, R77). -/
def loopFrom (s : State) (p : Nat) : Option Nat :=
  let k := portOf s p
  if k.checking.isSome then
    if (List.range p).any (fun q => (portOf s q).checking.isSome) then none else some k.turn
  else if k.testRunning && (findDeferred 0x401 (pf p) s).isSome then some k.testAt.toNat
  else none

/-- The TB from which the driver loopback and the tones make the driver active (R75). DESIGN CHOICE (log 149): the driver
loopback is the second of the 2 ms of the loopbacks. -/
def soundFrom (s : State) (p : Nat) : Option Nat :=
  match loopFrom s p with
  | some t => if t + 400000 ≤ now s then some (t + 400000) else none
  | none => none

/-- The driver is active for a layer. -/
def layerOn (s : State) (p : Nat) : Bool := (portOf s p).bbOn || (portOf s p).nbOn

/-- The driver is active (R68, R75). -/
def driverOn (s : State) (p : Nat) : Bool := layerOn s p || (soundFrom s p).isSome

/-- A fade that runs or waits completes at once (04 R116); the device gives bank B back when its fade to A ends. -/
def fadeDone (p : Nat) (s : State) : State :=
  let s := setPort p (fun k => { k with fadeAt := none, fadeWait := false }) s
  let s := setF (pf p) 0x503 30 30 0 s
  if objF s (pf p) 0x503 31 31 = 0 ∧ (portOf s p).recovery = some 0 then
    setF (pf p) 0x503 13 13 0 (setPort p (fun k => { k with recovery := none }) s)
  else s

/-- Make the driver of a port active or idle for a layer; TX_ON follows (R68, 04 R116). A driver turned off under R70
stays off. -/
def setDriver (p : Nat) (nb on : Bool) (s : State) : State :=
  let on := on && !(portOf s p).clampOff
  let was := layerOn s p
  let s := setPort p (fun k => if nb then { k with nbOn := on } else { k with bbOn := on }) s
  let t := now s
  let s := if layerOn s p = was then s
    else setPort p (fun k => if was then { k with runs := (k.onAt, t) :: k.runs } else { k with onAt := t }) s
  let s := setF (pf p) 0x403 20 20 (b2n (driverOn s p)) s
  if driverOn s p then s else if (portOf s p).fadeAt.isSome || (portOf s p).fadeWait then fadeDone p s else s

/-- The driver was active at some instant from a up to b: samples of that time carry TX_ACTIVE (R67, R69). -/
def txIn (s : State) (p a b : Nat) : Bool :=
  let k := portOf s p
  layerOn s p && decide (k.onAt < b) || k.runs.any (fun r => decide (r.1 < b) && decide (a < r.2))
    || (match soundFrom s p with | some t => decide (t < b) | none => false)

/-- The receive word of sample k before the newest of a port (R67). -/
def rxAt (s : State) (p : Nat) (xs : List Int) (k : Nat) : Nat :=
  let t := now s - 2 * k
  rxWord (xs.getD k 0) (txIn s p t (t + 1))

/-- The PGA takes a gain; the step is tagged for the narrowband down-converters (R72, R73). -/
def setPga (p gain : Nat) (s : State) : State :=
  let old := objF s (pf p) 0x403 19 14
  let t := now s
  if old = gain then s
  else setF (pf p) 0x403 19 14 gain (setPort p (fun k => { k with pgaSteps := (t, old, gain) :: k.pgaSteps }) s)

/-- The PGA code of a port at an instant (R73). -/
def pgaAt (s : State) (p t : Nat) : Nat :=
  let l := (portOf s p).pgaSteps
  match l.find? (fun e => decide (e.1 ≤ t)), l.getLast? with
  | some e, _ => e.2.2
  | none, some e => e.2.1
  | none, none => objF s (pf p) 0x403 19 14

/-- The RMS level of codes in dB below or above full scale, on the scale of 04 R113: against the amplitude of full scale. -/
def levelDb (xs : List Int) : Rat := dbOf (rMean (xs.map (fun x => (adcCode x * adcCode x : Int) / (8192 * 8192 : Rat))))

/-- The driver turns off at once (R70); an activity of the checks is over. -/
def driverOff (p : Nat) (s : State) : State :=
  let t := now s
  let s := match soundFrom s p with
    | some a => setPort p (fun k => { k with runs := (a, t) :: k.runs }) s
    | none => s
  setDriver p true false (setDriver p false false s)

/-- Load a preset into a bank (04 R117). -/
def loadPreset (p : Nat) (bankB : Bool) (id : Nat) (s : State) : State :=
  let s := setPort p (fun k => if bankB then { k with coefB := [] } else { k with coefA := [] }) s
  if bankB then setF (pf p) 0x503 16 14 id s else setF (pf p) 0x503 19 17 id s

/-- The device takes bank B with a preset while the driver is idle (04 R118). -/
def takeBankB (p id : Nat) (s : State) : State :=
  if objF s (pf p) 0x502 28 28 = 1 then
    setF (pf p) 0x503 13 13 1 (setF (pf p) 0x503 31 31 1 (loadPreset p true id s))
  else s

/-- The device gives bank B back at the end of a test (04 R118). -/
def giveBankB (p : Nat) (s : State) : State :=
  if objF s (pf p) 0x503 13 13 = 1 then
    setF (pf p) 0x503 13 13 0 (setF (pf p) 0x503 31 31 0 (setPort p (fun k => { k with recovery := none }) s))
  else s

/-- The checks or the test of a port are over: its driver is idle and bank A shapes (R75, 04 R118). -/
def portRests (p : Nat) (s : State) : State :=
  setPort p (fun k => { k with checking := none, testRunning := false, testWaiting := false }) (giveBankB p (driverOff p s))

/-- The fade length L in samples (04 R115). -/
def fadeLength (s : State) (p : Nat) : Nat := 256 * 2 ^ objF s (pf p) 0x502 31 29

/-- alpha of 04 R115, the share of the target bank, after q of L samples. -/
def fadeShare (q l : Nat) : Rat := (1 - cosTurn ((min q l : Nat) / (2 * l : Rat))) / 2

/-- A fade begins now (04 R115). -/
def fadeBegin (p : Nat) (s : State) : State :=
  let l := fadeLength s p
  let t := now s
  setF (pf p) 0x503 30 30 1 (setPort p (fun k => { k with fadeAt := some t, fadeLen := l, fadeWait := false }) s)

/-- The shaping output moves to a bank (04 R115). -/
def swapTo (p bank : Nat) (s : State) : State :=
  let s := setF (pf p) 0x503 31 31 bank s
  if !driverOn s p then s
  else if (portOf s p).bbOn then setPort p (fun k => { k with fadeWait := true }) s
  else fadeBegin p s

/-- A node that is served has its only usable link on port p (01 R23, condition of a line port path): STATE ACTIVE and the
usable-port mask of its entry (08 R256). -/
def soleNode (s : State) (p : Nat) : Bool :=
  s.mem.any (fun e => decide (0x500040 ≤ e.1 ∧ e.1 < 0x540000) && e.1 % 64 == 11 && e.2.toNat % 64 == 2 ^ p
    && (memByte s (e.1 - 3)).toNat / 32 == 2)

/-- A cause is detected for which a port leaves SERVICE (R83). Where the new state is FAILED, STATE reads it at once (18,
worked example of a lost driver supply) and its driver is off; a port that contributed receives until the superframe start.
A fault, as against the command, that takes a node's only usable link is outside the guarantee (01 R23, R28). -/
def losePortFrom (src p cause newSt : Nat) (s : State) : State :=
  let ev := fun s =>
    let s := raise src (pf p) .faultPort (beBytes 1 cause ++ beBytes 1 newSt) s
    if cause ≠ 0xB ∧ soleNode s p then raise src (pf p) .faultUnabsorbed (beBytes 1 (pf p)) s else s
  if inService s p then
    if (match (portOf s p).move with | some (.leave _) => true | _ => false) && newSt ≠ 5 then s
    else
      let s := if newSt = 5 then setF (pf p) 0x403 31 28 5 (driverOff p s) else s
      ev (setF (pf p) 0x403 27 24 cause (setPort p (fun k => { k with move := some (.leave (BitVec.ofNat 4 newSt)) }) s))
  else if newSt = 5 then
    ev (setF (pf p) 0x403 31 28 5 (setF (pf p) 0x403 27 24 cause (setPort p (fun k => { k with move := none }) (portRests p s))))
  else s

/-- A port is lost by a cause of its own. -/
def losePort (p cause newSt : Nat) (s : State) : State := losePortFrom (psrc p) p cause newSt s

/-- The clamp limit of a superframe (R70): CLAMP_MAX × 4, 0 acting as 1. -/
def clampLimit (s : State) (p : Nat) : Nat := 4 * max 1 (objF s (pf p) 0x402 18 11)

/-- The driver turns off under R70 and stays off while the port is still in SERVICE. -/
def clampOff (p : Nat) (s : State) : State :=
  let svc := inService s p
  setPort p (fun k => { k with clampOff := svc }) (driverOff p s)

/-- A clamp episode ends (R70). -/
def execClampEpisodeEnd (p : Fin 6) (s : State) : Host.Outcome State Fault Refusal :=
  .next (if funcDown s (pf p.val) then s
    else
      let s := bumpF (pf p.val) 0x404 31 16 1 s
      let s := setPort p.val (fun k => { k with clamps := k.clamps + 1 }) s
      if clampLimit s p.val < (portOf s p.val).clamps then losePort p.val 6 3 (clampOff p.val s) else s)

/-- A single clamp episode lasts longer than 100 µs (R70). -/
def execClampTimeout (p : Fin 6) (s : State) : Host.Outcome State Fault Refusal :=
  .next (if funcDown s (pf p.val) then s
    else losePort p.val 6 3 (clampOff p.val (bumpF (pf p.val) 0x404 31 16 1 s)))

/-- A port unit fails (R83, 01 R13). -/
def execPortUnitFault (p : Fin 6) (unit : Fin 4) (err : BitVec 8) (s : State) : Host.Outcome State Fault Refusal :=
  let f := pf p.val
  let o := 0x10 + unit.val
  .next (if funcDown s f then s
    else
      let s := setF f o 31 28 4 (setF f o 15 8 err.toNat (bumpF f o 23 16 1 s))
      losePort p.val 8 5 s)

/-- PGA_MAN as the device uses it: 49 to 63 act as 48 (03). -/
def pgaMan (s : State) (p : Nat) : Nat := min 48 (objF s (pf p) 0x402 30 25)

/-- AGC_TARGET as the device uses it: 6 to 30 (03). -/
def agcTarget (s : State) (p : Nat) : Nat := min 30 (max 6 (objF s (pf p) 0x402 24 19))

/-- The PGA code that brings the level of some codes to AGC_TARGET, in steps of 1 dB (R72). -/
def agcWant (s : State) (p : Nat) (xs : List Int) : Int :=
  objF s (pf p) 0x403 19 14 + roundNear 72 (-(agcTarget s p : Rat) - levelDb xs)

/-- One AGC step (R72): the level over the last 100 µs, 20 000 samples, moves the PGA by at most 1 dB towards AGC_TARGET;
with AGC_EN clear the PGA stays at PGA_MAN. -/
def execAgcUpdate (p : Fin 6) (rx : List Int) (s : State) : Host.Outcome State Fault Refusal :=
  let f := pf p
  .next (if funcDown s f then s
    else if objF s f 0x402 31 31 = 0 then setPga p.val (pgaMan s p.val) s
    else if (portOf s p.val).pgaHeld then s
    else
      let g : Int := objF s f 0x403 19 14
      setPga p.val (clampInt 0 48 (clampInt (g - 1) (g + 1) (agcWant s p.val (rx.take 20000)))).toNat s)

/-- Automatic readmissions of a port in the last 60 minutes (R84). -/
def recentAdmits (s : State) (p : Nat) : Nat :=
  ((portOf s p).readmits.filter (fun t => decide (now s < t.toNat + 1440000000000))).length

/-- Readmissions older than 60 minutes no longer count (R84). -/
def execReadmitPeriodEnd (s : State) : Host.Outcome State Fault Refusal :=
  .next ((List.range 6).foldl (fun s p =>
    let l := (portOf s p).readmits.filter (fun t => decide (now s < t.toNat + 1440000000000))
    setF (pf p) 0x403 5 4 (min 3 l.length) (setPort p (fun k => { k with readmits := l }) s)) s)

/-- Tracking has a superframe timing: ports may check and transmit (R75, 02 R49). -/
def mayTransmit (s : State) : Bool := s.clk.lockSeen && decide (s.clk.track ≠ .acquire)

/-- A port begins its start-up checks (R75): OFF, coupler fitted, both domains up. -/
def execPortStartupChecks (p : Fin 6) (s : State) : Host.Outcome State Fault Refusal :=
  .next (if mayTransmit s && !funcDown s (pf p.val) && portState s p.val == 0 && coupler s p.val != 0
        && decide (lifeCycle s ≠ 4) then
      let t := s.clk.tb
      let turn := now s + 2 * s.clk.p / 256
      takeBankB p.val 0 (setF (pf p.val) 0x403 31 28 1 (setPort p.val (fun k => { k with checking := some t, turn := turn }) s))
    else s)

/-- Points that are not tested (R76): below the coupler's low edge, and 13 to 15 in the low-band profile. -/
def skippedPoints (coup : Nat) (low : Bool) : List Nat :=
  (if coup = 1 then [0, 1] else if coup = 3 then [0, 1, 2] else []) ++ (if low then [13, 14, 15] else [])

/-- Lower limit of a point in 0.1 Ω (R76). -/
def zLow (k : Nat) : Nat := if k < 8 then 1 else 10

/-- The result of the sounding (R76): 0 PASS, 2 OPEN, 3 SHORT, 6 RANGE, and the points out of limits. -/
def soundResult (tested : List Nat) (z : Nat → Nat) : Nat × List Nat :=
  let out := tested.filter (fun k => decide (z k < zLow k) || decide (2000 < z k))
  let high := (tested.filter (fun k => decide (2000 < z k))).length
  let short := (tested.filter (fun k => decide (z k < zLow k))).length
  let n := tested.length
  (if out.length ≤ 2 then 0 else if 3 * n ≤ 4 * high then 2 else if 3 * n ≤ 4 * short then 3 else 6, out)

/-- The sounding record and its result (03, sounding record). Checks stop at the first that fails; fields of checks that
did not run read zero. -/
def soundRecord (s : State) (p : Nat) (m : SoundMeas) (doSound : Bool) (start : W64) : Nat × Bytes :=
  let coup := coupler s p
  let hd := fun (res skip out : Nat) (z : Bytes) (c : Bytes) =>
    (res, beBytes 1 res ++ beBytes 1 coup ++ beBytes 2 (min m.mainsMv 0xFFFF) ++ beBytes 2 skip ++ beBytes 2 out
      ++ slice z 0 64 ++ slice c 0 6 ++ [0, 0] ++ beBytes 8 start.toNat)
  let good := fun (e : Vector Int 2) => e.toList.all (fun x => decide (x.natAbs ≤ 100))
  if 1000 < m.mainsMv then hd 1 0 0 [] []
  else if !good m.rxErr then hd 5 0 0 [] []
  else if !good m.drvErr then hd 4 0 0 [] []
  else if !doSound then hd 0 0 0 [] []
  else
    let skip := skippedPoints coup (profileLow s p)
    let zk := fun k => (m.z.toList.getD k (0, 0))
    let tested := (List.range 16).filter (fun k => !skip.contains k)
    let r := soundResult tested (fun k => (zk k).1)
    let z := (List.range 16).flatMap (fun k =>
      if skip.contains k then [0, 0, 0, 0] else beBytes 2 (min (zk k).1 0xFFFF) ++ beBytes 2 (toBits 16 (zk k).2))
    let c := (List.range 6).map (fun k => if k = p then (0 : Byte) else m.coupling.toList.getD k 0)
    hd r.1 (portMask skip) (portMask r.2) z c

/-- The CAUSE that a result of the checks gives (03, PORT_STATUS). -/
def causeOf (res : Nat) : Nat := if res = 6 then 0xC else res

/-- What a finished check or sounding leaves (R76): its record, and the ratios of the driver loopback where that ran
(04 R110). -/
def checkOutcome (p res : Nat) (rec : Bytes) (m : SoundMeas) (s : State) : State :=
  let r := fun i => let e := m.drvRatio.toList.getD i (0, 0); (⟨e.1, e.2⟩ : Cx)
  let s := setPort p (fun k =>
    if res = 1 ∨ res = 5 then { k with sound := some rec } else { k with sound := some rec, loop1 := r 0, loop50 := r 1 }) s
  if res = 0 then s
  else
    let s := bumpF (pf p) 0x404 7 0 1 s
    let s := setF (pf p) 0x403 31 28 5 (setF (pf p) 0x403 27 24 (causeOf res) s)
    raise (psrc p) (pf p) .portCheckFail (beBytes 1 res) s

/-- The Sieve of a port for a channel takes a synchronising reset: the first sample from now on is its input sample 0
(07 R210). -/
def sieveZero (p ch : Nat) (s : State) : State :=
  let t := now s + now s % 2
  { s with nb := { s.nb with
      resetTb := vSet s.nb.resetTb (8 * p + ch) t
      resetPga := vSet s.nb.resetPga (8 * p + ch) (objF s (pf p) 0x403 19 14) } }

/-- The narrowband Sieves of a port take a synchronising reset (07 R211). -/
def sieveReset (p : Nat) (s : State) : State := (List.range 8).foldl (fun s ch => sieveZero p ch s) s

/-- Input samples before the first clean fine output has followed, by the ORDER of a channel's configuration (07 R210). -/
def settleSamples (cfg : W32) : Nat :=
  (if fget cfg 8 7 = 0 then 26 else 28) * (2560 / 2 ^ fget cfg 12 11)

/-- The port has reached a fine output without SETTLE on a channel under a configuration (07 R211). -/
def nbClean (s : State) (p ch : Nat) (cfg : W32) : Bool :=
  decide (vAt s.nb.resetTb (8 * p + ch) + 2 * (settleSamples cfg - 1) ≤ now s)

/-- A port that enters SERVICE before its Sieves are clean takes its group's idle channels back to SETTLE (07 R211). -/
def settleGroup (p : Nat) (s : State) : State :=
  { s with nb := { s.nb with rx := (List.range 8).foldl (fun v ch =>
      let i := 8 * groupOf s p + ch
      let x := vAt v i
      if x.ph = .idle ∧ !nbClean s p ch x.cfg then vSet v i { x with ph := .settle } else v) s.nb.rx } }

/-- The loopbacks and tones of the ports after port p begin no earlier than now (R77). -/
def turnsNext (p t : Nat) (s : State) : State :=
  { s with port := Vector.ofFn (fun i => let k := vAt s.port i.val; if p < i.val then { k with turn := max k.turn t } else k) }

/-- A port's start-up checks end (R75 to R77). A port that passes enters SERVICE at a superframe start. -/
def execPortChecksDone (p : Fin 6) (m : SoundMeas) (s : State) : Host.Outcome State Fault Refusal :=
  .next (match (portOf s p.val).checking with
    | none => s
    | some start =>
      let r := soundRecord s p.val m (objF s (pf p.val) 0x400 26 26 == 1) start
      let t := now s
      let s := sieveReset p.val (portRests p.val s)
      let s := setPort p.val (fun k => { k with move := if r.1 = 0 then some .enter else none }) s
      checkOutcome p.val r.1 r.2 m (turnsNext p.val t s))

/-- FAILED with a cause that needs a per-function reset first (R85). -/
def needsReset (s : State) (p : Nat) : Bool :=
  let c := objF s (pf p) 0x403 27 24
  portState s p == 5 && (c == 8 || c == 9 || c == 0xA)

/-- PORT_SOUND and BB_TX_TEST are refused in SERVICE, in CHECK, in ACQUIRE, and in FAILED with a cause that needs a reset
(R85, 03 commands). -/
def testRefused (s : State) (p : Nat) : Bool :=
  let st := portState s p
  st == 2 || st == 1 || decide (s.clk.track = .acquire) || needsReset s p

/-- The FUNC of a request names a line port. -/
def portFunc (r : Req) : Bool := decide (0x10 ≤ r.func.toNat ∧ r.func.toNat ≤ 0x15)

/-- The port of a request. -/
def reqPort (r : Req) : Nat := r.func.toNat - 0x10

/-- PORT_SOUND (R85, R86): deferred; it starts at the next slot start. A port in FAILED after a trip of its domains is
refused with NOT_IN_STATE. -/
def execPortSound (r : Req) (s : State) : Host.Outcome State Fault Refusal :=
  .next (execReq 0x401 r (portFunc r) (lenIs r 0) (funcDown s r.func.toNat && !needsReset s (reqPort r))
    (fun s =>
      if testRefused s (reqPort r) then refuse stNotInState noField s
      else deferIf r [] s (setPort (reqPort r) (fun k => { k with testWaiting := true }))) s)

/-- A requested sounding ends (R85, R76). -/
def execPortSoundDone (p : Fin 6) (m : SoundMeas) (s : State) : Host.Outcome State Fault Refusal :=
  .next (match findDeferred 0x401 (pf p.val) s with
    | none => s
    | some d =>
      let r := soundRecord s p.val m true (portOf s p.val).testAt
      let s := portRests p.val s
      let t := s.clk.tb
      let s := setPort p.val (fun k => { k with passTb := if r.1 = 0 then some t else k.passTb }) s
      finish d stDone r.2 (checkOutcome p.val r.1 r.2 m s))

/-- PORT_SOUND_READ. -/
def execPortSoundRead (r : Req) (s : State) : Host.Outcome State Fault Refusal :=
  .next (execReq 0x402 r (portFunc r) (lenIs r 0) (funcDown s r.func.toNat)
    (fun s => match (portOf s (reqPort r)).sound with
      | some b => .reply stDone b s
      | none => refuse stNoResource noField s) s)

/-- PORT_ADMIT (R85): a PORT_SOUND passed within the preceding 60 s, and no reset is needed first. -/
def execPortAdmit (r : Req) (s : State) : Host.Outcome State Fault Refusal :=
  .next (execReq 0x404 r (portFunc r) (lenIs r 0) (funcDown s r.func.toNat)
    (fun s =>
      let p := reqPort r
      let st := portState s p
      let ok : Bool := match (portOf s p).passTb with
        | some t => decide (now s ≤ t.toNat + 24000000000)
        | none => false
      if (st = 3 ∨ st = 4 ∨ st = 5) ∧ ok ∧ needsReset s p = false then
        .reply stAccepted [] (setPort p (fun k => { k with move := some .admitReq }) s)
      else refuse stNotInState noField s) s)

/-- A port enters SERVICE (R77, R84, R85); after a clamp removal with bank B in RECOVERY (04 R118). -/
def enterService (p : Nat) (s : State) : State :=
  let clamp := (portOf s p).clampLeft
  let s := setF (pf p) 0x403 31 28 2 (setF (pf p) 0x403 27 24 0 s)
  let s := settleGroup p (setPort p (fun k => { k with collapseRun := 0, readmitRun := 0, clampOff := false, clampLeft := false }) s)
  if clamp ∧ objF s (pf p) 0x502 28 28 = 1 then
    setPort p (fun k => { k with recovery := some 4 }) (takeBankB p 3 s)
  else s

/-- The port change that falls due at a superframe start (R77, R83 to R85). Ports that passed their start-up checks wait
until no port is still in its checks (R77). -/
def portMoveDue (p : Nat) (s : State) : State :=
  let clear := setPort p (fun k => { k with move := none })
  match (portOf s p).move with
  | none => s
  | some (.leave st) =>
    let clamp := decide (objF s (pf p) 0x403 27 24 = 6)
    setPort p (fun k => { k with clampOff := false, clampLeft := clamp })
      (clear (bumpF (pf p) 0x404 15 8 1 (setF (pf p) 0x403 31 28 st.toNat s)))
  | some .admitReq => clear (setPort p (fun k => { k with noAuto := false }) (enterService p s))
  | some .enter =>
    if (List.range 6).any (fun q => (portOf s q).checking.isSome) then s else clear (enterService p s)
  | some .readmit =>
    let t := s.clk.tb
    let s := setPort p (fun k => { k with readmits := t :: k.readmits, noAuto := decide (2 ≤ recentAdmits s p) })
      (enterService p s)
    let s := setF (pf p) 0x403 5 4 (min 3 (portOf s p).readmits.length) s
    raise (psrc p) (pf p) .portRestored [] (clear s)

/-- All port changes of a superframe start. -/
def portMovesDue (s : State) : State := (List.range 6).foldl (fun t p => portMoveDue p t) s

/-- Insert into a sorted list of numbers. -/
def insNat (a : Nat) : List Nat → List Nat
  | [] => [a]
  | b :: t => if a ≤ b then a :: b :: t else b :: insNat a t

/-- A list of numbers in order. -/
def sortNat (l : List Nat) : List Nat := l.foldl (fun a x => insNat x a) []

/-- The median of R82: the mean of the two middle values, rounded down, for an even number of values. -/
def median (l : List Nat) : Nat :=
  let m := sortNat l
  let n := m.length
  if n = 0 then 0 else if n % 2 = 1 then m.getD (n / 2) 0 else (m.getD (n / 2 - 1) 0 + m.getD (n / 2) 0) / 2

/-- LQI_MIN, COLLAPSE_MARGIN and COLLAPSE_SF in force (03, GROUP_CTRL). -/
def lqiMin (s : State) : Nat := objF s 0 0x410 29 22
def collMargin (s : State) : Nat := objF s 0 0x410 21 14
def collSf (s : State) : Nat := max 1 (objF s 0 0x410 13 11)

/-- Evaluation of one port for the superframe just ended (R82, R84). -/
def evalPort (p : Nat) (s : State) : State :=
  let g := groupOf s p
  let others := (svcPorts s g).filter (fun q => q != p)
  let mine := median (portOf s p).lqis
  let all := others.flatMap (fun q => (portOf s q).lqis)
  let theirs := median all
  -- a superframe in which the port or its group measured no frame has no median
  let known := !(portOf s p).lqis.isEmpty && !all.isEmpty
  if inService s p then
    if !known then setPort p (fun k => { k with collapseRun := 0 }) s
    else if mine < lqiMin s ∧ lqiMin s + collMargin s ≤ theirs then
      let s := setPort p (fun k => { k with collapseRun := k.collapseRun + 1 }) s
      if collSf s ≤ (portOf s p).collapseRun then losePort p 7 3 s else s
    else setPort p (fun k => { k with collapseRun := 0 }) s
  else if portState s p = 3 ∧ objF s 0 0x410 10 10 = 1 then
    let d := if mine ≤ theirs then theirs - mine else mine - theirs
    if 2 * d ≤ collMargin s ∧ known then
      let s := setPort p (fun k => { k with readmitRun := k.readmitRun + 1 }) s
      if 4 ≤ (portOf s p).readmitRun ∧ recentAdmits s p < 3 ∧ (portOf s p).noAuto = false then
        setPort p (fun k => { k with move := some .readmit }) s
      else s
    else setPort p (fun k => { k with readmitRun := 0 }) s
  else s

/-- The recovery of 04 R118 counts superframes in SERVICE, then fades to bank A. -/
def recoveryStep (p : Nat) (s : State) : State :=
  match (portOf s p).recovery with
  | some (n + 1) =>
    if inService s p then
      let s := setPort p (fun k => { k with recovery := some n }) s
      if n = 0 then
        let s := swapTo p 0 s
        if (portOf s p).fadeAt.isSome || (portOf s p).fadeWait then s else fadeDone p s
      else s
    else s
  | _ => s

/-- A fade that waited begins at the guard start of a broadband symbol (04 R115). -/
def execShapeFadeStart (p : Fin 6) (s : State) : Host.Outcome State Fault Refusal :=
  .next (if (portOf s p.val).fadeWait then fadeBegin p.val s else s)

/-- A fade ends (04 R115, R118). -/
def execShapeFadeEnd (p : Fin 6) (s : State) : Host.Outcome State Fault Refusal :=
  .next (if (portOf s p.val).fadeAt.isSome then fadeDone p.val s else s)

/-- The bank that the converter's signal leaves: while a fade waits for its guard start, ACTIVE names the target and the
other bank still shapes the output (04 R115). -/
def sourceBank (s : State) (p : Nat) : Nat :=
  let b := objF s (pf p) 0x503 31 31
  if (portOf s p).fadeWait then 1 - b else b

/-- The checks that SHAPE_WRITE and SHAPE_PRESET share (04 R117, R118). -/
def shapeRefusal (s : State) (p bank : Nat) : Option W16 :=
  if objF s (pf p) 0x503 13 13 = 1 ∧ bank = 1 then some stNotInState
  else if objF s (pf p) 0x503 31 31 = bank ∨ (portOf s p).fadeAt.isSome then some stFunctionRunning
  else none

/-- Coefficient i, 0 to 127, of a bank in 2^-15 (04, shaping banks): h[127 − i] = h[i]; those of a preset are the device's. -/
def bankCoef (s : State) (p bank i : Nat) : Int :=
  let id := if bank = 1 then objF s (pf p) 0x503 16 14 else objF s (pf p) 0x503 19 17
  let h := if bank = 1 then (portOf s p).coefB else (portOf s p).coefA
  let j := if i < 64 then i else 127 - i
  if id = 7 then (h.getD j 0).toInt else (Config.presetCoef id j).toInt

/-- SHAPE_WRITE (04 R117). -/
def execShapeWrite (r : Req) (s : State) : Host.Outcome State Fault Refusal :=
  .next (execReq 0x510 r (portFunc r) (lenAnd r 132 (chk (decide (byteAt r.params 0 ≤ 1)) 0)) (funcDown s r.func.toNat)
    (fun s =>
      let p := reqPort r
      let b := byteAt r.params 0
      match shapeRefusal s p b with
      | some st => refuse st noField s
      | none =>
        let h := (List.range 64).map (fun i => BitVec.ofNat 16 (beAt r.params (4 + 2 * i) 2))
        let s := setPort p (fun k => if b = 1 then { k with coefB := h } else { k with coefA := h }) s
        .reply stDone [] (if b = 1 then setF (pf p) 0x503 16 14 7 s else setF (pf p) 0x503 19 17 7 s)) s)

/-- SHAPE_PRESET (04 R117). -/
def execShapePreset (r : Req) (s : State) : Host.Outcome State Fault Refusal :=
  .next (execReq 0x511 r (portFunc r)
    (lenAnd r 4 (firstBad (chk (decide (byteAt r.params 0 ≤ 1)) 0) (chk (decide (byteAt r.params 1 ≤ 3)) 1)))
    (funcDown s r.func.toNat)
    (fun s =>
      let p := reqPort r
      let b := byteAt r.params 0
      match shapeRefusal s p b with
      | some st => refuse st noField s
      | none => .reply stDone [] (loadPreset p (b == 1) (byteAt r.params 1) s)) s)

/-- SHAPE_SWAP (04 R115, R116, R118). One that comes while a fade still waits for its guard cancels the wait and counts no
REVERSALS: DESIGN CHOICE (log 136). -/
def execShapeSwap (r : Req) (s : State) : Host.Outcome State Fault Refusal :=
  .next (execReq 0x512 r (portFunc r) (lenIs r 0) (funcDown s r.func.toNat)
    (fun s =>
      let p := reqPort r
      let k := portOf s p
      let other := 1 - objF s (pf p) 0x503 31 31
      if objF s (pf p) 0x503 13 13 = 1 then refuse stNotInState noField s
      else match k.fadeAt with
        | some t0 =>
          let q := min k.fadeLen (now s - t0)
          let s := setPort p (fun k => { k with fadeAt := some (now s - (k.fadeLen - q)) }) s
          .reply stAccepted [] (bumpF (pf p) 0x503 12 5 1 (setF (pf p) 0x503 31 31 other s))
        | none =>
          if k.fadeWait then
            .reply stAccepted [] (setF (pf p) 0x503 31 31 other (setPort p (fun k => { k with fadeWait := false }) s))
          else .reply (if driverOn s p then stAccepted else stDone) [] (swapTo p other s)) s)

/-- SHAPE_READ: the coefficients of a bank; those of a preset are the device's (Config.presetCoef). -/
def execShapeRead (r : Req) (s : State) : Host.Outcome State Fault Refusal :=
  .next (execReq 0x513 r (portFunc r) (lenAnd r 4 (chk (decide (byteAt r.params 0 ≤ 1)) 0)) (funcDown s r.func.toNat)
    (fun s =>
      let p := reqPort r
      let b := byteAt r.params 0
      let c := (List.range 64).flatMap (fun i => beBytes 2 (toBits 16 (bankCoef s p b i)))
      .reply stDone (beBytes 1 b ++ [0, 0, 0] ++ c) s) s)

end Sys2Proof.Machine
end

