-- ==== Sys2Proof/Machine/Nodes.lean ====
section
/-!
DEFINITION. The node table (08 R256), routes, the tone-map cache (04 R106, 08 R258 to R264) and the fallback, as
operations on the Trellis bytes that hold them; the signal settings of a group (04 R88, R107).
-/
namespace Sys2Proof.Machine

/-- The superframe in progress, counted since reset. -/
def sfNow (s : State) : Nat := s.clk.sfCount

/-- Replace the link-layer record. -/
def setLk (f : LinkSt → LinkSt) (s : State) : State := { s with lk := f s.lk }

/-- The link record of a group; replace it. -/
def grpL (s : State) (g : Nat) : GrpLink := vAt s.lk.grp g
def setGrpL (g : Nat) (f : GrpLink → GrpLink) (s : State) : State :=
  setLk (fun l => { l with grp := vSet l.grp g (f (vAt l.grp g)) }) s

-- Node-table entries.

/-- The address of entry n. -/
def nodeBase (n : Nat) : Nat := 0x500000 + 64 * n

/-- The 64 bytes of an entry. -/
def nodeEntry (s : State) (n : Nat) : Bytes := if n = 0 then ownEntry else memRead s (nodeBase n) 64

/-- A number of an entry. -/
def nNat (s : State) (n off len : Nat) : Nat := if n = 0 then beAt ownEntry off len else memNat s (nodeBase n + off) len

/-- Write a number of an entry; entry 0 is fixed. -/
def nSet (n off len v : Nat) (s : State) : State := if n = 0 then s else memSetNat (nodeBase n + off) len v s

/-- Fields of an entry (R256). -/
def nEui (s : State) (n : Nat) : Nat := nNat s n 0 8
def nState (s : State) (n : Nat) : Nat := nNat s n 8 2 / 8192
def nNarrow (s : State) (n : Nat) : Bool := nbit (nNat s n 8 2) 12
def nParent (s : State) (n : Nat) : Nat := nNat s n 8 2 % 4096
def nGroup (s : State) (n : Nat) : Nat := nNat s n 10 1 / 32
def nRepeater (s : State) (n : Nat) : Bool := nbit (nNat s n 10 1) 4
def nHops (s : State) (n : Nat) : Nat := nNat s n 10 1 % 16
def nPorts (s : State) (n : Nat) : Nat := nNat s n 11 1 % 64
def nMapreq (s : State) (n : Nat) : Bool := nbit (nNat s n 12 1) 6
def nChan (s : State) (n : Nat) : Nat := nNat s n 12 1 % 8
def nFour (s : State) (n : Nat) : Bool := nbit (nNat s n 12 1) 7
def nDesc (s : State) (n : Nat) : Nat := nNat s n 13 1
def nFoff (s : State) (n : Nat) : Int := signedOf 16 (nNat s n 14 2)
def nPortQ (s : State) (n p : Nat) : Nat := nNat s n (16 + p) 1
def nLqi (s : State) (n : Nat) : Nat := nNat s n 22 1
def nDlMap (s : State) (n : Nat) : Nat := nNat s n 23 1
def nUlMap (s : State) (n : Nat) : Nat := nNat s n 24 1
def nSilent (s : State) (n : Nat) : Nat := nNat s n 25 1
def nKey (s : State) (n : Nat) : Nat := nNat s n 26 2 % 4096
def nVa (s : State) (n : Nat) : Nat := nNat s n 28 2 / 16
def nVs (s : State) (n : Nat) : Nat := nNat s n 30 2 / 16
def nVr (s : State) (n : Nat) : Nat := nNat s n 32 2 / 16
def nBacklog (s : State) (n : Nat) : Nat := nNat s n 42 2

/-- Write STATE and keep LAYER and PARENT. -/
def nSetState (n st : Nat) (s : State) : State := nSet n 8 2 (st * 8192 + nNat s n 8 2 % 8192) s

/-- Write the MAPREQ bit of a node that has an entry. -/
def nSetMapreq (n : Nat) (b : Bool) (s : State) : State :=
  let f := nNat s n 12 1
  if nState s n = 0 ∨ n = 4095 then s
  else nSet n 12 1 (f - (if nbit f 6 then 64 else 0) + (if b then 64 else 0)) s

/-- Node IDs 1 to 4094 whose entry is not FREE, rising. -/
def liveNodes (s : State) : List Nat :=
  s.mem.filterMap (fun c =>
    if 0x500040 ≤ c.1 ∧ c.1 < 0x53FFC0 ∧ c.1 % 64 = 8 ∧ c.2.toNat / 32 ≠ 0 then some ((c.1 - 0x500000) / 64) else none)

/-- The nodes in a state. -/
def nodesIn (s : State) (st : Nat) : List Nat := (liveNodes s).filter (fun n => nState s n == st)

/-- The node with an EUI-64 (R251). -/
def nodeOfEui (s : State) (e : Nat) : Option Nat :=
  if e = Config.eui.toNat then some 0 else (liveNodes s).find? (fun n => nEui s n == e)

/-- The lowest free node ID (R251). -/
def freeNode (s : State) : Option Nat :=
  let l := liveNodes s
  if l.length ≥ 4094 then none else ((List.range 4094).map (· + 1)).find? (fun n => !l.contains n)

/-- Repeaters on the path to a node, from the Garurn outward; the node itself not included (R252). -/
def pathUp (s : State) : Nat → Nat → List Nat
  | 0, _ => []
  | f + 1, n => let p := nParent s n; if p = 0 then [] else pathUp s f p ++ [p]

/-- The repeater path of a node. -/
def nodePath (s : State) (n : Nat) : List Nat := pathUp s 8 n

/-- The node that receives a burst meant for node n: the first repeater of its path, or n itself (R253). -/
def hopOf (s : State) (n : Nat) : Nat := if n = 4095 then n else (nodePath s n).headD n

/-- Every node whose path contains r. -/
def descendants (s : State) (r : Nat) : List Nat := (liveNodes s).filter (fun n => (nodePath s n).contains r)

-- Tone-map references and cache slots.

/-- Reference r = 8 × DIR + slot index of a node's MAPS: valid bit and cache slot. -/
def mapRef (s : State) (n r : Nat) : Option Nat :=
  let v := (nNat s n 44 20 >>> (150 - 10 * r)) % 1024
  if 512 ≤ v then some (v % 512) else none

/-- Write a reference. -/
def setMapRef (n r : Nat) (v : Option Nat) (s : State) : State :=
  let old := nNat s n 44 20
  let cur := (old >>> (150 - 10 * r)) % 1024
  let new := match v with | some c => 512 + c % 512 | none => 0
  nSet n 44 20 (old - cur * 2 ^ (150 - 10 * r) + new * 2 ^ (150 - 10 * r)) s

/-- The address of a cache slot. -/
def cacheBase (c : Nat) : Nat := 0x480000 + 1024 * c

/-- Fields of a cache slot (04 R106). -/
def cNode (s : State) (c : Nat) : Nat := memNat s (cacheBase c + 1008) 2 % 4096
def cIdx (s : State) (c : Nat) : Nat := memNat s (cacheBase c + 1010) 1
def cDir (s : State) (c : Nat) : Nat := memNat s (cacheBase c + 1011) 1
def cId (s : State) (c : Nat) : Nat := memNat s (cacheBase c + 1012) 1
def cFlags (s : State) (c : Nat) : Nat := memNat s (cacheBase c + 1013) 1
def cTb (s : State) (c : Nat) : Nat := memNat s (cacheBase c + 1014) 8

/-- The map version in force for a node and direction (R260). -/
def mapVersion (s : State) (n dir : Nat) : Nat := if dir = 0 then nUlMap s n else nDlMap s n

/-- A cache slot is valid (R261). -/
def cacheValid (s : State) (c : Nat) : Bool :=
  nbit (cFlags s c) 0 && cId s c == mapVersion s (cNode s c) (cDir s c) && !isPoisoned s (cacheBase c) 1024
    && decide (cId s c ≠ 0)

/-- The valid cache slot of a node for a direction and slot index. -/
def mapSlot (s : State) (n dir idx : Nat) : Option Nat :=
  match mapRef s n (8 * dir + idx) with
  | some c => if cacheValid s c && cNode s c == n && cDir s c == dir && cIdx s c == idx then some c else none
  | none => none

/-- The cache slot that holds a node's uplink map for a slot index, acknowledged or of a set still outstanding (R258). -/
def storedMap (s : State) (n idx : Nat) : Option Nat :=
  match mapRef s n idx with
  | some c => if nbit (cFlags s c) 0 && cNode s c == n && cDir s c == 0 && cIdx s c == idx && !isPoisoned s (cacheBase c) 1024
      then some c else none
  | none => none

/-- Bits per carrier of a stored map: values 13 to 15 act as 0 (04 R101). -/
def mapBits (s : State) (c k : Nat) : Nat :=
  let b := memNat s (cacheBase c + (k - 37) / 2) 1
  let v := if (k - 37) % 2 = 0 then b / 16 else b % 16
  if v ≤ 12 then v else 0

/-- Invalidate one map of a node (R265). -/
def dropMap (n dir idx : Nat) (s : State) : State :=
  match mapRef s n (8 * dir + idx) with
  | none => s
  | some c =>
    let s := memWrite (cacheBase c + 1013) [BitVec.ofNat 8 (cFlags s c / 2 * 2)] s
    setMapRef n (8 * dir + idx) none s

/-- Free every cache slot of a node: maps and pre-weights are invalid (R255, R266, R267). -/
def dropMaps (n : Nat) (s : State) : State :=
  let s := (List.range 16).foldl (fun t r =>
    match mapRef t n r with
    | some c => memWrite (cacheBase c + 1013) [0] t
    | none => t) s
  nSet n 44 20 0 s

/-- Every map and pre-weight of a node is invalidated and MAPREQ set pending (R267). -/
def refreshNode (n : Nat) (s : State) : State := nSetMapreq n true (dropMaps n s)

/-- The slot indices of slots a to b. -/
def slotIdxs (a b : Nat) : List Nat := (((List.range 16).filter (fun t => decide (a ≤ t ∧ t ≤ b))).map (· % 8)).eraseDups

/-- Cache slots named by a burst of the current or next superframe (R264): those of each negotiated grant's node, direction and
slot indices. -/
def namedSlots (s : State) : List Nat :=
  (List.range 6).flatMap (fun g =>
    ((grpL s g).cur ++ (grpL s g).next).flatMap (fun a =>
      if a.map = 2 then (slotIdxs a.first a.last).filterMap (fun i => mapRef s a.node.toNat (8 * b2n (a.kind == 1) + i)) else []))

/-- The oldest of some cache slots. -/
def oldestSlot (s : State) (l : List Nat) : Option Nat :=
  l.foldl (fun a c => match a with
    | none => some c
    | some b => if cTb s c < cTb s b then some c else some b) none

/-- The victim for a new map of node n (R264): the slot and whether it is a valid slot of an ACTIVE node. -/
def cacheVictim (s : State) (n : Nat) : Option (Nat × Bool) :=
  let mine := fun c => cNode s c == n && decide (cFlags s c ≠ 0)
  let cs := (List.range 512).filter (fun c => !mine c)
  match cs.find? (fun c => !cacheValid s c) with
  | some c => some (c, false)
  | none =>
    match cs.find? (fun c => nState s (cNode s c) != 2) with
    | some c => some (c, false)
    | none =>
      let named := namedSlots s
      (oldestSlot s (cs.filter (fun c => !named.contains c))).map (fun c => (c, true))

/-- Store one map in the cache (R258, R259, R264): the cache slot, where one could be had. -/
def storeMap (n dir idx id : Nat) (map : Bytes) (s : State) : State × Option Nat :=
  match cacheVictim s n with
  | none => (s, none)
  | some (c, hit) =>
    let v := cNode s c
    let r := 8 * cDir s c + cIdx s c
    -- the victim's reference is cleared, the eviction counted and reported
    let s := if mapRef s v r = some c then setMapRef v r none s else s
    let s := if hit then
        let s := bumpF 0 0x70A 7 0 1 s
        if s.lk.cacheSaid then s
        else raise 75 0 .tonemapCacheFull (beBytes 2 n) (setLk (fun l => { l with cacheSaid := true }) s)
      else s
    let m := (slice map 0 864).map (fun b =>
      let hi := if b.toNat / 16 ≤ 12 then b.toNat / 16 else 0
      let lo := if b.toNat % 16 ≤ 12 then b.toNat % 16 else 0
      BitVec.ofNat 8 (16 * hi + lo))
    let w := m ++ List.replicate 144 0 ++ beBytes 2 n ++ beBytes 1 idx ++ beBytes 1 dir ++ beBytes 1 id ++ [1]
      ++ beBytes 8 s.clk.tb.toNat ++ [0, 0]
    (memWrite (cacheBase c) w s, some c)

-- Signal settings.

/-- A group's profile (04 R88): low when any of its ports in SERVICE is set to it. -/
def lowBand (s : State) (g : Nat) : Bool := (svcPorts s g).any (fun p => profileLow s p)

/-- MASK_SEL and the loaded mask give the effective mask (04 R107). -/
def maskedBy (sel : Nat) (loaded : Bytes) (k : Nat) : Bool :=
  (nbit sel 0 && presetMasked k) || (nbit sel 1 && nbit (byteAt loaded ((k - 37) / 8)) (7 - (k - 37) % 8))

/-- The effective mask in force. -/
def masked (s : State) (k : Nat) : Bool := maskedBy (objF s 0 0x500 10 9) s.bb.mask k

/-- The 216 bytes of the effective mask, in the BB_MASK_WRITE layout. -/
def maskBytes (s : State) : Bytes :=
  (List.range 216).map (fun i => BitVec.ofNat 8 ((List.range 8).foldl (fun a j => 2 * a + b2n (masked s (37 + 8 * i + j))) 0))

/-- Samples of a GI code (04 R100). -/
def giSamples (gi : Nat) : Nat := if gi = 0 then 256 else if gi = 1 then 512 else 1024

/-- RAMP in samples (04, BB_CFG). -/
def rampSamples (v : W32) : Nat := let r := fget v 15 14; if r = 0 then 64 else if r = 1 then 128 else 256

/-- SLOT_LEAD and SLOT_TAIL in ticks: no less than the ramp (04, BB_CFG). -/
def leadTicks (v : W32) : Nat := max (400 * fget v 31 24) (2 * rampSamples v)
def tailTicks (v : W32) : Nat := max (400 * fget v 23 16) (2 * rampSamples v)

/-- 1 + Δ × 10^-8, in units of 10^-8 (04 R111). -/
def gridScale (pre : Int) : Nat := (100000000 + pre).toNat

/-- The instant of the guard of payload symbol i of a burst at t0, its sample grid scaled for an offset in 0.01 ppm (04 R89,
R111). -/
def symStart (pre : Int) (t0 gi i : Nat) : Nat := t0 + 2 * (16384 + i * (4096 + giSamples gi)) * 100000000 / gridScale pre

/-- The slot of the superframe in progress in which an instant falls, counted from its start; 16 to 31 are those of the
next superframe. -/
def slotAt (s : State) (t : Nat) : Nat :=
  ((List.range 31).filter (fun n => decide (slotStartTb s (n + 1) ≤ t))).length

/-- Payload symbols that fit between t0 and the end limit (04 R92, R111). -/
def symsFit (pre : Int) (t0 gi limit : Nat) : Nat :=
  ((limit - t0) * gridScale pre / 100000000 - 32768) / (2 * (4096 + giSamples gi))

/-- Coded bits of one symbol (04 R102, R103): map code 0 ROBUST_4, 1 ROBUST_8, 2 negotiated, 3 uniform. -/
def symCap (s : State) (low : Bool) (map ubits : Nat) (slot : Option Nat) : Nat :=
  if map = 0 then (if low then 288 else 864)
  else if map = 1 then (if low then 144 else 432)
  else if map = 3 then ubits * ((carriers low).filter (fun k => !masked s k)).length
  else match slot with
    | none => 0
    | some c => ((carriers low).filter (fun k => !masked s k)).foldl (fun a k => a + mapBits s c k) 0

/-- The coded bits of x symbols of a burst at t0 (R94, R158). -/
def burstCap (s : State) (low : Bool) (pre : Int) (t0 gi map ubits n dir x : Nat) : Nat :=
  if map ≠ 2 then x * symCap s low map ubits none
  else (List.range x).foldl (fun a i => a + symCap s low 2 0 (mapSlot s n dir (slotAt s (symStart pre t0 gi i) % 8))) 0

/-- A map code and UBITS as the 4-bit MAP of a descriptor (08, grant descriptor), and back. -/
def descMap (map ubits : Nat) : Nat := if map = 3 then ubits + 2 else map
def ofDescMap (m : Nat) : Nat × Nat := if 3 ≤ m then (3, m - 2) else (m, 0)

/-- The fallback of a node (08 R263): descriptor MAP; RATE is 1/2. -/
def fallback (s : State) (n : Nat) : Nat :=
  let l := nLqi s n
  if l = 0 then 1
  else
    let m : Int := ((l : Int) - 24 - 6 * (objF s 0 0x703 27 24 : Nat)) / 18
    if 2 ≤ m then (min m 12).toNat + 2 else if m = 1 then 0 else 1

/-- Descriptor MAP and RATE for a burst of a node over slots (R260): negotiated where every slot index has a valid map. -/
def pickMap (s : State) (n dir a b : Nat) : Nat × Nat :=
  let watched := match (grpL s (nGroup s n)).watch with
    | some (_, t, m) => decide (nPorts s n &&& m.toNat ≠ 0) && (slotIdxs a b).any (fun i =>
        match mapSlot s n 0 i with | some c => decide (cTb s c < t.toNat) | none => false)
    | none => false
  if (slotIdxs a b).all (fun i => (mapSlot s n dir i).isSome) && !(dir == 0 && watched) then (2, 2)
  else (fallback s n, 0)

/-- Slots a grant covers. -/
def covers (a : Grant) (t : Nat) : Bool := decide (a.first ≤ t) && decide (t ≤ a.last)

/-- Bits of a group's Furrow pool (06 R166). -/
def poolBits (s : State) (g : Nat) : Nat := 2097152 * (portsOf s g).length

/-- Bits reserved by uplink frames, by encoded bursts and by blocks on the air in the port areas of a group (06 R166). -/
def poolUsed (s : State) (g : Nat) : Nat :=
  let m := portMask (portsOf s g)
  (s.dec.frames.filter (fun f => decide (f.pool &&& m ≠ 0))).foldl (fun a f => a + f.cws.foldl (fun b c => b + c.resv) 0) 0
    + (List.range 6).foldl (fun a q => a + ((grpL s q).bursts.filter (fun b => decide (b.pool &&& m ≠ 0))).foldl
        (fun b x => b + x.resv) 0) 0
    + (List.range 6).foldl (fun a q => a + ((grpL s q).air.filter (fun b => decide (b.pool &&& m ≠ 0) && decide (now s < b.fin))).foldl
        (fun b x => b + x.bits) 0) 0

/-- The blocks of a burst stay reserved until their ends (06 R166, 07 R205); reservations that have ended are forgotten. -/
def reserveAir (g : Nat) (l : List AirResv) (s : State) : State :=
  setGrpL g (fun k => { k with air := k.air.filter (fun b => decide (now s < b.fin)) ++ l.filter (fun b => decide (b.bits ≠ 0)) }) s

end Sys2Proof.Machine
end

