-- ==== Sys2Proof/Machine/ClocheOps.lean ====
section
/-!
DEFINITION. The key store and counters of the Cloche (11 R313 to R325), random bytes, and sealing and opening link
frames (08 R231).
-/
namespace Sys2Proof.Machine

/-- Replace the Cloche's record. -/
def setClo (f : ClocheSt → ClocheSt) (s : State) : State := { s with clo := f s.clo }

/-- An empty key slot and its counters. -/
def slot0 : Bytes := List.replicate 32 0
def ctr0 : Bytes := List.replicate 10 0

/-- The 32 bytes of a key slot; its 10 counter bytes. -/
def keySlot (s : State) (n : Nat) : Bytes := smGet (fun _ => slot0) s.clo.keys n
def keyCtr (s : State) (n : Nat) : Bytes := smGet (fun _ => ctr0) s.clo.ctrs n

/-- Write a key slot; its counters. -/
def setKeySlot (n : Nat) (b : Bytes) (s : State) : State :=
  setClo (fun c => { c with keys := smPut (fun _ => slot0) n b c.keys }) s
def setKeyCtr (n : Nat) (b : Bytes) (s : State) : State :=
  setClo (fun c => { c with ctrs := smPut (fun _ => ctr0) n b c.ctrs }) s

/-- Attributes of a key slot (R313). -/
def kEui (s : State) (n : Nat) : Nat := beAt (keySlot s n) 16 8
def kClass (s : State) (n : Nat) : Nat := byteAt (keySlot s n) 24
def kMode (s : State) (n : Nat) : Nat := byteAt (keySlot s n) 25
def kAllow (s : State) (n : Nat) : Nat := byteAt (keySlot s n) 26
def kFlags (s : State) (n : Nat) : Nat := byteAt (keySlot s n) 27
def kFixed (s : State) (n : Nat) : Bytes := slice (keySlot s n) 28 4

/-- Set a bit of FLAGS. -/
def setKFlag (n i : Nat) (b : Bool) (s : State) : State :=
  let f := kFlags s n
  let f := f - (if nbit f i then 2 ^ i else 0) + (if b then 2 ^ i else 0)
  setKeySlot n (slice (keySlot s n) 0 27 ++ beBytes 1 f ++ slice (keySlot s n) 28 4) s

/-- The key bytes of a slot: KEY XOR S, and the upper half of an AES-256 pair (R313 to R315). -/
def keyBytes (s : State) (n : Nat) : Bytes :=
  let un := fun k => beBytes 16 (beAt (keySlot s k) 0 16 ^^^ s.clo.mask.toNat)
  if nbit (kFlags s n) 4 then un n ++ un (n + 1) else un n

/-- FC_TX or the invocation counter, and FC_RX. -/
def fcTx (s : State) (n : Nat) : Nat := beAt (keyCtr s n) 0 5
def fcRx (s : State) (n : Nat) : Nat := beAt (keyCtr s n) 5 5
def setFcTx (n v : Nat) (s : State) : State := setKeyCtr n (beBytes 5 v ++ slice (keyCtr s n) 5 5) s
def setFcRx (n v : Nat) (s : State) : State := setKeyCtr n (slice (keyCtr s n) 0 5 ++ beBytes 5 v) s

/-- Slots in use, rising. -/
def usedSlots (s : State) : List Nat := (s.clo.keys.filter (fun e => byteAt e.2 24 != 0)).map (·.1)

/-- SLOTS_USED follows the store. -/
def slotsUsed (s : State) : State := setF 0x50 0x800 15 3 (usedSlots s).length s

/-- The network key slot (R320): the lowest slot of class network. -/
def netSlot (s : State) : Option Nat := (usedSlots s).find? (fun n => kClass s n == 2)

/-- The node slot that holds an EUI-64. -/
def slotOfEui (s : State) (e : Nat) : Option Nat := (usedSlots s).find? (fun n => kClass s n == 1 && kEui s n == e)

/-- KEY_COUNTER_WARN, once per key (R321). -/
def counterWarn (n : Nat) (s : State) : State :=
  if nbit (kFlags s n) 0 then s else raise 42 0x50 .keyCounterWarn (beBytes 2 n) (setKFlag n 0 true s)

/-- One seal or open counts towards KEY_SAVE_DUE (R325). -/
def countUse (n : Nat) (isOpen : Bool) (s : State) : State :=
  let a := smGet (fun _ => 0) s.clo.seals n + (if isOpen then 0 else 1)
  let b := smGet (fun _ => 0) s.clo.opens n + (if isOpen then 1 else 0)
  let s := setClo (fun c => { c with seals := smPut (fun _ => 0) n a c.seals, opens := smPut (fun _ => 0) n b c.opens }) s
  if (2 ^ 19 ≤ a ∨ 2 ^ 16 ≤ b) ∧ !nbit (kFlags s n) 2 then
    raise 42 0x50 .keySaveDue (beBytes 2 n) (setKFlag n 2 true s)
  else s

/-- The counts start again with KEY_SAVE or KEY_UNWRAP (R325). -/
def resetUse (n : Nat) (s : State) : State :=
  setClo (fun c => { c with seals := smPut (fun _ => 0) n 0 c.seals, opens := smPut (fun _ => 0) n 0 c.opens }) s

/-- Reserve the frame or invocation counter of a slot (R320 to R322): none when the key is exhausted. A seal that reserves
FC_TX = 2^40 − 2^20 warns. -/
def reserveCtr (n : Nat) (s : State) : State × Option Nat :=
  let c := fcTx s n
  if nbit (kFlags s n) 1 ∨ 2 ^ 40 - 1 ≤ c then (setKFlag n 1 true s, none)
  else
    let s := setFcTx n (c + 1) s
    let s := if c = 2 ^ 40 - 2 ^ 20 ∧ kClass s n ≤ 2 then counterWarn n s else s
    (countUse n false s, some c)

/-- The DRBG held in State (R310). -/
def drbgOf (s : State) : Drbg := (s.clo.drbgKey, s.clo.drbgV)

/-- The DRBG takes a key and V; its count of requests since the last seed. -/
def setDrbg (d : Drbg) (req : Nat) (s : State) : State :=
  setClo (fun c => { c with drbgKey := d.1, drbgV := d.2, drbgReq := req }) s

/-- The DRBG has stopped (R311). -/
def drbgDead (s : State) : Bool := objF s 0x50 0x800 26 26 == 1

/-- The DRBG stops (R311, 01 R28): the engines hold. -/
def drbgHalts (s : State) : State :=
  if drbgDead s ∨ funcDown s 0x50 then s
  else
    let s := raise 42 0x50 .drbgHalt [] (setF 0x50 0x800 26 26 1 s)
    raise 42 0x50 .faultUnabsorbed [0x50] s

/-- The requests since the last reseed have reached their limit (R311). -/
def drbgSpent (s : State) : State := if 2 ^ 22 ≤ s.clo.drbgReq then drbgHalts s else s

/-- n random bytes of the DRBG (R310, R311): after the requests the engines have used, requests of 512 bytes of its own.
DESIGN CHOICE (log 131): a consumer takes whole requests and leaves the rest of the last. -/
def drawBytes (n : Nat) (s : State) : Bytes × State :=
  let e := Config.engineRequests s.free
  let k := cdiv n 512
  let r := drbgRequests k (drbgRequests e (drbgOf s)).2
  (r.1.take n, drbgSpent (takeFree 1 (setDrbg r.2 (s.clo.drbgReq + e + k) s)))

/-- The store mask is drawn from the DRBG (R314); one that has stopped draws nothing, and the mask is still to be drawn. -/
def drawMask (s : State) : State :=
  if drbgDead s then setClo (fun c => { c with drawMask := true }) s
  else
    let r := drawBytes 16 s
    setClo (fun c => { c with mask := BitVec.ofNat 128 (beAt r.1 0 16), drawMask := false }) r.2

/-- The two shares of a key in an engine (R306, R314): (KEY, S), re-split with the second 128 of the 384 bits of its first
block. -/
def splitKey (key : Bytes) (s : State) : (Bytes × Bytes) × State :=
  let r := drawBytes 48 s
  let m := beBytes 16 (s.clo.mask.toNat ^^^ beAt r.1 16 16)
  ((List.zipWith (· ^^^ ·) key (m ++ m), m), r.2)

/-- The key that an engine's two shares stand for. -/
def EngRun.key (r : EngRun) : Bytes := List.zipWith (· ^^^ ·) r.share (r.mask ++ r.mask)

/-- CE_STATUS.STATE of an engine; the engine is free. -/
def engState (s : State) (e : Nat) : Nat := objF s (0x40 + e) 0x808 31 28
def engFree (s : State) (e : Nat) : Bool :=
  engState s e == 1 && (vAt s.clo.eng e).isNone && !funcDown s (0x40 + e)

/-- A free engine, lowest first. -/
def freeEngine (s : State) : Option Nat := (List.range 16).find? (fun e => engFree s e)

/-- An engine takes a job with what it sampled. -/
def engTake (e : Nat) (r : EngRun) (s : State) : State :=
  setF (0x40 + e) 0x808 31 28 2 (setClo (fun c => { c with eng := vSet c.eng e (some r) }) s)

/-- An engine takes a job with a key, which it splits, and a nonce (R306, R319). -/
def engLoad (e : Nat) (j : CJob) (key nonce desc : Bytes) (s : State) : State :=
  let k := splitKey key s
  engTake e ⟨j, k.1.1, k.1.2, nonce, desc, now s⟩ k.2

/-- An engine has ended its job: a requested test begins (CE_TEST), or it is idle. -/
def engRest (e : Nat) (s : State) : State :=
  let st := if (findDeferred 0x820 (0x40 + e) s).isSome then 3 else 1
  setF (0x40 + e) 0x808 31 28 st (setClo (fun c => { c with eng := vSet c.eng e none }) s)

/-- A link-frame job. -/
def isLinkJob : CJob → Bool
  | .link _ => true
  | .up => true
  | .trial => true
  | .host _ => false
  | .core _ _ => false

/-- The link-frame job that is taken next, in the order of submission (R318). -/
def nextLink (s : State) : Option CJob := s.clo.jobs.find? isLinkJob

/-- A job is submitted; a job leaves the list. -/
def addJob (j : CJob) (s : State) : State := setClo (fun c => { c with jobs := c.jobs ++ [j] }) s
def takeJob (j : CJob) (s : State) : State := setClo (fun c => { c with jobs := c.jobs.erase j }) s

/-- A link header (08 R230) with FC. -/
def linkHeader (ty : Nat) (ackp mapreq : Bool) (orig fin seq ttl fc : Nat) : Bytes :=
  beBytes 1 (16 * ty + 8 * b2n ackp + 4 * b2n mapreq) ++ beBytes 3 (orig * 4096 + fin) ++ beBytes 2 (seq * 16 + ttl)
    ++ beBytes 5 fc

/-- The CCM nonce of a link frame (R320). -/
def linkNonce (eui fc : Nat) : Bytes := beBytes 8 eui ++ beBytes 5 fc

/-- The associated data: the header with TTL zero, and the trailer (08 R231). -/
def linkAd (hdr ack : Bytes) : Bytes :=
  slice hdr 0 5 ++ [BitVec.ofNat 8 (byteAt hdr 5 / 16 * 16)] ++ slice hdr 6 5 ++ ack

/-- Seal a link frame of the Garurn under the key of a slot (08 R231): none when the key is exhausted. -/
def sealLink (slot ty : Nat) (ackp mapreq : Bool) (fin seq ttl : Nat) (ack body : Bytes) (s : State) :
    State × Option Bytes :=
  match reserveCtr slot s with
  | (s, none) => (s, none)
  | (s, some fc) =>
    let hdr := linkHeader ty ackp mapreq 0 fin seq ttl fc
    let r := ccmSeal (keyBytes s slot) (linkNonce Config.eui.toNat fc) (linkAd hdr ack) body 8
    (s, some (hdr ++ ack ++ r.1 ++ r.2))

/-- The parts of a received link frame (08 R230). -/
structure LinkParts where
  ty : Nat
  ackp : Bool
  mapreq : Bool
  orig : Nat
  fin : Nat
  seq : Nat
  fc : Nat
  hdr : Bytes
  ack : Bytes
  ct : Bytes
  mic : Bytes
deriving DecidableEq, Repr

/-- Take a link frame from a node apart: a trailer from a node has 15 bytes (08 R233). -/
def linkParts (b : Bytes) : LinkParts :=
  let ackp := nbit (byteAt b 0) 3
  let a := if ackp then 15 else 0
  let n := b.length - 19 - a
  ⟨byteAt b 0 / 16, ackp, nbit (byteAt b 0) 2, beAt b 1 3 / 4096, beAt b 1 3 % 4096, beAt b 4 2 / 16, beAt b 6 5,
    slice b 0 11, slice b 11 a, slice b (11 + a) n, slice b (11 + a + n) 8⟩

/-- A frame is long enough for its header, trailer and MIC. -/
def linkLenOk (b : Bytes) : Bool := decide ((if nbit (byteAt b 0) 3 then 34 else 19) ≤ b.length)

/-- Try to open a frame under a slot (R323): the body when the tag verifies. -/
def tryOpen (s : State) (slot eui : Nat) (p : LinkParts) : Option Bytes :=
  let r := ccmOpen (keyBytes s slot) (linkNonce eui p.fc) (linkAd p.hdr p.ack) p.ct p.mic
  if r.2 then some r.1 else none

/-- AUTH_FAIL and REPLAY of CLOCHE_COUNT. -/
def authFail (s : State) : State := bumpF 0x50 0x802 31 16 1 s
def replayed (s : State) : State := bumpF 0x50 0x802 15 8 1 s

/-- FC of an opened frame passes R323 and is taken. -/
def takeFcRx (slot fc : Nat) (s : State) : State :=
  let old := fcRx s slot
  let s := setFcRx slot fc s
  let s := if 2 ^ 40 - 2 ^ 20 ≤ fc ∧ old < 2 ^ 40 - 2 ^ 20 then counterWarn slot s else s
  countUse slot true s

/-- The counter checks of R323. The frames of a node whose key is exhausted fail R231 too (08 R268): they count as failures of
the counter, DESIGN CHOICE (log 162). -/
def fcOk (s : State) (slot fc : Nat) : Bool := decide (fcRx s slot < fc ∧ fc < 2 ^ 40 - 1) && !nbit (kFlags s slot) 1

end Sys2Proof.Machine
end

