-- ==== Sys2Proof/Machine/Modulate.lean ====
section
/-!
DEFINITION. The transmit path of a port (04 R89 to R91, R108 to R116; 07 R193 to R197): the samples of a broadband burst, the
GFSK signal, the shaping banks and the converter, as shares of DAC full scale. Windows and ramps take their first value at
their first sample (log 119).
-/
namespace Sys2Proof.Machine

/-- The value of a carrier point: (i + jq) / √e turned by its power of j (04 R97, R104). -/
def pointVal (t : TxPoint) : Cx := cMul (cScale (1 / sqrtQ t.e) ⟨t.i, t.q⟩) (cis (t.rot / 4))

/-- w_p(k) of a pre-weight byte (04 R108). -/
def weightVal (b : Byte) : Cx :=
  let m := b.toNat / 32
  if m = 7 then ⟨0, 0⟩ else cScale (pow10Q (-(3 * m : Nat) / 20)) (cis ((b.toNat % 32 : Nat) / 32))

/-- The pre-weight of carrier k of a burst on port p. -/
def burstWeight (b : BbBurst) (p k : Nat) : Cx := weightVal ((b.weights.getD ((k - 37) / 72) []).getD p 0)

/-- The amplitude of a carrier of unit energy against DAC full scale: 1728 of them have an RMS of −15 dB (04 R113). -/
def carrierLevel : Rat := sqrtQ (pow10Q (-3 / 2) / 864)

/-- The periodic waveform of some points on a port, at a time in samples from the symbol's start (04 R87). -/
def symbolWave (b : BbBurst) (p : Nat) (pts : List TxPoint) (n : Rat) : Rat :=
  carrierLevel * rSum (pts.map (fun t => (cMul (cMul (pointVal t) (burstWeight b p t.k)) (cis (t.k * n / 4096))).re))

/-- A field of a burst (04 R89): its first sample and the one after its last, guard included, where its symbol starts, its
points, and whether it begins under the raised cosine of R90. -/
structure TxField where
  first : Int
  fin : Int
  body : Int
  pts : List TxPoint
  rise : Bool

/-- The fields of a burst (04 R89, R90): sync symbols, training, frame control, payload symbols. -/
def burstFields (b : BbBurst) : List TxField :=
  [⟨-(b.ramp : Int), 2560, 0, b.sync, false⟩, ⟨2560, 11264, 3072, b.train, true⟩, ⟨11264, 16384, 12288, b.fc, true⟩]
    ++ b.symbols.zipIdx.map (fun e =>
      let a : Int := 16384 + e.2 * (4096 + b.gi)
      ⟨a, a + 4096 + b.gi, a + b.gi, e.1, true⟩)

/-- The sample after the last payload sample. -/
def burstLen (b : BbBurst) : Int := 16384 + b.symbols.length * (4096 + b.gi)

/-- The raised-cosine half of 64 samples, rising (04 R90). -/
def riseAt (i : Rat) : Rat := (1 - cosTurn (i / 128)) / 2

/-- The window of a field (04 R90): it rises over the first 64 samples of its guard and falls over a suffix of 64; the last
field's suffix runs on under the ramp. -/
def fieldWindow (f : TxField) (last : Bool) (m : Rat) : Rat :=
  if m < f.first then 0
  else if f.rise ∧ m < f.first + 64 then riseAt (m - f.first)
  else if m < f.fin ∨ last then 1
  else if m < f.fin + 64 then 1 - riseAt (m - f.fin) else 0

/-- The T-unit's signal of a port at m samples after t0 (04 R89, R90, R98): S9, from sample 2304 on, is S0 negated. -/
def unitSignal (b : BbBurst) (p : Nat) (m : Rat) : Rat :=
  rSum ((burstFields b).map (fun f =>
    let w := fieldWindow f (decide (f.fin = burstLen b)) m
    let x := symbolWave b p f.pts (m - f.body)
    w * (if f.fin = 2560 ∧ 2304 ≤ m then -x else x)))

/-- The broadband ramps (04 R91). -/
def bbRamp (b : BbBurst) (m : Rat) : Rat :=
  let e : Rat := burstLen b
  let f := fun (u : Rat) => (1 + cosTurn (u / (2 * b.ramp))) / 2
  if m ≤ -(b.ramp : Rat) then 0 else if m < 0 then f m else if m < e then 1 else if m < e + b.ramp then f (m - e) else 0

/-- A burst's attenuation on a port, in dB. -/
def burstAtten (ports atten : List Nat) (p : Nat) : Nat :=
  match (ports.zip atten).find? (fun e => e.1 == p) with | some e => e.2 | none => 0

/-- The broadband signal of a burst on a port at a TB instant (04 R111, R112 steps 1 to 5): the grid is scaled by
1 + Δ × 10^-8, t0 stays; between samples the signal is that of the interpolation by two. -/
def bbSignal (b : BbBurst) (p t : Nat) : Rat :=
  if !b.ports.contains p then 0
  else
    let m : Rat := ((t : Rat) - b.t0) / 2 * (1 + b.precomp / 100000000)
    unitSignal b p m * bbRamp b m * pow10Q (-(burstAtten b.ports b.atten p : Rat) / 20)

-- The GFSK signal.

/-- Deviation in twelfths of R_s of a one-bit symbol, and of a two-bit symbol (07 R191, R194). -/
def dev1 (four b : Bool) : Int := (if b then 1 else -1) * (if four then 9 else 6)
def dev2 (a b : Bool) : Int := if a then (if b then -9 else -3) else (if b then 9 else 3)

/-- The deviations of payload bits; with two bits a symbol a missing last one is 0 (07 R194, R202). -/
def payDevs (four two : Bool) (bits : List Bool) : List Int :=
  if two then
    let a := bits.toArray
    (List.range ((bits.length + 1) / 2)).map (fun i => dev2 (a.getD (2 * i) false) (a.getD (2 * i + 1) false))
  else bits.map (dev1 four)

/-- Symbol rates of NB_CH.RS in baud. -/
def nbBaud (cfg : W32) : Nat := 2400 * 2 ^ fget cfg 12 11

/-- The pulse before truncation, at x symbol times from its centre: a rectangle of width 1 convolved with a Gaussian of
σ = √(ln 2) / (2π BT) symbol times (07 R193). -/
def gaussRect (bt35 : Bool) (x : Rat) : Rat :=
  let s := sqrtQ (lnQ 2) / (2 * piQ * (if bt35 then 7 / 20 else 1 / 2)) * sqrtQ 2
  (erfQ ((x + 1 / 2) / s) - erfQ ((x - 1 / 2) / s)) / 2

/-- The half span of the truncated pulse in symbol times (07 R193). -/
def pulseSpan (bt35 : Bool) : Rat := if bt35 then 2 else 3 / 2

/-- The pulse truncated. -/
def pulseCut (bt35 : Bool) (x : Rat) : Rat := if -(pulseSpan bt35) ≤ x ∧ x ≤ pulseSpan bt35 then gaussRect bt35 x else 0

/-- p: the pulse truncated and scaled so that the pulses of all symbols add up to 1 (07 R193). -/
def pulse (bt35 : Bool) (x : Rat) : Rat :=
  pulseCut bt35 x / rSum ((List.range 9).map (fun k => pulseCut bt35 (x - x.floor + (k : Rat) - 4)))

/-- The deviation at x symbol times after t0, in cycles per symbol time, of a sequence in twelfths (07 R193, R194). -/
def devAt (bt35 : Bool) (devs : List Int) (x : Rat) : Rat :=
  rSum (devs.zipIdx.map (fun e => (e.1 : Rat) / 12 * pulse bt35 (x - e.2)))

/-- The deviation's phase in turns from x = a to x = b: 64 midpoints a symbol time. -/
def devPhase (bt35 : Bool) (devs : List Int) (a b : Rat) : Rat :=
  let n := ((b - a) * 64).ceil.toNat
  near 8 (b - a) (rSum ((List.range n).map (fun i => devAt bt35 devs (a + (i + 1 / 2) * (b - a) / n))) * (b - a) / n)

/-- The ramps of a narrowband burst (07 R195): T_R before t0 and after the last symbol, in ticks. -/
def nbRamp (b : NbBurst) (u : Rat) : Rat :=
  let r : Rat := 400 * b.rampUs
  let e : Rat := b.devs.length * 400000000 / nbBaud b.cfg
  let f := fun (v : Rat) => (1 + cosTurn (v / (2 * r))) / 2
  if u ≤ -r then 0 else if u < 0 then f u else if u < e then 1 else if u < e + r then f (u - e) else 0

/-- The amplitude of a narrowband burst against DAC full scale: its RMS is 12 dB below (07 R197). -/
def nbLevel : Rat := sqrtQ 2 * pow10Q (-12 / 20)

/-- The narrowband signal of a burst on a port at a TB instant (07 R193 to R197): the phase is zero at the start of the
ramp-up. -/
def nbSignal (b : NbBurst) (p t : Nat) : Rat :=
  if !b.ports.contains p then 0
  else
    let u : Rat := (t : Rat) - b.t0
    let r : Rat := 400 * b.rampUs
    let baud : Rat := nbBaud b.cfg
    let x := fun (v : Rat) => v * baud / 400000000
    let ph := (fget b.cfg 31 13 : Rat) * (u + r) / 400000000 + devPhase (fget b.cfg 9 9 == 1) b.devs (x (-r)) (x u)
    nbLevel * nbRamp b u * cosTurn ph * pow10Q (-(burstAtten b.ports b.atten p : Rat) / 20)

-- The sum, the shaping banks and the converter.

/-- The sum of both layers of a port at a TB instant, 400 MS/s (03 R68, 04 R112 steps 1 to 6). -/
def portSum (bursts : List OutItem) (p t : Nat) : Rat :=
  rSum (bursts.map (fun o => match o with
    | .bbBurst b => bbSignal b p t
    | .nbBurst b => nbSignal b p t
    | _ => 0))

/-- The output of a bank: a 128-tap filter at 400 MS/s (04, shaping banks). -/
def bankOut (s : State) (p bank : Nat) (bursts : List OutItem) (t : Nat) : Rat :=
  rSum ((List.range 128).map (fun i => (bankCoef s p bank i : Rat) / 2 ^ 15 * portSum bursts p (t - i)))

/-- The shaped signal of a port (04 R112 step 7, R115): outside a fade the bank in force; in one, both banks by alpha. -/
def shapedOut (s : State) (p : Nat) (bursts : List OutItem) (t : Nat) : Rat :=
  let k := portOf s p
  let b := objF s (pf p) 0x503 31 31
  match k.fadeAt with
  | some q =>
    let a := fadeShare (t - q) k.fadeLen
    (1 - a) * bankOut s p (1 - b) bursts t + a * bankOut s p b bursts t
  | none => bankOut s p (sourceBank s p) bursts t

/-- The converter's code of a signal, and whether the signal saturates at full scale (04 R112 steps 8 and 9). -/
def dacCode (v : Rat) : Int × Bool :=
  let n := roundNear 112 (8192 * v)
  (adcCode n, decide (adcCode n ≠ n))

/-- A burst has a saturated sample on a port, beside the bursts sent before it (04 R112): what CLIPPED counts. -/
def burstClips (s : State) (p : Nat) (b : BbBurst) (bursts : List OutItem) : Bool :=
  let a := b.t0 - 2 * b.ramp
  (List.range (2 * (burstLen b).toNat + 4 * b.ramp)).any (fun i =>
    (dacCode (shapedOut s p bursts (a + i))).2)

end Sys2Proof.Machine
end

