-- ==== Sys2Proof/Machine/Broadband.lean ====
section
/-!
DEFINITION. Broadband transmission (04): encoding a downlink frame (06 R156 to R167, 07 R201 to R205), the burst as it
leaves the ports, the tone masks and the transmit test; PORT_REMOVE (03 R83).
-/
namespace Sys2Proof.Machine

/-- Ports of a group in SERVICE on which a layer is enabled (03, PORT_CFG). -/
def bbPorts (s : State) (g : Nat) : List Nat := (svcPorts s g).filter (fun p => objF s (pf p) 0x400 28 28 == 1)
def nbPorts (s : State) (g : Nat) : List Nat := (svcPorts s g).filter (fun p => objF s (pf p) 0x400 27 27 == 1)

/-- A port in SERVICE whose driver may become active: STATE no longer reads SERVICE where a cause of FAILED has been detected,
and a driver turned off under R70 stays off (03 R70, R83). -/
def txAble (s : State) (p : Nat) : Bool := portState s p == 2 && !(portOf s p).clampOff

/-- A written PORT_TX takes effect for one layer at the start of its next frame (03). -/
def adoptPortTx (p : Nat) (nb : Bool) (s : State) : State :=
  match dueVal s (pf p) 0x401 with
  | none => s
  | some v =>
    let s := if nb then setF (pf p) 0x401 26 22 (fget v 26 22) s else setF (pf p) 0x401 31 27 (fget v 31 27) s
    if getObj s (pf p) 0x401 = v then adopt (pf p) 0x401 s else s

/-- Attenuation of a port in dB: its own and the governor's (03 R71, 04 R112). -/
def attenOf (s : State) (p : Nat) (nb : Bool) : Nat :=
  (if nb then objF s (pf p) 0x401 26 22 else objF s (pf p) 0x401 31 27) + vAt s.pw.attNow p

/-- Whether a port takes part in the next data burst of its group, and the count moved on (17 R470): of every 16
consecutive bursts it takes part in the first DUTY. -/
def dutyStep (p : Nat) (s : State) : State × Bool :=
  let k := vAt s.pw.dutyCount p
  let part := decide (k < objF s (pf p) 0x218 28 24)
  let s := { s with pw := { s.pw with dutyCount := vSet s.pw.dutyCount p ((k + 1) % 16) } }
  (if part then s else bumpF (pf p) 0x218 23 8 1 s, part)

/-- DUTY over the ports of a burst: those that send it. -/
def dutyPorts (ports : List Nat) (s : State) : State × List Nat :=
  ports.foldl (fun (a : State × List Nat) p =>
    let r := dutyStep p a.1
    (r.1, if r.2 then a.2 ++ [p] else a.2)) (s, [])

/-- The frame-control word of a downlink burst, bit 0 first (04 R100). -/
def fcBits (dst net slot gi map ubits mapId rate nsym bytes span : Nat) (precomp : Bool) : List Bool :=
  let w := bitsOf 2 1 ++ [true] ++ bitsOf 2 0 ++ bitsOf 12 0 ++ bitsOf 12 dst ++ bitsOf 16 net ++ bitsOf 4 slot
    ++ bitsOf 2 gi ++ bitsOf 2 map ++ bitsOf 4 ubits ++ bitsOf 8 mapId ++ bitsOf 2 rate ++ bitsOf 12 nsym
    ++ bitsOf 16 bytes ++ bitsOf 3 span ++ [precomp] ++ bitsOf 29 0
  w ++ bitsOf 16 (crcBits 16 0x1021 0xFFFF w)

/-- The header word of a downlink narrowband burst, bit 0 first (07 R200). -/
def nbHeadBits (mod : Bool) (dst netl len rate blk : Nat) : List Bool :=
  let w := bitsOf 2 1 ++ [true, mod] ++ bitsOf 12 0 ++ bitsOf 12 dst ++ bitsOf 8 netl ++ bitsOf 8 len ++ bitsOf 2 rate
    ++ bitsOf 3 blk ++ bitsOf 7 0
  w ++ bitsOf 8 (crc8 w)

/-- NET in force. -/
def netId (s : State) : Nat := objF s 0 0x700 31 16

/-- Weights of a burst (04 R109): the cache slot of the node's downlink for a slot index, where it holds them. With SELECT,
port r of R110 sends. -/
def burstWeights (s : State) (ports : List Nat) (slot : Option Nat) : List Bytes :=
  let pw := objF s 0 0x500 13 12
  let w := fun g p => match slot with
    | some c => memByte s (cacheBase c + 864 + 6 * g + p)
    | none => (0 : Byte)
  (List.range 24).map (fun g => (List.range 6).map (fun p =>
    if !ports.contains p then (0xE0 : Byte)
    else match slot with
      | none => 0
      | some c =>
        if pw = 0 ∨ !nbit (cFlags s c) 1 then 0
        else if pw = 1 then (if smGet (fun _ => 0) s.lk.best (24 * c + g) = p then 0 else 0xE0)
        else w g p))

/-- Interleaved stream with repetition: the bits of nsym symbols (06 R160). -/
def repeated (stream : List Bool) (n : Nat) : Array Bool :=
  let a := stream.toArray
  if a.size = 0 then #[] else ((List.range n).map (fun t => a.getD (t % a.size) false)).toArray

/-- Points of the payload symbols of a burst (04 R102, R103). -/
def payloadPoints (s : State) (low : Bool) (b : TxBurst) (t0 nsym : Nat) : List (List TxPoint) :=
  -- a negotiated map is the one the burst was encoded with (08 R259)
  let mapOf := fun i => ((b.maps.find? (fun e => e.1 == slotAt s (symStart b.precomp t0 b.gi i) % 8)).map (·.2.toArray)).getD #[]
  let capOf := fun i =>
    if b.map ≠ 2 then symCap s low b.map b.ubits none
    else let m := mapOf i
      ((carriers low).filter (fun k => !masked s k)).foldl (fun a k => a + m.getD (k - 37) 0) 0
  let total := (List.range b.nsym).foldl (fun a i => a + capOf i) 0
  let bits := repeated b.stream total
  ((List.range nsym).foldl (fun (a : List (List TxPoint) × Nat) i =>
    let c := capOf i
    let seg := ((List.range c).map (fun j => bits.getD (a.2 + j) false)).toArray
    let pts :=
      if b.map = 0 then repPoints low (repCount low / 4) (masked s) seg
      else if b.map = 1 then repPoints low (repCount low / 8) (masked s) seg
      else if b.map = 3 then mapPoints low (masked s) (fun _ => b.ubits) seg
      else let m := mapOf i
        mapPoints low (masked s) (fun k => m.getD (k - 37) 0) seg
    (a.1 ++ [pts], a.2 + c)) ([], 0)).1

/-- Slot numbers of a burst's first slot and of the slot after its last, from the superframe in progress on. -/
def burstSlots (s : State) (b : TxBurst) : Nat × Nat :=
  let a := 16 * (b.sf - sfNow s) + b.first
  (a, a + b.count)

/-- A burst leaves the ports of its group (04 R89 to R113): drivers active until its end, counters, truncation (R93). Its t0
follows from its first slot (R92); one cache slot, that of t0, gives the weights of the whole burst (R109):
DESIGN CHOICE (log 121). -/
def sendBb (b : TxBurst) (data : Bool) (under : Option Nat) (s : State) : State :=
  let cfg := getObj s 0 0x500
  let t0 := slotStartTb s (burstSlots s b).1 + leadTicks cfg
  let slotEnd := slotStartTb s (burstSlots s b).2
  let all := (bbPorts s b.group).filter (fun p => txAble s p)
  let r := if data then dutyPorts all s else (s, all)
  let ports := if tapHold r.1 then [] else r.2
  let s := ports.foldl (fun t p => adoptPortTx p false t) r.1
  let fit := symsFit b.precomp t0 b.gi (slotEnd - tailTicks cfg)
  let n0 := min b.nsym fit
  let n := match under with | some u => min n0 u | none => n0
  let low := lowBand s b.group
  let end_ := symStart b.precomp t0 b.gi n + 2 * rampSamples cfg
  let wslot := if b.node.toNat = 4095 then none else mapRef s b.node.toNat (8 + slotAt s t0 % 8)
  let burst : BbBurst := ⟨b.group, t0, ports, rampSamples cfg, giSamples b.gi, burstWeights s ports wslot, b.precomp,
    ports.map (fun p => attenOf s p false), syncPoints low (masked s), trainPoints low (masked s),
    repPoints low 144 (masked s) (ldpcEncode 0 12 b.word).toArray, payloadPoints s low b t0 n⟩
  let clipped := ports.filter (fun p => burstClips s p burst (s.out ++ [.bbBurst burst]))
  let s := ports.foldl (fun t p =>
    let t := setDriver p false true (setPort p (fun k => { k with bbEnd := end_ }) t)
    let t := bumpF (pf p) 0x504 31 16 1 t
    let t := if n < b.nsym then bumpF (pf p) 0x504 15 8 1 t else t
    if clipped.contains p then bumpF (pf p) 0x504 7 0 1 t else t) s
  let s := if (match under with | some u => decide (u < n0) | none => false) then bumpF 0 0xF00 7 0 1 s else s
  if ports.isEmpty then s else emit (.bbBurst burst) (reserveAir b.group [⟨b.pool, b.resv, end_⟩] s)

/-- The downlink queue of a group (10, catalogue). -/
def dlQueue (g : Nat) : Nat := 8 + g

/-- Replace a downlink frame. -/
def setTx (id : Nat) (f : TxFrame → TxFrame) (s : State) : State :=
  setLk (fun l => { l with tx := l.tx.map (fun t => if t.id = id then f t else t) }) s

/-- Remove a downlink frame and release its packet. -/
def dropTx (f : TxFrame) (s : State) : State :=
  let s := setLk (fun l => { l with
    tx := l.tx.filter (fun t => t.id != f.id)
    grp := l.grp.map (fun g => { g with bursts := g.bursts.filter (fun b => b.frame != f.id) }) }) s
  match f.pos with
  | some p => qRelease (dlQueue f.home) p s
  | none => s

/-- VA moves to the oldest frame still held, or to VS (08 R244). -/
def moveVa (n : Nat) (s : State) : State :=
  let vs := nVs s n
  let ages := (s.lk.tx.filter (fun t => t.node.toNat == n && t.seq.isSome)).map (fun t => (vs + 4096 - t.seq.getD 0) % 4096)
  let far := ages.foldl max 0
  let va := (vs + 4096 - far) % 4096
  let rx := match s.lk.tx.find? (fun t => t.node.toNat == n && decide (t.seq = some va)) with | some t => min 15 t.retx | none => 0
  nSet n 28 2 (va * 16 + rx) s

/-- The body of a downlink frame as its packet holds it, read by position (10 R296); none where the queue has lost it. -/
def readTx (f : TxFrame) (s : State) : Option (Bytes × State) :=
  match f.pos with
  | none => some (f.body, s)
  | some p => (qReadAt (dlQueue f.home) p s).map (fun e => (e.1.data, e.2))

/-- A frame has gone out (08 R244): SENT with the superframe, or released where it is not sequenced. -/
def frameSent (id : Nat) (nego : List Nat) (s : State) : State :=
  match s.lk.tx.find? (fun t => t.id == id) with
  | none => s
  | some t =>
    if t.seq.isNone then dropTx t s
    else
      let sf := sfNow s
      setTx id (fun t => { t with st := .sent, sentSf := sf, nego := if t.retx = 0 then nego else t.nego, grant := none, bytes := [] }) s

/-- A sounding or a transmit test runs in the group: from its first slot on, no uplink is granted and no downlink sent (03 R86,
04 and 07 commands). -/
def groupBlocked (s : State) (g : Nat) : Bool := (portsOf s g).any (fun p => (portOf s p).testRunning)

/-- TB at which the sounding (18 ms) or the test of port p ends; one that waits starts at the next slot start (03 R86). -/
def testEndTb (s : State) (p : Nat) : Nat :=
  let start := if (portOf s p).testRunning then (portOf s p).testAt.toNat else slotStartTb s (s.clk.slot.val + 1)
  let secs := fun op => (findDeferred op (pf p) s).map (fun d => 400000000 * nfield (d.aux.headD 0) 31 26)
  start + (((secs 0x530).orElse (fun _ => secs 0x603)).getD (us 18000))

/-- No sounding or test occupies the group at an instant to come (03 R86, 08 R241). -/
def groupFreeAt (s : State) (g t : Nat) : Bool :=
  (portsOf s g).all (fun p => !((portOf s p).testWaiting || (portOf s p).testRunning) || decide (testEndTb s p ≤ t))

/-- A frame that cannot be sent in its grant waits for the next one (R167, 03 R86). -/
def requeueTx (id : Nat) (s : State) : State := setTx id (fun t => { t with st := .queued, grant := none, bytes := [] }) s

/-- A waiting burst leaves the list; one whose slots have passed, or whose group a sounding or a test holds, is not sent: its
frame waits for another grant (03 R86). -/
def takeBurst (b : TxBurst) (send : State → State) (s : State) : State :=
  let s := setGrpL b.group (fun l => { l with bursts := l.bursts.erase b }) s
  if b.sf < sfNow s ∨ groupBlocked s b.group then requeueTx b.frame s else send s

/-- A broadband burst of the superframe in progress begins (R92, R93). -/
def execBbBurstTransmit (g : Fin 6) (underrunAfter : Option Nat) (s : State) : Host.Outcome State Fault Refusal :=
  .next (match (grpL s g.val).bursts.find? (fun b => !b.nb && decide (b.sf ≤ sfNow s)) with
    | none => s
    | some b => takeBurst b (fun s => frameSent b.frame (if b.map = 2 then b.slots else []) (sendBb b true underrunAfter s)) s)

/-- The frame of a node in a group that the Cloche has sealed for a layer. -/
def readyTx (s : State) (g n : Nat) (nb : Bool) : Option TxFrame :=
  s.lk.tx.find? (fun t => t.group == g && t.node.toNat == n && t.nb == nb && decide (t.st = .ready))

/-- The ports as the next superframe start leaves them, with the changes that fall due then (03 R77, R79, R83 to R85). -/
def previewPorts (s : State) : State :=
  (List.range 6).foldl (fun t p =>
    let put := fun (st : Nat) => setF (pf p) 0x403 31 28 st (setPort p (fun k => { k with move := none }) t)
    match (portOf s p).move with
    | none => t
    | some (.leave st) => put st.toNat
    | some .enter => if (List.range 6).any (fun q => (portOf s q).checking.isSome) then t else put 2
    | some _ => put 2) s

/-- The values that will be in force at the next superframe start (08 R228). -/
def preview (s : State) : State :=
  previewPorts (adoptBound .sf { s with bb := { s.bb with mask := s.bb.maskNext.getD s.bb.mask, maskNext := none } })

/-- Precedence work in fabric clocks (06 R177). -/
def addPrec (n : Nat) (s : State) : State := { s with dec := { s.dec with precNow := s.dec.precNow + n } }

/-- Encode a broadband frame for its grant (R156 to R164, R166), under the settings of the superframe of its t0 (04 R88, R92,
R107). -/
def encodeBb (g : Nat) (f : TxFrame) (a : Grant) (s : State) : State :=
  let n := hopOf s f.node.toNat
  let v := if f.sfFor = sfNow s then s else preview s
  let cfg := getObj v 0 0x500
  let off := 16 * (f.sfFor - sfNow s)
  let t0 := slotStartTb v (off + a.first) + leadTicks cfg
  let lim := slotStartTb v (off + a.last + 1) - tailTicks cfg
  let low := lowBand v g
  let delta : Int := if n ≠ 4095 ∧ fget cfg 11 11 = 1 then nFoff s n else 0
  -- the second and later retransmissions use the fallback (R245); a set no longer held does too (R260)
  let mr := if n ≠ 4095 ∧ (2 ≤ f.retx ∨ (a.map = 2 ∧ !(slotIdxs a.first a.last).all (fun i => (mapSlot s n 1 i).isSome)))
    then (fallback s n, 0) else (a.map, a.rate)
  let m := ofDescMap mr.1
  let rate := if m.1 ≤ 1 then 0 else mr.2
  let fit := fitBb rate (8 * f.bytes.length + 32) (burstCap v low delta t0 a.gi m.1 m.2 n 1)
  let resv := fit.len
  if fit.nsym = 0 ∨ min a.nsym (symsFit delta t0 a.gi lim) < fit.nsym ∨ poolBits s g < poolUsed s g + resv then requeueTx f.id s
  else
    let h0 := slotAt v (symStart delta t0 a.gi 0) / 4
    let h1 := slotAt v (symStart delta t0 a.gi (fit.nsym - 1)) / 4
    let word := fcBits n (netId s) (a.first % 16) a.gi m.1 (if m.1 = 3 then m.2 else 0) (if m.1 = 2 then nDlMap s n else 0)
      rate fit.nsym f.bytes.length (h1 - h0) (decide (delta ≠ 0))
    let b : TxBurst := ⟨g, false, BitVec.ofNat 12 n, f.id, word, codedStream fit rate 96 fit.n (frameBits f.bytes), fit.nsym, a.gi, m.1,
      m.2, slotIdxs a.first a.last, 0, false, resv, portMask (portsOf s g), delta, f.sfFor, a.first, a.last + 1 - a.first,
      if m.1 = 2 then (slotIdxs a.first a.last).filterMap (fun i => (mapSlot s n 1 i).map (fun c =>
        (i, (List.range 1728).map (fun k => mapBits s c (37 + k))))) else []⟩
    let s := addPrec (60 * fit.n + 15) s
    setTx f.id (fun t => { t with st := .encoded })
      (setGrpL g (fun l => { l with bursts := l.bursts ++ [b] }) s)

/-- BLK + 1 (07 R204): the largest count of codewords whose bits take no longer than SPAN + 1 half-cycles. -/
def nbPerBlock (f : Fit) (bps baud span per256 : Nat) : Nat :=
  (List.range (min 8 f.n)).foldl (fun a c =>
    let bits := (List.range (c + 1)).foldl (fun x i => x + f.sent 12 i) 0
    -- symbols / baud against (SPAN + 1) half periods, in 1/256 tick
    if 2 * cdiv bits bps * 400000000 * 256 ≤ (span + 1) * per256 * baud then c + 1 else a) 1

/-- Encode a narrowband frame for its opening (07 R200 to R205). -/
def encodeNb (g : Nat) (f : TxFrame) (o : OpenSt) (s : State) : State :=
  let fit := fitNb o.rate (8 * f.bytes.length + 16)
  let cfg := getObj s 0 (0x600 + o.chan)
  let bps := if o.mod then 2 else 1
  let per := nbPerBlock fit bps (nbBaud cfg) (objF s 0 0x610 18 16) s.clk.per
  let resv := fit.len
  if 255 < f.bytes.length ∨ poolBits s g < poolUsed s g + resv then requeueTx f.id s
  else
    let word := nbHeadBits o.mod f.node.toNat (netId s % 256) f.bytes.length o.rate (per - 1)
    let b : TxBurst := ⟨g, true, f.node, f.id, word, codedStream fit o.rate 12 per (nbFrameBits f.bytes), cdiv fit.len bps, 0,
      0, 0, [], o.chan, o.mod, resv, portMask (portsOf s g), 0, o.sf, o.first, o.count, []⟩
    setTx f.id (fun t => { t with st := .encoded })
      (setGrpL g (fun l => { l with bursts := l.bursts ++ [b] }) (addPrec (15 * (fit.n + 1)) s))

/-- An L-unit encodes a downlink frame (R177): broadband for its grant, narrowband for its opening. -/
def execDownlinkEncode (g : Fin 6) (node : BitVec 12) (narrowband : Bool) (s : State) : Host.Outcome State Fault Refusal :=
  .next (match readyTx s g.val node.toNat narrowband with
    | none => s
    | some f =>
      match readTx f s with
      | none => moveVa node.toNat (dropTx f s)
      | some (_, s) =>
      if narrowband then
        match s.lk.opens.find? (fun o => o.group == g.val && o.kind == 1 && decide (o.node = node)) with
        | some o => encodeNb g.val f o s
        | none => requeueTx f.id s
      else match f.grant with
        | some a => encodeBb g.val f a s
        | none => requeueTx f.id s)

/-- BB_MASK_WRITE (R107): in force at the next superframe start. -/
def execBbMaskWrite (r : Req) (s : State) : Host.Outcome State Fault Refusal :=
  .next (execReq 0x501 r (r.func == 0) (lenIs r 216) false
    (fun s => .reply stAccepted [] { s with bb := { s.bb with maskNext := some r.params } }) s)

/-- BB_MASK_READ: the effective mask in force. -/
def execBbMaskRead (r : Req) (s : State) : Host.Outcome State Fault Refusal :=
  .next (execReq 0x502 r (r.func == 0) (lenIs r 0) false (fun s => .reply stDone (maskBytes s) s) s)

/-- BB_TX_TEST (R113): deferred; refused as PORT_SOUND is. -/
def execBbTxTest (r : Req) (s : State) : Host.Outcome State Fault Refusal :=
  let v := beAt r.params 0 4
  .next (execReq 0x530 r (portFunc r)
    (lenAnd r 4 (chk (decide (1 ≤ nfield v 31 26 ∧ nfield v 31 26 ≤ 60 ∧ 1 ≤ nfield v 25 22 ∧ nfield v 25 22 ≤ 12
      ∧ nfield v 21 20 ≠ 3)) 0)) (funcDown s r.func.toNat)
    (fun s =>
      if testRefused s (reqPort r) then refuse stNotInState noField s
      else deferIf r [v] s (setPort (reqPort r) (fun k => { k with testWaiting := true }))) s)

/-- A transmit test leaves its port (04 R118). -/
def testEnds (p : Nat) (s : State) : State :=
  setPort p (fun k => { k with testWaiting := false, testRunning := false }) (giveBankB p (driverOff p s))

/-- The broadband transmit test ends: TX_RMS, clipped bursts, bursts sent. -/
def execBbTxTestDone (p : Fin 6) (rmsMv : W16) (clipped : W16) (bursts : W16) (s : State) :
    Host.Outcome State Fault Refusal :=
  .next (match findDeferred 0x530 (pf p.val) s with
    | none => s
    | some d =>
      let s := bumpF (pf p.val) 0x504 31 16 bursts.toNat (bumpF (pf p.val) 0x504 7 0 clipped.toNat s)
      finish d stDone (beBytes 2 rmsMv.toNat ++ beBytes 2 clipped.toNat ++ beBytes 2 bursts.toNat ++ [0, 0])
        (testEnds p.val s))

/-- Nodes whose PORTS holds this port alone (03, PORT_REMOVE; 08, LINK_PORT_NODES). -/
def onlyNodes (s : State) (p : Nat) : List Nat :=
  (liveNodes s).filter (fun n => (nState s n == 2 || nState s n == 3) && nPorts s n == 2 ^ p)

/-- Nodes whose last usable link on a port in SERVICE is on port p (03, PORT_REMOVE). -/
def dependsOn (s : State) (p : Nat) : Bool :=
  let svc := portMask ((List.range 6).filter (fun q => inService s q))
  (liveNodes s).any (fun n => nPorts s n &&& svc == 2 ^ p)

/-- PORT_REMOVE (03 R83): accepted only in SERVICE; without FORCE refused while a node depends on the port. -/
def execPortRemove (r : Req) (s : State) : Host.Outcome State Fault Refusal :=
  .next (execReq 0x403 r (portFunc r) (lenIs r 4) (funcDown s r.func.toNat)
    (fun s =>
      let p := reqPort r
      if portState s p ≠ 2 then refuse stNotInState noField s
      else if !nbit (beAt r.params 0 4) 0 && dependsOn s p then refuse stNoResource noField s
      else .reply stAccepted [] (losePort p 0xB 4 s)) s)

end Sys2Proof.Machine
end

