-- ==== Sys2Proof/Machine/Sieve.lean ====
section
/-!
DEFINITION. The Sieve (07 R207 to R210): the CIC decimator and the droop filter, the output word of a narrowband path with its
tags, and what the V-units take from the fine outputs (07 R214, R215, R223). Its outputs follow from the samples since its
last synchronising reset; a CIC forgets, so those that a row brings suffice.
-/
namespace Sys2Proof.Machine

-- The decimator.

/-- One input through the integrators, each adding what the one before it holds. -/
def integrators (x : BitVec 72) : List (BitVec 72) → List (BitVec 72)
  | [] => []
  | a :: t => (a + x) :: integrators (a + x) t

/-- One decimated value through the combs: the output, and the values they delay by one. -/
def combs (x : BitVec 72) : List (BitVec 72) → BitVec 72 × List (BitVec 72)
  | [] => (x, [])
  | d :: t => let r := combs (x - d) t; (r.1, x :: r.2)

/-- A CIC decimator of an order, differential delay 1 and decimation r, from zeroed state (R207): 72-bit integrators and
combs; output j follows input r(j + 1) − 1. -/
def cicOut (order r : Nat) (xs : List Int) : List Int :=
  (xs.foldl (fun (a : List (BitVec 72) × List (BitVec 72) × Nat × List Int) x =>
    let i := integrators (BitVec.ofInt 72 x) a.1
    if a.2.2.1 + 1 < r then (i, a.2.1, a.2.2.1 + 1, a.2.2.2)
    else
      let c := combs (i.getLastD 0) a.2.1
      (i, c.2, 0, c.1.toInt :: a.2.2.2))
    (List.replicate order 0, List.replicate order 0, 0, [])).2.2.2.reverse

/-- Tap i, 0 to 11, of the droop-compensation filter of an order (R207): the configuration's, on the scale of R208, by which
a tone at f_c passes with the gain of the coarse path (log 161). -/
def firTap (order i : Nat) : Rat :=
  let sum := rSum ((List.range 12).map (Config.firTap order))
  if sum = 0 then 1 / 24 else Config.firTap order i / (2 * sum)

/-- A fine output from the 24 coarse outputs 2i − 22 to 2i + 1, oldest first (R207): the filter is symmetric. -/
def firOut (order : Nat) (c : List Rat) : Rat :=
  rSum (c.zipIdx.map (fun e => firTap order (if e.2 < 12 then e.2 else 23 - e.2) * e.1))

/-- An output of a Sieve path with its tags (R208, R209): its number, I and Q, SETTLE, GAIN, OVER, TX. -/
structure SieveOut where
  j : Nat
  z : Int × Int
  settle : Bool
  gain : Bool
  ovr : Bool
  tx : Bool
deriving Inhabited

/-- The 40-bit output word of a narrowband path (R208). -/
def sieveWord (ch : Nat) (coarse : Bool) (o : SieveOut) : BitVec 40 :=
  BitVec.ofNat 40 (toBits 16 o.z.1 * 2 ^ 24 + toBits 16 o.z.2 * 2 ^ 8 + b2n o.settle * 128 + b2n o.gain * 64
    + b2n o.ovr * 32 + b2n o.tx * 16 + 2 * ch + b2n coarse)

/-- A Sieve's output saturates at ±32 767 (R208). -/
def satOut (x : Rat) : Int := clampInt (-32767) 32767 (roundNear 208 x)

-- Narrowband paths.

/-- Order and decimation of a channel's Sieve (R208). -/
def sieveOrder (cfg : W32) : Nat := min 5 (3 + fget cfg 8 7)
def sieveR (cfg : W32) : Nat := 2560 / 2 ^ fget cfg 12 11

/-- The NCO step: the multiple of 200 MHz / 2^32 nearest to f_c (R192). -/
def ncoStep (cfg : W32) : Nat := (roundNear 192 ((fget cfg 31 13 : Rat) * 2 ^ 32 / 200000000)).toNat

/-- Input sample n of a port's down-converter (R208, R210, 03 R73): the code scaled by the inverse of the PGA steps since the
reset, mixed with the NCO whose phase was zero at sample 0, to whole numbers. -/
def mixAt (s : State) (p ch : Nat) (cfg : W32) (n : Nat) (code : Int) : Int × Int :=
  let i := 8 * p + ch
  let db : Rat := ((vAt s.nb.resetPga i : Nat) : Rat) - (pgaAt s p (vAt s.nb.resetTb i + 2 * n) : Nat)
  let v := code * pow10Q (db / 20)
  let ph : Rat := ((n * ncoStep cfg) % 2 ^ 32 : Nat) / 2 ^ 32
  (roundNear 2080 (v * cosTurn ph), roundNear 2081 (-v * sinTurn ph))

/-- TB of the newest sample of a row. -/
def rxTb (s : State) : Nat := now s - now s % 2

/-- TB of input sample n of a port's Sieve. -/
def sieveTb (s : State) (p ch n : Nat) : Nat := vAt s.nb.resetTb (8 * p + ch) + 2 * n

/-- The input samples of a port's Sieve that a row brings, oldest first, from a multiple of 2R on: the number of the first,
and the receive words (03 R67). -/
def sieveIn (s : State) (p ch : Nat) (cfg : W32) (xs : List Int) : Nat × List Nat :=
  let last := (rxTb s - vAt s.nb.resetTb (8 * p + ch)) / 2
  let n := min xs.length (last + 1)
  let first := last + 1 - n
  let skip := (2 * sieveR cfg - first % (2 * sieveR cfg)) % (2 * sieveR cfg)
  (first + skip, (List.range (n - skip)).map (fun i => rxAt s p xs (n - skip - 1 - i)))

/-- The coarse outputs of a port on a channel that a row's samples determine (R207 to R209): from sample 0 on, all of them;
else those whose whole response lies in the samples. -/
def coarseOuts (s : State) (p ch : Nat) (cfg : W32) (xs : List Int) : List SieveOut :=
  let e := sieveIn s p ch cfg xs
  let r := sieveR cfg
  let o := sieveOrder cfg
  let m := e.2.zipIdx.map (fun w => mixAt s p ch cfg (e.1 + w.2) (wordCode w.1))
  let k : Rat := 4 / (r : Rat) ^ o
  let steps := (portOf s p).pgaSteps
  let iq := (cicOut o r (m.map (·.1))).zip (cicOut o r (m.map (·.2)))
  let l := iq.zipIdx.map (fun v =>
    let j := e.1 / r + v.2
    let w := (e.2.drop (v.2 * r)).take r
    let a := sieveTb s p ch (j * r)
    ({ j := j, z := (satOut (k * v.1.1), satOut (k * v.1.2)), settle := decide (j + 1 < o)
       gain := steps.any (fun x => decide (a ≤ x.1) && decide (x.1 < a + 2 * r)), ovr := w.any wordOver, tx := w.any wordTx } : SieveOut))
  if e.1 = 0 then l else l.drop (o + o % 2)

/-- The fine outputs that follow from coarse ones (R207, R209, R210): coarse outputs before number 0 are zero. -/
def fineOuts (order : Nat) (c : List SieveOut) : List SieveOut :=
  let j0 := (c.head?.map (·.j)).getD 0
  (List.range (c.length / 2)).filterMap (fun h =>
    if j0 ≠ 0 ∧ h < 11 then none
    else
      let l := (List.range 24).map (fun t => if 2 * h + t < 22 then (⟨0, (0, 0), false, false, false, false⟩ : SieveOut) else c.getD (2 * h + t - 22) default)
      let a := l.getD 22 default
      let b := l.getD 23 default
      some { j := j0 / 2 + h, z := (satOut (firOut order (l.map (fun x => (x.z.1 : Rat)))), satOut (firOut order (l.map (fun x => (x.z.2 : Rat)))))
             settle := l.any (·.settle), gain := a.gain || b.gain, ovr := a.ovr || b.ovr, tx := a.tx || b.tx })

/-- An output as a complex value, and its power on the scale of 04 R113 (R208: 16 384 for full-scale amplitude). -/
def outVal (o : SieveOut) : Cx := ⟨o.z.1, o.z.2⟩
def outPower (z : Cx) : Rat := cNorm z / (2 * 16384 * 16384)

/-- The TB that fine output i of a port's Sieve follows. -/
def fineTb (s : State) (p ch : Nat) (cfg : W32) (i : Nat) : Nat := sieveTb s p ch (sieveR cfg * (2 * i + 2) - 1)

/-- Outputs of a port that fall in the time from TB a up to b, of a coarse or fine path. -/
def outsIn (s : State) (p ch : Nat) (cfg : W32) (fine : List SieveOut) (a b : Rat) : List SieveOut :=
  fine.filter (fun o => decide (a ≤ fineTb s p ch cfg o.j) && decide ((fineTb s p ch cfg o.j : Rat) < b))

-- Intervals of detection (R214).

/-- Phase advances of a run of values, in turns from one to the next. -/
def advances (l : List Cx) : List Rat := List.zipWith (fun a b => argTurn (cMul b (cConj a))) l (l.drop 1)

/-- The interval of one symbol time to which coarse output j belongs, on one of two grids offset by half of it. -/
def gridOf (half : Bool) (j : Nat) : Nat := (960 * j + (if half then 15625 else 0)) / 31250

/-- The last n complete intervals of a grid, oldest first: the outputs of each. -/
def gridIntervals (half : Bool) (n : Nat) (c : List SieveOut) : List (List Cx) :=
  let top := gridOf half ((c.getLast?.map (·.j + 1)).getD 0)
  (List.range n).map (fun i => (c.filter (fun o => decide (gridOf half o.j + n = top + i))).map outVal)

/-- The test of R214 on one grid: the mean power, where at most one of the seven transitions between the signs of the mean
instantaneous frequency fails to alternate. -/
def gridPower (half : Bool) (c : List SieveOut) : Option Rat :=
  let l := gridIntervals half 8 c
  let sg := l.map (fun v => decide (rSum (advances v) < 0))
  let same := ((List.zipWith (fun a b => a == b) sg (sg.drop 1)).filter id).length
  if l.any (·.isEmpty) ∨ 1 < same then none else some (rMean (l.map (fun v => rMean (v.map outPower))))

-- GFSK (R193, R223).

/-- The signal-to-noise ratio of outputs, symbol by symbol, against the waveform of decided symbols (R223): each symbol's
share that the reference explains over what it does not. A symbol's outputs are those within half a symbol time of its
pulse's centre (R193); `foff` is in Hz. -/
def gfskSnr (cfg : W32) (foff : Rat) (devs : List Int) (ys : List (List Cx)) : Rat :=
  let bt := fget cfg 9 9 == 1
  let e := ys.zipIdx.map (fun y =>
    let n := y.1.length
    let ref := (List.range n).map (fun i =>
      let x : Rat := y.2 + (i : Rat) / n - 1 / 2
      cis (devPhase bt devs (-1 / 2) x + foff * x / nbBaud cfg))
    let sig := if n = 0 then 0 else cNorm (cDot y.1 ref) / n
    (sig, rSum (y.1.map cNorm) - sig))
  ratio (rSum (e.map (·.1))) (rSum (e.map (·.2)))

end Sys2Proof.Machine
end

