-- ==== Sys2Proof/Machine/Combine.lean ====
section
/-!
DEFINITION. What the port front-ends, T-units and D-units compute from the samples of a burst (05): detection and S9, offset
and channel estimates, combining and user separation, soft values (06 R168), and the quality of a frame.
-/
namespace Sys2Proof.Machine

-- Detection (R122) and the S9 search (R123).

/-- Sample k before the newest for the sums of the chapter: one that carries TX_ACTIVE is left out (R119). -/
def rxVal (s : State) (p : Nat) (xs : List Int) (k : Nat) : Int :=
  let w := rxAt s p xs k
  if wordTx w then 0 else wordCode w

/-- The samples of port p in a row. -/
def rxOfPort (rx : Rx) (p : Nat) : List Int := rx.toList.getD p []

/-- c(n) and e(n) at the sample j before the newest, summed over ports (R122). -/
def detC (s : State) (ports : List Nat) (rx : Rx) (j : Nat) : Int :=
  (ports.map (fun p => ((List.range 1024).map (fun i =>
    rxVal s p (rxOfPort rx p) (j + i) * rxVal s p (rxOfPort rx p) (j + i + 256))).foldl (· + ·) 0)).foldl (· + ·) 0
def detE (s : State) (ports : List Nat) (rx : Rx) (j : Nat) : Int :=
  (ports.map (fun p => ((List.range 1024).map (fun i => rxVal s p (rxOfPort rx p) (j + i) ^ 2)).foldl (· + ·) 0)).foldl (· + ·) 0

/-- The sample that lies k before the newest is the 256th in a row with m(n) at DET_THR or above (R122). -/
def detects (s : State) (ports : List Nat) (rx : Rx) (k : Nat) : Bool :=
  (List.range 256).all (fun j =>
    decide (0 < detE s ports rx (k + j))
      && decide ((max 1 (objF s 0 0x520 31 26) : Nat) * detE s ports rx (k + j) ≤ 64 * detC s ports rx (k + j)))

/-- Sample i of the 256-sample sync symbol (04 R98). -/
def syncSample (pts : List TxPoint) (i : Nat) : Rat :=
  rSum (pts.map (fun t => (cMul (pointVal t) (cis ((t.k * i : Nat) / 4096))).re))

/-- A sample on the scale of the gain that the PGA has now (03 R72). -/
def rxLevel (s : State) (p : Nat) (xs : List Int) (k : Nat) : Rat :=
  let db : Rat := (objF s (pf p) 0x403 19 14 : Nat) - (pgaAt s p (now s - 2 * k) : Nat)
  rxVal s p xs k * pow10Q (db / 20)

/-- The correlation of a port with the sync symbol whose first sample lies b before the newest (R123). -/
def syncCorr (s : State) (pts : List TxPoint) (p : Nat) (rx : Rx) (b : Nat) : Rat :=
  rSum ((List.range 256).map (fun i => rxLevel s p (rxOfPort rx p) (b - i) * syncSample pts i))

/-- Summed magnitude at a position, and the sum with its sign (R123). -/
def corrMag (s : State) (pts : List TxPoint) (ports : List Nat) (rx : Rx) (b : Nat) : Rat :=
  rSum (ports.map (fun p => |syncCorr s pts p rx b|))
def corrSum (s : State) (pts : List TxPoint) (ports : List Nat) (rx : Rx) (b : Nat) : Rat :=
  rSum (ports.map (fun p => syncCorr s pts p rx b))

/-- The received power of a comb of unit energy from its correlation at a position (R125), on the scale of 04 R113. -/
def corrPower (s : State) (pts : List TxPoint) (ports : List Nat) (rx : Rx) (b : Nat) : Rat :=
  rSum (ports.map (fun p => (syncCorr s pts p rx b) ^ 2))
    / (256 * rSum ((List.range 256).map (fun i => syncSample pts i ^ 2)) * 8192 * 8192)

/-- The position of the largest of some values, the first of equals. -/
def argMax (f : Nat → Rat) (l : List Nat) : Nat := l.foldl (fun a b => if f a < f b then b else a) (l.headD 0)

/-- The magnitude has a peak at a position: neither neighbour is larger. -/
def corrPeak (s : State) (pts : List TxPoint) (ports : List Nat) (rx : Rx) (b : Nat) : Bool :=
  let m := corrMag s pts ports rx
  decide (m (b - 1) ≤ m b) && decide (m (b + 1) ≤ m b)

/-- An S9 stands at a position: three positive peaks and then a negative one of at least half their mean magnitude (R123). A
peak has the sign of the sum over the ports (log 158). -/
def s9At (s : State) (pts : List TxPoint) (ports : List Nat) (rx : Rx) (b : Nat) : Bool :=
  let m := corrMag s pts ports rx
  let before := [b + 256, b + 512, b + 768]
  corrPeak s pts ports rx b && decide (corrSum s pts ports rx b < 0)
    && before.all (fun c => corrPeak s pts ports rx c && decide (0 < corrSum s pts ports rx c))
    && decide (rSum (before.map m) ≤ 6 * m b)

/-- The S9 among the last 256 positions (R123, R125): where it stands, how far τ lies before the newest sample, and its
power. τ is the first position within 12 dB of the strongest. -/
def s9Find (s : State) (pts : List TxPoint) (ports : List Nat) (rx : Rx) : Option (Nat × Rat) :=
  let pos := (List.range 256).map (· + 256)
  let hits := pos.filter (s9At s pts ports rx)
  if hits.isEmpty then none
  else
    let m := corrMag s pts ports rx
    let b := argMax m hits
    let near12 := pos.filter (fun c => decide (m b * pow10Q (-12 / 20) ≤ m c))
    some (near12.foldl max b, corrPower s pts ports rx b)

/-- The power of an attempt in SYNC (R125, R126), detected at TB `det`: the mean over the sync symbols received so far, from
the first of its detection's samples on, of the largest power in each (log 123). -/
def syncPower (s : State) (pts : List TxPoint) (ports : List Nat) (rx : Rx) (det : Nat) : Rat :=
  let n := (rxTb s - det) / 2 + 1280
  rMean ((List.range (n / 256)).map (fun j =>
    ((List.range 256).map (fun i => corrPower s pts ports rx (n - 1 - 256 * j - i))).foldl max 0))

-- Offsets (R132, R133).

/-- The least-squares slope through the origin, in turns per unit of n, of the angles of values, weighted by their
magnitudes. -/
def lsSlope (l : List (Rat × Cx)) : Rat :=
  ratio (rSum (l.map (fun e => sqrtQ (cNorm e.2) * e.1 * argTurn e.2))) (rSum (l.map (fun e => sqrtQ (cNorm e.2) * e.1 * e.1)))

/-- Position of sample m of a burst at t0 in a row's samples, counted back from the newest, with an offset in 0.01 ppm
removed (04 R111, R131). -/
def burstPos (s : State) (t0 : Nat) (off m : Rat) : Rat := ((rxTb s : Rat) - t0) / 2 - m / (1 + off / 100000000)

/-- Carrier k of the n-sample window that begins at sample o of a burst: the amplitude share of full scale, halved. -/
def windowAt (s : State) (xs : List Int) (t0 : Nat) (off : Rat) (o n : Nat) (k : Nat) : Cx :=
  cScale (1 / (n * 8192)) (cSum ((List.range n).map (fun i =>
    cScale (backAt xs (burstPos s t0 off (o + i : Nat))) (cis (-((k * i : Nat) : Rat) / 4096)))))

/-- The spectrum of a symbol's FFT window on the carriers of the profile, from 37 on. -/
def spectrum (s : State) (low : Bool) (xs : List Int) (t0 : Nat) (off : Rat) (o : Nat) : List Cx :=
  (carriers low).map (windowAt s xs t0 off o 4096)

/-- A value of a per-carrier list. -/
def atC (l : List Cx) (k : Nat) : Cx := l.getD (k - 37) ⟨0, 0⟩

/-- Port p sent nothing from sample a up to b of a burst (R119). -/
def quietIn (s : State) (p t0 a b : Nat) : Bool := !txIn s p (t0 + 2 * a) (t0 + 2 * b)

/-- The coarse residual in 0.01 ppm (R132): the phase advance between consecutive sync symbols S0 to S8, by carrier 16j, over
the ports that sent in neither (R119). -/
def coarseOffset (s : State) (pts : List TxPoint) (ports : List Nat) (rx : Rx) (t0 : Nat) (preset : Rat) : Rat :=
  100000000 * lsSlope (pts.map (fun t => ((t.k / 16 : Nat), cSum (ports.flatMap (fun p => ((List.range 8).filter (fun i => quietIn s p t0 (256 * i) (256 * i + 512))).map (fun i =>
    let y := fun j => windowAt s (rxOfPort rx p) t0 preset (256 * j) 256 t.k
    cMul (y (i + 1)) (cConj (y i))))))))

/-- T(k)* (04 R96, R97). -/
def trainConj (k : Nat) : Cx := cis (-((2 * rotOf k + 1 : Nat) : Rat) / 8)

/-- A value turned back by the advance of an offset, in 0.01 ppm, over o samples on carrier k (R133). -/
def unturn (off : Rat) (o k : Nat) (z : Cx) : Cx := cMul z (cis (-(k * o : Nat) * off / 100000000 / 4096))

-- Channel estimation (R135).

/-- Sample n of the impulse estimate lies in the window of user u (R135). -/
def userWindow (multi : Bool) (gi u n : Nat) : Bool :=
  if !multi then decide (3968 ≤ n ∨ n ≤ giSamples gi + 127)
  else if u = 0 then decide (3968 ≤ n ∨ n ≤ 1231) else if u = 1 then decide (1232 ≤ n ∧ n ≤ 2591) else decide (2592 ≤ n ∧ n ≤ 3951)

/-- The impulse estimate of 4096 samples from values on carriers, those of masked carriers zero (R135). -/
def impulse (low : Bool) (masked : Nat → Bool) (g : List Cx) : List Cx :=
  (List.range 4096).map (fun n => cScale (1 / 4096) (cSum (((carriers low).filter (fun k => !masked k)).map (fun k =>
    cMul (atC g k) (cis ((k * n : Nat) / 4096))))))

/-- The one-tap estimates of a user: the part in its window transformed back, its training delay c_u taken out (04 R99,
R135). -/
def userTaps (low multi : Bool) (gi u : Nat) (h : List Cx) : List Cx :=
  (carriers low).map (fun k => cMul (cis ((1360 * u * k : Nat) / 4096)) (cSum (h.zipIdx.map (fun e =>
    if userWindow multi gi u e.2 then cMul e.1 (cis (-((k * e.2 : Nat) : Rat) / 4096)) else ⟨0, 0⟩))))

/-- The training noise per carrier: the energy outside every granted user's window, scaled to the whole period (R135,
R136). -/
def trainNoise (multi : Bool) (gi carriersUsed : Nat) (users : List Nat) (h : List Cx) : Rat :=
  let out := h.zipIdx.filter (fun e => !users.any (fun u => userWindow multi gi u e.2))
  ratio (4096 * 4096 * rSum (out.map (fun e => cNorm e.1))) (out.length * carriersUsed)

/-- Unmasked carriers of a profile. -/
def usedCarriers (low : Bool) (masked : Nat → Bool) : List Nat := (carriers low).filter (fun k => !masked k)

/-- The energy of taps, mean over the unmasked carriers. -/
def tapEnergy (low : Bool) (masked : Nat → Bool) (h : List Cx) : Rat :=
  rMean ((usedCarriers low masked).map (fun k => cNorm (atC h k)))

/-- The training symbols of a port, divided by T(k), from the windows of T1 and T2 (R135). -/
def trainedAt (s : State) (low : Bool) (masked : Nat → Bool) (xs : List Int) (t0 : Nat) (off : Rat) (o : Nat) : List Cx :=
  (carriers low).map (fun k => if masked k then ⟨0, 0⟩ else cMul (windowAt s xs t0 off o 4096 k) (trainConj k))

/-- What a burst's training symbols give (R132, R133, R135): per user its fine residual in 0.01 ppm, the taps from T1, and
the channel of each port for the granted users. -/
structure Training where
  fine : List Rat
  first : List (Nat × List (List Cx))
  ests : List PortEst

/-- The training of a burst on ports (R132, R133, R135). A single user's residual comes from the whole estimate, each user of
several from its own window, over the contributing ports `con` (R119), and T1 and T2 are averaged with it taken out. `bad`
lists the windows, 0 for T1 and 1 for T2, that were impulsive: such a symbol leaves out its port (R144). -/
def training (s : State) (low : Bool) (masked : Nat → Bool) (gi : Nat) (users ports con : List Nat) (bad : List (Nat × Nat))
    (rx : Rx) (t0 : Nat) (off : Rat) : Training :=
  let multi := decide (1 < users.length)
  let ok := fun p w => !bad.contains (p, w)
  let ports := ports.filter (fun p => ok p 0 || ok p 1)
  let t := ports.map (fun p =>
    let g := fun o => trainedAt s low masked (rxOfPort rx p) t0 off o
    let w := fun o u => if multi then userTaps low true gi u (impulse low masked (g o)) else g o
    (p, users.map (fun u => (w 2976 u, w 7072 u)), g))
  let fine := users.zipIdx.map (fun u => 100000000 * lsSlope ((usedCarriers low masked).map (fun (k : Nat) => ((k : Rat), cSum ((t.filter (fun x => con.contains x.1 && ok x.1 0 && ok x.1 1)).map (fun x =>
    let y := x.2.1.getD u.2 ([], [])
    cMul (atC y.2 k) (cConj (atC y.1 k))))))))
  let turned := fun (o : Nat) (f : Rat) (l : List Cx) => (carriers low).map (fun k => unturn f o k (atC l k))
  let avg := fun (p : Nat) (a b : List Cx) =>
    if ok p 0 && ok p 1 then List.zipWith (fun x y => cScale (1 / 2) (cAdd x y)) a b else if ok p 0 then a else b
  let one := fun (p : Nat) (g : Nat → List Cx) (f : Rat) =>
    impulse low masked (avg p (turned 2976 f (g 2976)) (turned 7072 f (g 7072)))
  let m := (usedCarriers low masked).length
  { fine := fine
    first := t.map (fun x => (x.1, users.zipIdx.map (fun u =>
      let f := fine.getD u.2 0
      let a := turned 2976 f (x.2.1.getD u.2 ([], [])).1
      if multi then a else userTaps low false gi u.1 (impulse low masked a))))
    ests := t.map (fun x =>
      { port := x.1
        h := users.zipIdx.map (fun u =>
          let f := fine.getD u.2 0
          let y := x.2.1.getD u.2 ([], [])
          if multi then avg x.1 (turned 2976 f y.1) (turned 7072 f y.2) else userTaps low false gi u.1 (one x.1 x.2.2 f))
        noise := trainNoise multi gi m users (one x.1 x.2.2 (if multi then 0 else fine.headD 0)) }) }

-- Combining and user separation (R138 to R141).

/-- N_p(b, g), negative where it has no observation (R145). -/
def noiseMap (s : State) (p bin g : Nat) : Rat := smGet (fun _ => -1) s.bb.noise (1536 * p + 24 * bin + g)

/-- The channel of a port. -/
def estOf (c : RxChan) (p : Nat) : PortEst := (c.ests.find? (fun e => e.port == p)).getD default

/-- σ²_p(k) of R138; none for a frame control, which no bin concerns. -/
def noiseVar (s : State) (c : RxChan) (p : Nat) (bin : Option Nat) (k : Nat) : Rat :=
  match bin with
  | some b => max (estOf c p).noise (noiseMap s p b ((k - 37) / 72))
  | none => (estOf c p).noise

/-- The least-interference estimate of one user of a carrier (R139, R140): y less the soft means of the others, weighted by
the inverse of the noise and of the others' residual variances; its value and post-detection variance. With no others it is
maximum-ratio combining. `h` lists each user's taps over the ports. -/
def separate (h : List (List Cx)) (v : List Rat) (y : List Cx) (others : List (Cx × Rat)) (u : Nat) : Option (Cx × Rat) :=
  let n := y.length
  let hu := h.getD u []
  let ws := (List.range h.length).filter (fun w => decide (w ≠ u))
  let ent := fun (l : List Cx) i => l.getD i ⟨0, 0⟩
  let r := fun i j => cSum ((if i = j then [cx (v.getD i 0)] else []) ++ ws.map (fun w =>
    cScale (others.getD w (⟨0, 0⟩, 1)).2 (cMul (ent (h.getD w []) i) (cConj (ent (h.getD w []) j)))))
  let z := solveCx ((List.range n).map (fun i => (List.range n).map (r i) ++ [ent hu i]))
  let den := (cDot hu z).re
  let y' := (List.range n).map (fun i => cSub (ent y i) (cSum (ws.map (fun w =>
    cMul (others.getD w (⟨0, 0⟩, 1)).1 (ent (h.getD w []) i)))))
  if den ≤ 0 then none else some (cScale (1 / den) (cDot y' z), 1 / den)

/-- All groups of n bits. -/
def bitGroups (n : Nat) : List (List Bool) := (List.range (2 ^ n)).map (bitsOf n)

/-- The point of a group of bits before the rotation of its carrier. -/
def pointOf (b : List Bool) : Cx := pointVal { qamPoint 37 b with rot := 0 }

/-- U(k) (04 R97). -/
def carrierTurn (k : Nat) : Cx := cis (rotOf k / 4)

/-- Max-log demapping of a value with its variance (R139): the LLR of each of n bits. -/
def demap (n : Nat) (z : Cx) (v : Rat) : List Rat :=
  (List.range n).map (fun i =>
    let d := fun (x : Bool) => ((bitGroups n).filter (fun b => b.getD i false == x)).map (fun b => cNorm (cSub z (pointOf b)))
    let least := fun (l : List Rat) => l.foldl min (l.headD 0)
    (least (d true) - least (d false)) / v)

/-- Carriers of a symbol with the indices, within the symbol, of the coded bits they carry (04 R100, R102, R103). -/
abbrev BitPlan := List (Nat × List Nat)

/-- A repeated block of m values. -/
def repPlan (low : Bool) (masked : Nat → Bool) (m : Nat) : BitPlan :=
  ((List.range (repCount low)).map (· + 37)).filterMap (fun k =>
    if masked k then none else some (k, [2 * ((k - 37) % m), 2 * ((k - 37) % m) + 1]))

/-- Bits b(k) on each carrier in turn. -/
def mapPlan (low : Bool) (masked : Nat → Bool) (b : Nat → Nat) : BitPlan :=
  ((usedCarriers low masked).foldl (fun (a : BitPlan × Nat) k =>
    if b k = 0 then a else ((k, (List.range (b k)).map (· + a.2)) :: a.1, a.2 + b k)) ([], 0)).1.reverse

/-- Soft values of a symbol's coded bits (R141, 06 R168): U(k) removed, the LLRs of all copies added, then rounded and
limited. -/
def planSoft (plan : BitPlan) (cap : Nat) (eq : Nat → Option (Cx × Rat)) : List Int :=
  let l := plan.flatMap (fun e => match eq e.1 with
    | none => []
    | some (z, v) => e.2.zip (demap e.2.length (cMul z (cConj (carrierTurn e.1))) v))
  (List.range cap).map (fun t => clampInt (-7) 7 (roundNear 168 (rSum ((l.filter (fun e => e.1 == t)).map (·.2)))))

/-- The points of a plan under bits: U(k) times the constellation point. -/
def planPoint (plan : BitPlan) (bits : Nat → Bool) (k : Nat) : Option Cx :=
  (plan.find? (fun e => e.1 == k)).map (fun e => cMul (pointOf (e.2.map bits)) (carrierTurn k))

-- Frames.

/-- Bits per carrier of a stored map: values 13 to 15 act as 0 (04 R101). -/
def mapBitsIn (b : Bytes) (k : Nat) : Nat :=
  let v := byteAt b ((k - 37) / 2)
  let n := if (k - 37) % 2 = 0 then v / 16 else v % 16
  if n ≤ 12 then n else 0

/-- A carrier is masked for a frame. -/
def frameMasked (f : RxFrame) (k : Nat) : Bool := nbit (byteAt f.mask ((k - 37) / 8)) (7 - (k - 37) % 8)

/-- The plan of a payload symbol of a frame, by the slot index of its map. -/
def framePlan (f : RxFrame) (idx : Nat) : BitPlan :=
  if f.map = 0 then repPlan f.low (frameMasked f) (repCount f.low / 4)
  else if f.map = 1 then repPlan f.low (frameMasked f) (repCount f.low / 8)
  else mapPlan f.low (frameMasked f) (fun k => if f.map = 3 then f.ubits else mapBitsIn (f.maps.getD idx []) k)

/-- The coded bits of a payload symbol of a frame (04 R102, R103). -/
def frameCap (f : RxFrame) (idx : Nat) : Nat :=
  if f.map = 0 then repCount f.low / 2 else if f.map = 1 then repCount f.low / 4
  else (framePlan f idx).foldl (fun a e => a + e.2.length) 0

/-- First stream position of symbol i of a frame. -/
def symBase (f : RxFrame) (i : Nat) : Nat := (f.obs.filter (fun o => decide (o.i < i))).foldl (fun a o => a + frameCap f o.idx) 0

/-- Ports that a symbol of a frame is combined over: those not excluded, and of the stepped ones those before their step or
re-estimated (R144, R147). -/
def symPorts (f : RxFrame) (o : RxObs) : List Nat :=
  o.ports.filter (fun p => match f.stepAt.find? (fun e => e.1 == p) with
    | some e => decide (o.i < e.2) || f.again.any (fun r => r.1 == p)
    | none => true)

/-- The tap of the user at a place of the channel record on a port for a payload symbol, turned by its residual offset
(R133, R137, R147). -/
def tapAt (f : RxFrame) (o : RxObs) (p ui k : Nat) : Cx :=
  let held := ((estOf f.chan p).h.getD ui [])
  let l := match f.stepAt.find? (fun e => e.1 == p), f.again.find? (fun r => r.1 == p) with
    | some e, some r => if e.2 ≤ o.i then r.2.getD ui [] else held
    | _, _ => held
  unturn (-(f.chan.rot.getD ui 0)) (16384 + o.i * (4096 + giSamples f.gi)) k (atC l k)

/-- What one port received in a symbol. -/
def obsAt (o : RxObs) (p k : Nat) : Cx := match o.y.find? (fun e => e.1 == p) with | some e => atC e.2 k | none => ⟨0, 0⟩

/-- The separated value of a frame's user on a carrier of a symbol, with the others' soft symbols (R139, R140). -/
def eqAt (s : State) (f : RxFrame) (o : RxObs) (ui : Nat) (others : List (Cx × Rat)) (k : Nat) : Option (Cx × Rat) :=
  let ps := symPorts f o
  separate ((List.range f.chan.users.length).map (fun w => ps.map (fun p => tapAt f o p w k)))
    (ps.map (fun p => noiseVar s f.chan p (some o.bin) k)) (ps.map (fun p => obsAt o p k)) others ui

/-- The fit held with a frame. -/
def fitOf (f : RxFrame) : Fit :=
  ⟨f.fit.getD 0 0, f.fit.getD 1 0, f.fit.getD 2 0, f.fit.getD 3 0, f.fit.getD 4 0, f.fit.getD 5 0⟩

/-- The codeword and index of a stream position of a broadband frame (06 R160, R164). -/
def streamBit (f : RxFrame) (t : Nat) : Nat × Nat :=
  let ord := furrowBlock (fitOf f) f.rate 96 0 f.cws.length
  ord.getD (if ord.length = 0 then 0 else t % ord.length) (0, 0)

/-- The decided bit and the extrinsic value of a stream position (R140, 06 R175). -/
def streamHard (f : RxFrame) (t : Nat) : Bool :=
  let e := streamBit f t
  decide ((f.cws.getD e.1 default).post.getD e.2 0 < 0)
def streamExt (f : RxFrame) (t : Nat) : Int :=
  let e := streamBit f t
  let w := f.cws.getD e.1 default
  w.post.getD e.2 0 - w.inp.getD e.2 0

/-- Every codeword of a frame has converged: its symbols are certain (06 R175). -/
def allConverged (f : RxFrame) : Bool := f.cws.all (fun w => decide (w.ph = .converged))

/-- The probability of a bit given its LLR. -/
def bitProb (l : Int) (b : Bool) : Rat := 1 / (1 + expQ (if b then l else -l))

/-- Mean and variance of a user's symbol on a carrier from the decoder's extrinsic values (R140); nothing on a carrier that
the user leaves unused. -/
def softSymbol (f : RxFrame) (o : RxObs) (k : Nat) : Cx × Rat :=
  match (framePlan f o.idx).find? (fun e => e.1 == k) with
  | none => (⟨0, 0⟩, 0)
  | some e =>
    let t := fun i => symBase f o.i + i
    if allConverged f then (cMul (pointOf (e.2.map (fun i => streamHard f (t i)))) (carrierTurn k), 0)
    else
      let w := (bitGroups e.2.length).map (fun b =>
        ((e.2.zip b).foldl (fun (a : Rat) x => a * bitProb (streamExt f (t x.1)) x.2) 1, pointOf b))
      let m := cSum (w.map (fun x => cScale x.1 x.2))
      (cMul m (carrierTurn k), rSum (w.map (fun x => x.1 * cNorm x.2)) - cNorm m)

/-- The frame of another user of the same multi-user slot, ended or not. -/
def mateOf (s : State) (f : RxFrame) (u : Nat) : Option RxFrame :=
  (s.dec.frames ++ s.dec.past).find? (fun x => x.set == f.set && x.group == f.group && x.nb.isNone && x.uidx == u)

/-- A user's frame ended before a symbol: it sends nothing there. -/
def userOver (f : RxFrame) (u : Nat) (o : RxObs) : Bool := f.ends.any (fun e => decide (e.1 = u ∧ e.2 ≤ o.i))

/-- What another user sends on a carrier of a symbol as the decoder has it (R140), `unknown` for one without a frame. -/
def mateSymbol (s : State) (f : RxFrame) (u : Nat) (unknown : Cx × Rat) (o : RxObs) (k : Nat) : Cx × Rat :=
  if userOver f u o then (⟨0, 0⟩, 0) else match mateOf s f u with | some x => softSymbol x o k | none => unknown

/-- The others' soft symbols for a frame's user (R140): unknown in the first round and for users without a frame; nothing
past the end of a user's frame. -/
def othersAt (s : State) (f : RxFrame) (o : RxObs) (k : Nat) : List (Cx × Rat) :=
  f.chan.users.map (fun u =>
    if f.round = 0 && !userOver f u o then (⟨0, 0⟩, 1) else mateSymbol s f u (⟨0, 0⟩, 1) o k)

/-- Place of a frame's user in the channel record. -/
def userPlace (f : RxFrame) : Nat := f.chan.users.idxOf f.uidx

/-- Fewer ports remain for a symbol than there are users: it is written as erasures (R144). -/
def symLost (f : RxFrame) (users : Nat) (o : RxObs) : Bool := decide ((symPorts f o).length < max 1 users)

/-- Soft values of a payload symbol of a frame (R139 to R144). -/
def symSoft (s : State) (f : RxFrame) (o : RxObs) : List Int :=
  let n := frameCap f o.idx
  if symLost f f.acc o then List.replicate n 0
  else planSoft (framePlan f o.idx) n (fun k => eqAt s f o (userPlace f) (othersAt s f o k) k)

-- Quality (R149, R150).

/-- Quality of a frame (R149, R150): minus EVM in dB, the SNR of each port in dB, the post-detection SNR of each carrier, and
that of each port and carrier. -/
structure FrameQuality where
  db : Rat
  portDb : List Rat
  carrier : List Rat
  portCarrier : List (List Rat)
deriving DecidableEq, Repr, Inhabited

/-- The decided point of a carrier: of the decoded bits, or the nearest to the separated value (R149). -/
def decidedPoint (f : RxFrame) (ok : Bool) (o : RxObs) (e : Nat × List Nat) (z : Cx) : Cx :=
  if ok then cMul (pointOf (e.2.map (fun i => streamHard f (symBase f o.i + i)))) (carrierTurn e.1)
  else
    let y := cMul z (cConj (carrierTurn e.1))
    let c := (bitGroups e.2.length).map pointOf
    cMul (c.foldl (fun a b => if cNorm (cSub y b) < cNorm (cSub y a) then b else a) (c.headD ⟨0, 0⟩)) (carrierTurn e.1)

/-- The error and the energy of a carrier in each symbol after combining or separation (R149); an unused carrier carries
zero. -/
def carrierErrors (s : State) (f : RxFrame) (ok : Bool) (k : Nat) : List (Rat × Rat) :=
  f.obs.filterMap (fun o =>
    if symLost f f.acc o then none
    else (eqAt s f o (userPlace f) (othersAt s f o k) k).map (fun z =>
      let x := match (framePlan f o.idx).find? (fun e => e.1 == k) with
        | some e => decidedPoint f ok o e z.1
        | none => ⟨0, 0⟩
      (cNorm (cSub z.1 x), cNorm x)))

/-- What a port received on a carrier of a symbol less every user's decided or soft symbol (R145, R150). -/
def residualAt (s : State) (f : RxFrame) (o : RxObs) (p k : Nat) : Cx :=
  cSub (obsAt o p k) (cSum (f.chan.users.zipIdx.map (fun u =>
    let x := if u.1 = f.uidx then softSymbol f o k else mateSymbol s f u.1 (⟨0, 0⟩, 0) o k
    cMul (tapAt f o p u.2 k) x.1)))

/-- SNR of a port on a carrier (R150): against the final decisions where the CRC passed, from training otherwise. -/
def portCarrierSnr (s : State) (f : RxFrame) (ok : Bool) (p k : Nat) : Rat :=
  let h := cNorm (atC ((estOf f.chan p).h.getD (userPlace f) []) k)
  let os := f.obs.filter (fun o => if f.contrib.contains p then (symPorts f o).contains p else o.y.any (fun e => e.1 == p))
  if ok ∧ !os.isEmpty then ratio h (rMean (os.map (fun o => cNorm (residualAt s f o p k)))) else ratio h (estOf f.chan p).noise

/-- Carriers that a frame's payload uses. -/
def payloadCarriers (f : RxFrame) : List Nat :=
  (carriers f.low).filter (fun k => f.obs.any (fun o => (framePlan f o.idx).any (fun e => e.1 == k)))

/-- The quality of a broadband frame (R149, R150). With no payload carrier received, EVM is left free (log 120). -/
def frameQuality (s : State) (f : RxFrame) (ok : Bool) : FrameQuality :=
  let pk := payloadCarriers f
  let e := pk.flatMap (carrierErrors s f ok)
  { db := if e.isEmpty then Config.figure 149 [f.id] / 10 else -dbOf (ratio (rSum (e.map (·.1))) (rSum (e.map (·.2))))
    portDb := (List.range 6).map (fun p => rMean (pk.map (fun k => max (-10) (min 50 (dbOf (portCarrierSnr s f ok p k))))))
    carrier := (carriers f.low).map (fun k =>
      let l := carrierErrors s f ok k
      if l.isEmpty then -120 else -dbOf (rMean (l.map (·.1))))
    portCarrier := (List.range 6).map (fun p => (carriers f.low).map (fun k => dbOf (portCarrierSnr s f ok p k))) }

/-- EVM as reported, in 0.1 dB (R149). -/
def evmOf (q : FrameQuality) : Nat := (clampInt 0 65535 (roundAny 149 (10 * q.db))).toNat

-- Re-estimation after a step (R147).

/-- New one-tap estimates of a stepped port for every user, by least squares over the symbols since its step and the
decoder's soft symbols. -/
def newTaps (s : State) (f : RxFrame) (p at_ : Nat) : List (List Cx) :=
  let os := f.obs.filter (fun o => o.ports.contains p && decide (at_ ≤ o.i))
  let us := f.chan.users
  let x := fun (o : RxObs) k (u : Nat × Nat) =>
    let m := if u.1 = f.uidx then softSymbol f o k else mateSymbol s f u.1 (⟨0, 0⟩, 0) o k
    (unturn (-(f.chan.rot.getD u.2 0)) (16384 + o.i * (4096 + giSamples f.gi)) k m.1, m.2)
  let taps := (carriers f.low).map (fun k =>
    solveCx (us.zipIdx.map (fun u =>
      us.zipIdx.map (fun v => cSum (os.map (fun o =>
        cAdd (cMul (cConj (x o k u).1) (x o k v).1) (if u.2 = v.2 then cx (x o k u).2 else ⟨0, 0⟩))))
      ++ [cSum (os.map (fun o => cMul (cConj (x o k u).1) (obsAt o p k)))])))
  us.zipIdx.map (fun u => taps.map (fun t => t.getD u.2 ⟨0, 0⟩))

-- The noise map (R145).

/-- NOISE_AVG's weight, 2^-(NOISE_AVG + 2). -/
def noiseWeight (s : State) : Rat := 1 / (2 ^ (objF s 0 0x521 5 3 + 2) : Nat)

/-- N_p(b, g) takes a noise power per carrier; the first observation sets it. -/
def noisePut (p bin g : Nat) (v : Rat) (s : State) : State :=
  let old := noiseMap s p bin g
  { s with bb := { s.bb with
      noise := smPut (fun _ => -1) (1536 * p + 24 * bin + g) (if old < 0 then v else old + noiseWeight s * (v - old)) s.bb.noise } }

/-- Carriers of a group that a list holds (04 R108). -/
def inGroup (g : Nat) (l : List Nat) : List Nat := l.filter (fun k => decide ((k - 37) / 72 = g))

/-- A frame whose payload CRC passes refines the noise map: per symbol, port and carrier group, from the residual against
the final decisions (R145). -/
def residualNoise (f : RxFrame) (s : State) : State :=
  f.obs.foldl (fun t o => (symPorts f o).foldl (fun t p => (List.range 24).foldl (fun t g =>
    let ks := inGroup g (usedCarriers f.low (frameMasked f))
    if ks.isEmpty then t else noisePut p o.bin g (rMean (ks.map (fun k => cNorm (residualAt s f o p k)))) t) t) t) s

end Sys2Proof.Machine
end

