-- ==== Sys2Proof/Machine/Decoder.lean ====
section
/-!
DEFINITION. The codec (06): Furrow reservations, codewords and rounds, iterations, budgets, lag and reprieves, takeover,
delivery, and its commands; spare units of 01 R521 and the CAPACITY word (01 R21).
-/
namespace Sys2Proof.Machine

/-- Replace the codec's record. -/
def setDec (f : DecSt → DecSt) (s : State) : State := { s with dec := f s.dec }

/-- Replace the broadband record; the receiver of a group. -/
def setBb (f : BbSt → BbSt) (s : State) : State := { s with bb := f s.bb }
def rxOf (s : State) (g : Nat) : GrpRx := vAt s.bb.grp g
def setRx (g : Nat) (f : GrpRx → GrpRx) (s : State) : State :=
  setBb (fun b => { b with grp := vSet b.grp g (f (vAt b.grp g)) }) s

/-- Replace the narrowband record; channel record i = 8 × group + channel. -/
def setNb (f : NbSt → NbSt) (s : State) : State := { s with nb := f s.nb }
def nbOf (s : State) (i : Nat) : NbRx := vAt s.nb.rx i
def setNbRx (i : Nat) (f : NbRx → NbRx) (s : State) : State :=
  setNb (fun b => { b with rx := vSet b.rx i (f (vAt b.rx i)) }) s

/-- Fields of DEC_CFG as the device uses them (06). -/
def iterMax (s : State) : Nat := min 50 (max 1 (objF s 0 0x540 31 26))
def iterMin (s : State) : Nat := min (iterMax s) (max 1 (objF s 0 0x540 25 21))
def outerN (s : State) : Nat := objF s 0 0x540 20 19 + 1
def innerMin (s : State) : Nat := max 1 (objF s 0 0x540 18 16)
def nbIter (s : State) : Nat := min 50 (max 1 (objF s 0 0x540 15 10))
/-- DEC_LAG × 250 µs in ticks. -/
def lagTicks (s : State) : Nat := 100000 * max 1 (objF s 0 0x540 9 6)
def eraseImp (s : State) : Nat := objF s 0 0x540 5 2
/-- I_CAP and LAG in force. -/
def iCap (s : State) : Nat := objF s 0 0x541 31 26
def lagMode (s : State) : Bool := objF s 0 0x541 25 25 == 1

/-- Active L-units (R178). -/
def activeL (s : State) : Nat := ((List.range 20).filter (fun c => clUsable s c)).length

/-- O_eff of a budget (R175). -/
def oEff (s : State) (i : Nat) : Nat := max 1 (min (outerN s) (i / innerMin s))

/-- Iterations of round r, from 0, of a budget over o rounds (R175). -/
def roundIters (i o r : Nat) : Nat := i / o + (if r < i % o then 1 else 0)

/-- The cap of R178; the precedence work in whole iteration slots of 200 clocks, rounded down: DESIGN CHOICE (log 155). -/
def capNow (s : State) : Nat :=
  let n := s.dec.cwPrev
  let b := activeL s * (s.dec.clocksPrev / 200) - s.dec.precPrev / 200
  if n = 0 then iterMax s else min (iterMax s) (max (iterMin s) (b / n))

/-- i_cap is recomputed; DECODE_THROTTLE and DECODE_NORMAL (R178, R182). -/
def recomputeCap (s : State) : State :=
  let c := capNow s
  let old := s.dec.capSaid
  let s := setF 0 0x541 31 26 c s
  let s := setF 0 0x541 24 23 (oEff s c - 1) s
  let s := setF 0 0x541 22 18 (activeL s) s
  let s := setDec (fun d => { d with capSaid := if c < iterMax s then c else 0 }) s
  if c < iterMax s then (if c = old then s else raise 76 0 .decodeThrottle (beBytes 1 c) s)
  else if old ≠ 0 then raise 76 0 .decodeNormal [] s else s

/-- The frame with an id; replace it. -/
def decFrame (s : State) (id : Nat) : Option RxFrame := s.dec.frames.find? (fun f => f.id == id)
def setFrame (f : RxFrame) (s : State) : State :=
  setDec (fun d => { d with frames := d.frames.map (fun x => if x.id = f.id then f else x) }) s

/-- Two frames are of one multi-user slot (R175). -/
def sameSlot (a b : RxFrame) : Bool := a.set == b.set && a.group == b.group && a.nb.isNone && b.nb.isNone

/-- A frame leaves the decoder; what ended frames of a slot leave goes with the last of them. -/
def dropFrame (id : Nat) (s : State) : State :=
  setDec (fun d =>
    let l := d.frames.filter (fun x => x.id != id)
    { d with frames := l, past := d.past.filter (fun x => l.any (fun y => sameSlot x y)) }) s

/-- A frame has ended: while others of its slot go on, its decisions are fed back (R175). -/
def retireFrame (f : RxFrame) (s : State) : State :=
  dropFrame f.id (setDec (fun d => { d with past := d.past ++ [f] }) s)

/-- Lift Z of a frame. -/
def zOf (f : RxFrame) : Nat := if f.nb.isSome then 12 else 96
/-- Indices of the shortened bits of codeword c. -/
def frozenOf (f : RxFrame) (c i : Nat) : Bool :=
  let k := kbOf f.rate * zOf f
  decide (k - (fitOf f).short c ≤ i) && decide (i < k)

/-- A codeword before its block is complete. -/
def newCw (resv : Nat) : DecCw := ⟨[], [], [], .filling, 0, 0, 0, 0, false, 0, false, false, none, none, resv⟩

/-- The codewords and reservations of a new frame (R166): 4 bits per coded bit. -/
def newCws (f : Fit) (z : Nat) (resv : Bool) : List DecCw :=
  (List.range f.n).map (fun c => newCw (if resv then 4 * f.sent z c else 0))

/-- A frame that is not stored is counted (R167). -/
def furrowFull (s : State) : State :=
  setDec (fun d => { d with fullNow := d.fullNow + 1 }) (bumpF 0 0x543 15 8 1 s)

/-- FURROW_FULL is raised once for a superframe in which frames were not stored, with their count (R167, 14 R418): as it
ends. -/
def furrowReport (s : State) : State :=
  let n := s.dec.fullNow
  let s := setDec (fun d => { d with fullNow := 0 }) s
  if n = 0 then s else raise 76 0 .furrowFull (beBytes 2 (min 0xFFFF n)) s

/-- A stored soft value: 4 bits, −7 to 7 (R168). -/
def softVal (q : Int) : Int := clampInt (-7) 7 q

/-- Inputs of the codewords of a Furrow block from its soft stream; repeated positions add up, saturating (R160, R168). -/
def deinterleave (f : Fit) (rate z c0 n : Nat) (soft : List Int) : List (List Int) :=
  let ord := (furrowBlock f rate z c0 n).toArray
  let len := ord.size
  let a0 : Array (Array Int) := ((List.range n).map (fun _ => (List.replicate (24 * z) (0 : Int)).toArray)).toArray
  let r := soft.foldl (fun (a : Array (Array Int) × Nat) q =>
    let p := ord.getD (if len = 0 then 0 else a.2 % len) (c0, 0)
    let row := a.1.getD (p.1 - c0) #[]
    let v := softVal (row.getD p.2 0 + softVal q)
    (a.1.setIfInBounds (p.1 - c0) (row.setIfInBounds p.2 v), a.2 + 1)) (a0, 0)
  r.1.toList.map (·.toList)

/-- Start values of the posteriors: inputs, shortened bits as known zeros (R169). -/
def startPost (f : RxFrame) (c : Nat) (inp : List Int) : List Int :=
  (List.range inp.length).map (fun i => if frozenOf f c i then 127 else inp.getD i 0)

/-- Codewords c0 to c0 + n − 1 take their inputs and wait for an L-unit (R174, R181). -/
def fillBlock (f : RxFrame) (c0 n : Nat) (soft : List Int) (now : W64) : RxFrame :=
  let ins := deinterleave (fitOf f) f.rate (zOf f) c0 n soft
  { f with cws := (List.range f.cws.length).map (fun c =>
      let w := f.cws.getD c (newCw 0)
      if c0 ≤ c ∧ c < c0 + n ∧ w.ph ≠ .failed then
        let inp := ins.getD (c - c0) []
        { w with inp := inp, post := startPost f c inp, msg := [], ph := .waiting, since := now }
      else w) }

/-- Codewords waiting for an L-unit, as frame and index, oldest first (R181). -/
def waitingCws (s : State) : List (Nat × Nat × W64) :=
  s.dec.frames.flatMap (fun f => (List.range f.cws.length).filterMap (fun c =>
    let w := f.cws.getD c (newCw 0)
    if w.ph = .waiting then some (f.id, c, w.since) else none))

/-- Codewords of precedence work among them: narrowband payloads (R177). -/
def precWait (s : State) (e : Nat × Nat × W64) : Bool :=
  match decFrame s e.1 with | some f => f.nb.isSome | none => false

/-- The entry that has waited longest. -/
def oldestWait (l : List (Nat × Nat × W64)) : Option (Nat × Nat × W64) :=
  l.foldl (fun a e => match a with
    | none => some e
    | some b => if e.2.2.toNat < b.2.2.toNat then some e else some b) none

/-- The codeword that an L-unit takes next: precedence work first, then in the order in which blocks completed (R177,
R181). -/
def nextCw (s : State) : Option (Nat × Nat) :=
  let l := waitingCws s
  let p := l.filter (fun e => precWait s e)
  (oldestWait (if p.isEmpty then l else p)).map (fun e => (e.1, e.2.1))

/-- QUEUE and FURROW_USE of DEC_STATUS. -/
def decQueue (s : State) : Nat := min 1023 ((waitingCws s).length / 64)
def furrowUse (s : State) : Nat :=
  (List.range 6).foldl (fun a g =>
    if groupExists s g ∧ poolBits s g ≠ 0 then max a (min 255 (poolUsed s g * 255 / poolBits s g)) else a) 0

/-- QUEUE and FURROW_USE follow the decoder's state (DEC_STATUS). -/
def decStatus (s : State) : State := setF 0 0x541 17 8 (decQueue s) (setF 0 0x541 7 0 (furrowUse s) s)

/-- Replace codeword c of a frame. -/
def setCw (f : RxFrame) (c : Nat) (w : DecCw) : RxFrame := { f with cws := f.cws.set c w }

/-- A codeword begins decoding on a cluster (R174, R175, R179, R181, R185): its budget is fixed, its inputs copied and
its reservation released. O_eff of a frame follows from the budget of its first codeword to begin, and a slot is multi-user
with more than one granted user: DESIGN CHOICES (log 154). -/
def beginCw (s : State) (f : RxFrame) (c cl : Nat) : RxFrame :=
  let w := f.cws.getD c (newCw 0)
  let first := decide (w.budget = 0)
  let budget := if !first then w.budget
    else if f.nb.isSome then nbIter s
    else if lagMode s then iterMin s else min (iterMax s) (iCap s)
  let rounds := if first ∧ f.rounds = 0 then (if f.users ≤ 1 ∨ f.nb.isSome then 1 else oEff s budget) else f.rounds
  let cap := if f.iCap = 0 then iCap s else f.iCap
  let left := if w.left = 0 then roundIters budget rounds f.round else w.left
  let w := { w with ph := .running cl, budget := budget, left := left, grant := left, resv := 0, ckpt := true, spare := none, away := none }
  { setCw f c w with rounds := rounds, iCap := cap, lag := f.lag || (first && lagMode s) }

/-- How many codewords a cluster is decoding. -/
def cwsOn (s : State) (cl : Nat) : Nat :=
  s.dec.frames.foldl (fun a f => a + (f.cws.filter (fun w => decide (w.ph = .running cl ∨ w.ph = .reprieved cl))).length) 0

/-- Narrowband codewords that a cluster is decoding. -/
def nbOn (s : State) (cl : Nat) : Bool :=
  s.dec.frames.any (fun f => f.nb.isSome && f.cws.any (fun w => decide (w.ph = .running cl)))

/-- Where a codeword restarts after a fault of its cluster: on the spare that took over (R186), or in the first of the other
regions, A to D, with an idle L-unit (R188). -/
def restartPlace (s : State) (w : DecCw) (cl : Nat) : Bool :=
  match w.spare, w.away with
  | some sp, _ => decide (cl = sp) || !clUsable s sp
  | none, some r =>
    let open_ := (List.range 20).filter (fun c => decide (c / 5 ≠ r) && clUsable s c)
    open_.isEmpty || (decide (cl / 5 ≠ r) && open_.all (fun c => decide (cl / 5 ≤ c / 5) || decide (cwsOn s c ≠ 0)))
  | none, none => true

/-- The last soft value of a block has been written and an L-unit takes the codeword that is next: precedence work at the
end of its current iteration, other work when it is idle (R174, R177, R181). -/
def execCodewordDecodeStart (frame : Nat) (cw : Nat) (cluster : Fin 20) (s : State) : Host.Outcome State Fault Refusal :=
  .next (match decFrame s frame with
    | none => s
    | some f =>
      let w := f.cws.getD cw (newCw 0)
      if decide (nextCw s = some (frame, cw)) && clUsable s cluster.val && restartPlace s w cluster.val
          && (if f.nb.isSome then !nbOn s cluster.val else decide (cwsOn s cluster.val = 0)) then
        decStatus (setF (cf cluster.val) 0x12 31 28 2 (setF (cf cluster.val) 0x12 0 0 1 (setFrame (beginCw s f cw cluster.val) s)))
      else s)

/-- A codeword has ended the present round. -/
def cwEnded (w : DecCw) : Bool :=
  match w.ph with | .roundEnd | .converged | .failed | .reprieve | .reprieved _ => true | _ => false

/-- Every codeword of every user of a frame has ended the round; a user that is further on, at its last round's end, or
converged as a whole is not waited for (R175). -/
def barrier (s : State) (f : RxFrame) : Bool :=
  (s.dec.frames.filter (fun x => sameSlot x f)).all (fun x =>
    decide (f.round < x.round) || (decide (x.round = f.round ∨ x.rounds ≤ x.round + 1) && x.cws.all cwEnded) || x.cws.all (fun w => decide (w.ph = .converged)))

/-- Posteriors under new inputs while the check messages stay (R174, R175): each moves by the change of its input. -/
def movePost (f : RxFrame) (c : Nat) (w : DecCw) (inp : List Int) : List Int :=
  (List.range w.post.length).map (fun i =>
    if frozenOf f c i then w.post.getD i 0 else sat8 (w.post.getD i 0 - w.inp.getD i 0 + inp.getD i 0))

/-- The soft values of a frame's stored symbols, from the D-units (05 R139 to R142). -/
def frameSoft (s : State) (f : RxFrame) : List Int := f.obs.flatMap (fun o => symSoft s f o)

/-- A frame enters its next round: its codewords that go on take inputs that the D-units form from the extrinsic values of
the round just ended (05 R140). They wait from the start of the round on: DESIGN CHOICE (log 156). -/
def nextRound (s : State) (f : RxFrame) : RxFrame :=
  let f := { f with round := f.round + 1 }
  let soft := frameSoft s f
  let ins := deinterleave (fitOf f) f.rate (zOf f) 0 f.cws.length soft
  { f with soft := soft, cws := (List.range f.cws.length).map (fun c =>
      let w := f.cws.getD c (newCw 0)
      match w.ph with
      | .roundEnd =>
        let inp := ins.getD c w.inp
        { w with inp := inp, post := movePost f c w inp, ph := .waiting, left := 0, since := s.clk.tb, ckpt := false }
      | _ => w) }

/-- A frame has a further round before it. -/
def roundsOn (f : RxFrame) : Bool := decide (f.round + 1 < f.rounds) && f.cws.any (fun w => decide (w.ph = .roundEnd))

/-- The next round of a multi-user slot starts for every frame of it that goes on (R175, R185). A user whose codewords have
all converged takes no further rounds. -/
def execOuterRoundStart (frame : Nat) (s : State) : Host.Outcome State Fault Refusal :=
  .next (match decFrame s frame with
    | none => s
    | some f =>
      if roundsOn f && barrier s f then
        setDec (fun d => { d with frames := d.frames.map (fun x =>
          if sameSlot x f && roundsOn x && x.round == f.round then nextRound s x else x) }) s
      else s)

/-- Bits of the frame from its codewords' decisions (R176). -/
def frameDecision (f : RxFrame) : List Bool :=
  let k := kbOf f.rate * zOf f
  (List.range f.cws.length).flatMap (fun c =>
    (hardBits ((f.cws.getD c (newCw 0)).post)).take (k - (fitOf f).short c))

/-- Bytes that bits spell. -/
def bytesOfBits (b : List Bool) : Bytes :=
  (List.range (b.length / 8)).map (fun i => BitVec.ofNat 8 (bitsToNat ((b.drop (8 * i)).take 8)))

/-- The payload check of a decided frame: CRC-32, or CRC-16 for narrowband (R157, 07 R206). -/
def payloadOk (f : RxFrame) (b : Bytes) : Bool :=
  if f.nb.isSome then beAt b f.bytes 2 == crc16 (b.take f.bytes) else beAt b f.bytes 4 == crc32 (b.take f.bytes)

/-- A 16-bit two's-complement field. -/
def be16s (v : Int) : Bytes := beBytes 2 (toBits 16 v)

/-- Per-port LQI of a frame (05 R150): 0 for a port that did not contribute. -/
def portLqis (ports : List Nat) (db : List Rat) : List Nat :=
  (List.range 6).map (fun p => if ports.contains p then lqiDb (db.getD p 0) else 0)

/-- The broadband receive report (05 R151). -/
def bbReport (f : RxFrame) (ok : Bool) (lqi : Nat) (evm : Nat) (pl : List Nat) : Bytes :=
  beBytes 2 f.node.toNat ++ beBytes 1 f.group
    ++ beBytes 1 (b2n (decide (1 < f.users)) + 2 * b2n (decide (f.step ≠ 0)) + 4 * b2n f.captured + 8 * b2n ok)
    ++ beBytes 1 (16 * f.present + f.uidx) ++ beBytes 1 lqi ++ beBytes 2 evm ++ be16s (roundAny 132 f.foff) ++ pl.map (BitVec.ofNat 8)
    ++ beBytes 2 f.impSyms ++ beBytes 1 f.step ++ beBytes 1 f.slot ++ beBytes 2 f.nsym ++ [0, 0] ++ beBytes 8 f.t0

/-- The narrowband receive report (07 R224). -/
def nbReport (f : RxFrame) (ok : Bool) (lqi : Nat) (lostC : Bool) (mod : Bool) (blk : Nat) : Bytes :=
  beBytes 2 f.node.toNat ++ beBytes 1 f.group ++ beBytes 1 (f.nb.getD 0)
    ++ beBytes 1 (b2n ok + 2 * b2n f.captured + 4 * b2n lostC + 8 * b2n mod + 16 * b2n f.armedEver)
    ++ beBytes 1 lqi ++ beBytes 1 f.errs ++ [0] ++ be16s (roundAny 224 (10 * f.foff)) ++ f.sq.map (BitVec.ofNat 8) ++ beBytes 2 f.erased
    ++ beBytes 1 f.bytes ++ beBytes 1 (64 * f.rate + 8 * blk) ++ beBytes 2 f.nsym ++ [0, 0] ++ beBytes 8 f.t0

/-- The decode report (06). -/
def decReport (f : RxFrame) (ok : Bool) : Bytes :=
  let n := f.cws.length
  let its := f.cws.map (·.iters)
  let sum := its.foldl (· + ·) 0
  beBytes 2 f.node.toNat ++ beBytes 1 f.group
    ++ beBytes 1 (b2n ok + 2 * b2n f.anyCap + 4 * b2n f.lag + 8 * b2n f.anyRep + 16 * b2n f.takeover)
    ++ beBytes 2 n ++ beBytes 2 (f.cws.filter (fun w => decide (w.ph ≠ .converged))).length
    ++ beBytes 2 (if n = 0 then 0 else 10 * sum / n) ++ beBytes 1 (its.foldl max 0) ++ beBytes 1 f.rounds ++ beBytes 1 f.iCap
    ++ [0] ++ beBytes 2 f.erased ++ beBytes 8 f.t0

/-- The SNR capture of BB_SNR_ARM (05 R150): a view as 1728 bytes, each round(4 × (s + 10)) limited to 1 to 255, zero
where the carrier is masked or outside the profile. -/
def snrView (f : RxFrame) (snr : List Rat) : Bytes :=
  (List.range 1728).map (fun i =>
    if frameMasked f (37 + i) || decide (lastCarrier f.low < 37 + i) then (0 : Byte)
    else BitVec.ofNat 8 (clampInt 1 255 (roundNear 1500 (4 * (snr.getD i 0 + 10)))).toNat)

/-- CONTRIB and BEST of LINK_PORT_RX, and the samples of the superframe's medians, from a frame's per-port LQIs (03 R82,
R84): a port in REMOVED_AUTO gives samples and contributes to nothing. -/
def phyPorts (ps : List Nat) (mon : List (Nat × Nat)) (s : State) : State :=
  let lq := fun p => match mon.find? (fun e => e.1 == p) with | some e => e.2 | none => 0
  let best := ps.foldl (fun a p => match a with
    | none => some p
    | some b => if lq b < lq p then some p else some b) none
  let s := ps.foldl (fun s p => bumpF (pf p) 0x710 31 16 1 s) s
  let s := mon.foldl (fun s e => setPort e.1 (fun k => { k with lqis := k.lqis ++ [e.2] }) s) s
  match best with | some b => bumpF (pf b) 0x710 15 0 1 s | none => s

/-- A frame whose payload fails still gives its sender's entry LQI_UP and PORT_Q (05 R150; 08 R256 and its worked
example); the offset, the usable ports and the maps follow only frames that pass (R81, R134, R257). -/
def failedQuality (n lqi : Nat) (pl ps : List Nat) (mon : List (Nat × Nat)) (s : State) : State :=
  if n = 0 ∨ n = 4095 ∨ nState s n = 0 then s
  else phyPorts ps mon (nSet n 22 1 lqi (ps.foldl (fun s p => nSet n (16 + p) 1 (pl.getD p 0) s) s))

/-- The last report of a group, and LAST_LQI of its ports (05 R151). -/
def keepReport (f : RxFrame) (ok : Bool) (lqi evm : Nat) (pl : List Nat) (s : State) : State :=
  let s := setRx f.group (fun x => { x with report := some (bbReport f ok lqi evm pl) }) s
  (svcPorts s f.group).foldl (fun t p => setF (pf p) 0x524 23 16 (pl.getD p 0) t) s

/-- A capture armed for the sender completes with its next accepted frame (05 R150). -/
def takeSnr (f : RxFrame) (q : FrameQuality) (s : State) : State :=
  if s.bb.snrArm = some f.node then
    let v := (List.range 6).map (fun p => snrView f (q.portCarrier.getD p [])) ++ [snrView f q.carrier]
    setBb (fun b => { b with snrArm := none, snrCap := some (f.node, f.slot % 8, f.t0, v) }) s
  else s

/-- A frame control accepted without a stored payload leaves its report too (05 R151): CRC not passed. -/
def reportOnly (f : RxFrame) (s : State) : State :=
  let q := frameQuality s f false
  takeSnr f q (keepReport f false (lqiDb q.db) (evmOf q) (portLqis f.contrib q.portDb) s)

/-- SNR of a narrowband frame in dB (07 R223): over the whole frame where the CRC passed, over sync word and header
otherwise. -/
def nbSnr (f : RxFrame) (ok : Bool) (bits : List Bool) : Rat :=
  let pay := payDevs (fget f.nbCfg 10 10 == 1) (f.ubits == 2) (codedStream (fitOf f) f.rate 12 f.per bits)
  dbOf (gfskSnr f.nbCfg f.foff (f.nbDevs ++ (if ok then pay else [])) (f.nbHead ++ (if ok then f.nbPay else [])))

/-- The last report of a narrowband channel with the outcome of its frame (07 R224): the report of a later header, of another
stamp, stays as it is. -/
def nbKeepReport (f : RxFrame) (k : Nat) (ok : Bool) (lqi : Nat) (s : State) : State :=
  setNbRx (8 * f.group + k) (fun x =>
    let old := x.report.getD []
    if beAt old 24 8 ≠ f.t0 % 2 ^ 64 then x
    else { x with report := some (slice old 0 4 ++ [BitVec.ofNat 8 (byteAt old 4 / 2 * 2 + b2n ok)] ++ beBytes 1 lqi
        ++ slice old 6 10 ++ beBytes 2 f.erased ++ slice old 18 14) }) s

/-- Consecutive failures on a negotiated map invalidate it (08 R265). -/
def countFail (f : RxFrame) (s : State) : State :=
  let k := 8 * f.node.toNat + f.slot % 8
  let c := smGet (fun _ => 0) s.lk.fails k + 1
  let lim := if (grpL s f.group).watch.isSome then 1 else max 1 (objF s 0 0x701 23 20)
  let s := setLk (fun l => { l with fails := smPut (fun _ => 0) k (if lim ≤ c then 0 else c) l.fails }) s
  if lim ≤ c then dropMap f.node.toNat 0 (f.slot % 8) s else s

/-- A frame that fails is reported to the link layer (R176): its counters, the sender's quality, the next ACK entry (08
R248), the maps (08 R265), and a step retry (08 R266). -/
def frameLost (f : RxFrame) (lqi : Nat) (pl : List Nat) (mon : List (Nat × Nat)) (s : State) : State :=
  let s := bumpF 0 0x543 31 16 (f.cws.filter (fun w => decide (w.ph ≠ .converged))).length s
  let n := f.node.toNat
  let s := failedQuality n lqi pl f.contrib mon s
  let s := if nState s n = 2 ∧ !s.lk.acks.contains f.node then setLk (fun l => { l with acks := l.acks ++ [f.node] }) s else s
  let s := if f.nb.isNone ∧ f.map = 2 then countFail f s else s
  if f.step ≠ 0 then setLk (fun l => { l with retry := l.retry ++ [f.node] }) s else s

/-- A frame is decided (R176): reports, counters, delivery to the Cloche, or loss. -/
def frameEnd (f : RxFrame) (s : State) : State :=
  let bits := frameDecision f
  let b := bytesOfBits bits
  let ok := f.cws.all (fun w => decide (w.ph = .converged)) && payloadOk f b
  let q := if f.nb.isSome then default else frameQuality s f ok
  let pl := if f.nb.isSome then f.sq else portLqis f.contrib q.portDb
  let mon := if f.nb.isSome then f.nbMon
    else ((monPorts s f.group).filter (fun p => f.chan.ests.any (fun e => e.port == p))).map (fun p => (p, lqiDb (q.portDb.getD p 0)))
  let lqi := if f.nb.isSome then lqiDb (nbSnr f ok bits) else lqiDb q.db
  let s := if ok ∧ f.nb.isNone then residualNoise f s else s
  let s := retireFrame f s
  let s := setDec (fun d => { d with report := vSet d.report f.group (some (decReport f ok)) }) s
  let s := match f.nb with
    | some k => nbKeepReport f k ok lqi s
    | none => takeSnr f q (keepReport f ok lqi (evmOf q) pl s)
  decStatus (if ok then
      let taps := f.contrib.map (fun p => (p, (estOf f.chan p).h.getD (userPlace f) []))
      let d : Delivered := ⟨f.node, b.take f.bytes,
        ⟨f.group, f.nb.isSome, f.nb.getD 0, f.sf, f.t0, f.slot % 8, lqi, pl, f.contrib, mon, f.foff, q.carrier, taps,
          f.nb.isNone && decide (f.map = 2), decide (f.step ≠ 0)⟩⟩
      addJob .up (setLk (fun l => { l with sealed := l.sealed ++ [d] }) s)
    else frameLost f lqi pl mon s)

/-- The frame ends when every codeword is converged or failed. -/
def maybeEnd (f : RxFrame) (s : State) : State :=
  if f.cws.all (fun w => decide (w.ph = .converged) || decide (w.ph = .failed)) then frameEnd f s else setFrame f s

/-- What follows an iteration without convergence (R175, R179, R180). -/
def cwAfter (s : State) (f : RxFrame) (w : DecCw) : DecCw :=
  if w.left ≠ 0 then w
  else if f.nb.isNone ∧ f.round + 1 < f.rounds then { w with ph := .roundEnd }
  else if f.nb.isNone ∧ w.budget < iterMax s ∧ !w.rep then { w with ph := .reprieve, since := s.clk.tb }
  else { w with ph := .failed }

-- Clusters (01 R15, R23, R521; 06 R184 to R189).

/-- The region of a cluster: five clusters each. -/
def clRegion (c : Nat) : Nat := c / 5

/-- Set the state of a cluster. -/
def setClSt (c : Nat) (v : ClSt) (s : State) : State := { s with cl := { s.cl with cl := vSet s.cl.cl c v } }

/-- A spare in standby of a region: powered and out of reset. -/
def spareOf (s : State) (r : Nat) : Option Nat :=
  (List.range 20).find? (fun c => clRegion c == r && decide (clOf s c = .spare) && !funcDown s (cf c))

/-- The slices of the codec work partition, 3 MiB, over the L-units that can work (01 R34). -/
def reslice (s : State) : State :=
  let l := (List.range 20).filter (fun c => clUsable s c)
  let size := if l.isEmpty then 0 else 0x300000 / l.length / 64 * 64
  { s with cl := { s.cl with slices := (List.range l.length).map (fun i => (l.getD i 0, size * i, size)) } }

/-- A spare's L-unit takes over the slice of the one it replaces (R186). -/
def giveSlice (c sp : Nat) (s : State) : State :=
  { s with cl := { s.cl with slices := s.cl.slices.map (fun e => if e.1 = c then (sp, e.2) else e) } }

/-- An L-unit has no codeword: idle, CKPT_VALID 0. -/
def restUnit (c : Nat) (s : State) : State := setF (cf c) 0x12 31 28 1 (setF (cf c) 0x12 0 0 0 s)

/-- An active cluster under a per-function reset, at its codeword boundary: the spare begins with the next task, no codeword
restarts, and the cluster becomes the region's spare (01 R16, R187). Where no spare is left by then, it becomes the spare and
none replaces it: DESIGN CHOICE (log 157). -/
def takeoverReset (c : Nat) (s : State) : State :=
  let s := match spareOf s (clRegion c) with
    | some sp => giveSlice c sp (setClSt sp .active s)
    | none => s
  let s := { s with cl := { s.cl with leaving := s.cl.leaving.filter (fun x => decide (x ≠ c)) } }
  resetObjs (cf c) (fun _ => false) (setClSt c .spare s)

/-- Clusters whose reset waited for their codeword boundary take it (R184, R187). -/
def leaveDue (s : State) : State :=
  s.cl.leaving.foldl (fun s c => if cwsOn s c = 0 then takeoverReset c s else s) s

/-- A frame abandoned for a capture, or with every user lost, leaves the decoder (R172, R189). -/
def abandonFrame (id : Nat) (s : State) : State :=
  let s := match decFrame s id with
    | some f => f.cws.foldl (fun s w => match w.ph with | .running c | .reprieved c => restUnit c s | _ => s) s
    | none => s
  decStatus (leaveDue (dropFrame id s))

/-- An L-unit completes an iteration (R173, R175, R176, R180). -/
def execCodewordIteration (frame : Nat) (cw : Nat) (s : State) : Host.Outcome State Fault Refusal :=
  .next (match decFrame s frame with
    | none => s
    | some f =>
      let w := f.cws.getD cw (newCw 0)
      let runs : Bool := match w.ph with | .running _ | .reprieved _ => true | _ => false
      -- an L-unit that has taken precedence work goes on with it (R177)
      let held : Bool := f.nb.isNone && (match w.ph with | .running c | .reprieved c => nbOn s c | _ => false)
      if !runs ∨ held ∨ f.cws.length ≤ cw then s
      else
        let x := minSumIter f.rate (zOf f) (frozenOf f cw) w.post w.msg
        let conv := parityOk f.rate (zOf f) (hardBits x.1).toArray
        let w := { w with post := x.1, msg := x.2, iters := w.iters + 1, left := w.left - 1, passed := true }
        let s := if f.nb.isSome then addPrec 100 s else s
        let s := match w.ph with
          | .running c | .reprieved c => if conv ∨ w.left = 0 then restUnit c s else s
          | _ => s
        if conv then
          let s := if w.rep then bumpF 0 0x542 15 0 1 s else s
          leaveDue (maybeEnd (setCw f cw { w with ph := .converged, ckpt := false }) s)
        else
          let w' := cwAfter s f w
          let capped := decide (w'.ph = .reprieve)
          let s := if capped then bumpF 0 0x542 31 16 1 s else s
          leaveDue (maybeEnd { setCw f cw w' with anyCap := f.anyCap || capped } s))

/-- The codewords of a frame fit for a reprieve, oldest first: a multi-user codeword only after its frame's last round
(R180). -/
def reprieves (s : State) : List (Nat × Nat × W64) :=
  s.dec.frames.flatMap (fun f => (List.range f.cws.length).filterMap (fun c =>
    let w := f.cws.getD c (newCw 0)
    if w.ph = .reprieve ∧ (f.users ≤ 1 ∨ (f.rounds ≤ f.round + 1 ∧ barrier s f = true)) then some (f.id, c, w.since) else none))

/-- Every codeword in the reprieve queue, by when it joined. -/
def reprieveQueue (s : State) : List (Nat × Nat × W64) :=
  s.dec.frames.flatMap (fun f => (List.range f.cws.length).filterMap (fun c =>
    let w := f.cws.getD c (newCw 0)
    if w.ph = .reprieve then some (f.id, c, w.since) else none))

/-- A reprieve has waited for its limit (R180). -/
def reprieveOld (s : State) (e : Nat × Nat × W64) : Bool := decide (e.2.2.toNat + lagTicks s ≤ now s)

/-- An idle L-unit takes the oldest reprieve within the limit (R180); none starts in lag mode (R181). -/
def execReprieveStart (cluster : Fin 20) (s : State) : Host.Outcome State Fault Refusal :=
  .next (if lagMode s || !(waitingCws s).isEmpty || !clUsable s cluster.val || decide (cwsOn s cluster.val ≠ 0) then s
    else match oldestWait ((reprieves s).filter (fun e => !reprieveOld s e)) with
      | none => s
      | some (id, c, _) =>
        match decFrame s id with
        | none => s
        | some f =>
          let w := f.cws.getD c (newCw 0)
          let w := { w with ph := .reprieved cluster.val, left := iterMax s - w.budget, grant := iterMax s - w.budget, rep := true, ckpt := true }
          setF (cf cluster.val) 0x12 31 28 2 (setF (cf cluster.val) 0x12 0 0 1 (setFrame { setCw f c w with anyRep := true } s)))

/-- A reprieve that has not started within DEC_LAG × 250 µs fails (R180). -/
def execReprieveTimeout (s : State) : Host.Outcome State Fault Refusal :=
  .next (match oldestWait ((reprieveQueue s).filter (reprieveOld s)) with
    | none => s
    | some (id, c, _) =>
      match decFrame s id with
      | none => s
      | some f => maybeEnd (setCw f c { f.cws.getD c (newCw 0) with ph := .failed }) s)

/-- The oldest waiting codeword exceeds the limit: lag mode (R181). -/
def execDecodeLag (s : State) : Host.Outcome State Fault Refusal :=
  .next (match oldestWait (waitingCws s) with
    | none => s
    | some (_, _, t) =>
      if !lagMode s && decide (t.toNat + lagTicks s < now s) then
        raise 76 0 .decodeLag (beBytes 2 (min 0xFFFF (waitingCws s).length)) (setF 0 0x541 25 25 1 s)
      else s)

/-- The oldest wait falls below half the limit: lag mode ends (R181). -/
def execLagModeExit (s : State) : Host.Outcome State Fault Refusal :=
  .next (let short : Bool := match oldestWait (waitingCws s) with
      | none => true
      | some (_, _, t) => decide (2 * (now s - t.toNat) < lagTicks s)
    if lagMode s && short then setF 0 0x541 25 25 0 s else s)

/-- The codewords of a cluster's L-unit restart (R186): the interrupted round or reprieve from its checkpoint, check
messages zeroed, its iterations not counted; they keep their place in the wait order (R189). -/
def restartCw (f : RxFrame) (c : Nat) (w : DecCw) (cl : Nat) (sp : Option Nat) : DecCw :=
  if w.ph = .running cl ∨ w.ph = .reprieved cl then
    { w with ph := .waiting, post := startPost f c w.inp, msg := [], iters := w.iters - (w.grant - w.left), left := w.grant
             spare := sp, away := if sp.isNone then some (cl / 5) else none }
  else w

/-- Restart what a cluster was decoding, on a spare where one takes over. -/
def restartOn (cl : Nat) (sp : Option Nat) (s : State) : State :=
  let s := if cwsOn s cl = 0 then s else setF (cf cl) 0x12 0 0 0 s
  let s := { s with cl := { s.cl with leaving := s.cl.leaving.filter (fun x => decide (x ≠ cl)) } }
  setDec (fun d => { d with frames := d.frames.map (fun f =>
    let hit := f.cws.any (fun w => decide (w.ph = .running cl ∨ w.ph = .reprieved cl))
    { f with cws := (List.range f.cws.length).map (fun c => restartCw f c (f.cws.getD c (newCw 0)) cl sp)
             takeover := f.takeover || hit }) }) s

/-- The work of a failed cluster moves to its region's spare, or to other regions (R186, R188): the FUNC of the spare, 0xFF
where none took over. -/
def takeover (cl : Nat) (s : State) : State × Nat :=
  match spareOf s (clRegion cl) with
  | some sp => (giveSlice cl sp (setClSt sp .active (restartOn cl (some sp) s)), cf sp)
  | none => (reslice (restartOn cl none s), 0xFF)

/-- A unit or cluster fault (01 R13, R15, R23; 06 R186): retired, spare in its place, FAULT_CLUSTER. -/
def clusterFault (c unit err : Nat) (s : State) : State :=
  let f := cf c
  let o := 0x10 + unit
  if decide (clOf s c = .retired) || (funcDown s f && !s.cl.leaving.contains c) then s
  else
    let s := setF f o 31 28 4 (setF f o 15 8 err (bumpF f o 23 16 1 s))
    let n := cwsOn s c
    if clOf s c = .active then
      let r := takeover c (setClSt c .retired s)
      let s := recomputeCap r.1
      let s := raise c f .faultCluster (beBytes 1 f ++ beBytes 1 r.2 ++ beBytes 2 n) s
      if r.2 = 0xFF then raise c f .faultUnabsorbed (beBytes 1 f) s else s
    else raise c f .faultCluster (beBytes 1 f ++ [0xFF] ++ beBytes 2 0) (setClSt c .retired s)

/-- CLUSTER_FAULT. -/
def execClusterFault (c : Fin 20) (unit : Fin 4) (err : BitVec 8) (s : State) : Host.Outcome State Fault Refusal :=
  .next (clusterFault c.val unit.val err.toNat s)

/-- A lane's spare of the same direction. -/
def spareLane (s : State) (l2d : Bool) : Option Nat :=
  (List.range 40).find? (fun i => decide ((if l2d then vAt s.cl.l2d i else vAt s.cl.d2l i) = .spare))

/-- Set the state of a die-to-die lane. -/
def setLane (l2d : Bool) (i : Nat) (v : LaneSt) (s : State) : State :=
  if l2d then { s with cl := { s.cl with l2d := vSet s.cl.l2d i v } } else { s with cl := { s.cl with d2l := vSet s.cl.d2l i v } }

/-- The state of a lane. -/
def laneOf (s : State) (l2d : Bool) (i : Nat) : LaneSt := if l2d then vAt s.cl.l2d i else vAt s.cl.d2l i

/-- A die-to-die lane fails (01 R19, R23, R28): a spare with replay, or a fault outside the guarantee. -/
def laneFault (l2d : Bool) (lane : Nat) (s : State) : State :=
  if laneOf s l2d lane ≠ .active then s
  else
    let sp := spareLane s l2d
    let s := setLane l2d lane .retired s
    let s := match sp with | some k => setLane l2d k .active s | none => s
    let s := raise 76 0 .faultD2d (beBytes 1 (b2n l2d) ++ beBytes 1 lane ++ beBytes 1 (sp.getD 0xFF)) s
    if sp.isNone then raise 76 0 .faultUnabsorbed [0] s else s

/-- D2D_LANE_FAULT. -/
def execD2dLaneFault (l2d : Bool) (lane : Fin 40) (s : State) : Host.Outcome State Fault Refusal :=
  .next (laneFault l2d lane.val s)

/-- An unused spare lane fails its training (01 R521). -/
def retireSpareLane (l2d : Bool) (i : Nat) (s : State) : State :=
  if laneOf s l2d i = .spare then
    raise 76 0 .faultD2d (beBytes 1 (b2n l2d) ++ beBytes 1 i ++ [0xFF]) (setLane l2d i .retired s)
  else s

/-- A spare unit fails (01 R521): retired, its fault event with spare 0xFF. -/
def execSpareFailed (u : SpareUnit) (s : State) : Host.Outcome State Fault Refusal :=
  .next (match u with
    | .cluster r unit err =>
      match spareOf s r.val with
      | none => s
      | some c => clusterFault c unit.val err.toNat s
    | .bank r => if objF s (0x7C + r.val) 0xF08 29 28 ≤ 1 && (regOf s r.val).sub.isNone then bankFailing r.val 16 false s else s
    | .laneD2L i => retireSpareLane false i.val s
    | .laneL2D i => retireSpareLane true i.val s)

/-- Once a second the unused spare lanes retrain; those that fail are retired (01 R521). -/
def execSpareLaneRetrain (failedD2L failedL2D : List (Fin 40)) (s : State) : Host.Outcome State Fault Refusal :=
  .next (failedL2D.foldl (fun t i => retireSpareLane true i.val t)
    (failedD2L.foldl (fun t i => retireSpareLane false i.val t) s))

/-- The CAPACITY word as the device's state gives it (01 R21). -/
def capacityWord (s : State) : W32 :=
  let cnt := fun (l : List Bool) => (l.filter id).length
  let act := activeL s
  let spc := cnt ((List.range 20).map (fun c => decide (clOf s c = .spare) && !funcDown s (cf c)))
  let spb := cnt ((List.range 4).map (fun r => decide (objF s (0x7C + r) 0xF08 29 28 ≤ 1) && !regionLost s r))
  let lane := fun l2d => cnt ((List.range 40).map (fun i => decide (laneOf s l2d i = .spare)))
  let ok := (List.range 6).foldl (fun a p => a + (if portState s p = 2 then 2 ^ p else 0)) 0
  let hl := (List.range 2).foldl (fun a l => a + (if hlUp s l then 2 ^ l else 0)) 0
  BitVec.ofNat 32 (act * 2 ^ 27 + min 4 spc * 2 ^ 24 + spb * 2 ^ 21 + min 4 (lane false) * 2 ^ 18
    + min 4 (lane true) * 2 ^ 15 + ok * 2 ^ 9 + hl * 2 ^ 7 + b2n (mirrorOk s) * 64 + b2n (decide (act < 16)) * 32)

/-- CAPACITY is brought up to date, with CAPACITY_CHANGE, and the iteration cap recomputed (01 R21, R178). -/
def execCapacityUpdate (s : State) : Host.Outcome State Fault Refusal :=
  .next (let w := capacityWord s
    if w = getObj s 0 0x20 then s
    else raise 76 0 .capacityChange (beBytes 4 w.toNat) (recomputeCap (setObj 0 0x20 w s)))

-- Commands.

/-- DEC_LAST (R176). -/
def execDecLast (r : Req) (s : State) : Host.Outcome State Fault Refusal :=
  .next (execReq 0x540 r (r.func == 0) (lenAnd r 4 (chk (decide (byteAt r.params 0 ≤ 5)) 0)) false
    (fun s => match vAt s.dec.report (byteAt r.params 0) with
      | some b => .reply stDone b s
      | none => refuse stNoResource noField s) s)

/-- CODEC_TEST: on a spare in standby or a retired cluster; deferred (R398). -/
def execCodecTest (r : Req) (s : State) : Host.Outcome State Fault Refusal :=
  let c := r.func.toNat - 0x20
  .next (execReq 0x541 r (decide (0x20 ≤ r.func.toNat ∧ r.func.toNat ≤ 0x33)) (lenIs r 0)
    ((funcHeld s r.func.toNat || s.pw.resetting.any (fun x => decide (x.func = r.func))) && (funcDomains r.func.toNat).all (fun d => decide (domOf s d = .on)))
    (fun s =>
      if (funcDomains r.func.toNat).any (fun d => decide (domOf s d ≠ .on)) then refuse stNotInState noField s
      else if clOf s c = .active then refuse stFunctionRunning noField s
      else deferIf r [] s id) s)

/-- A codec test of cluster c has completed: SELFTEST_DONE and SELFTEST_PASS of its L-unit (01 R13). -/
def unitTested (c : Nat) (pass : Bool) (s : State) : State :=
  setF (cf c) 0x12 2 2 1 (setF (cf c) 0x12 1 1 (b2n pass) s)

/-- A spare in standby whose test failed is retired (06, field check; 01 R521): self-test failure of its L-unit. -/
def codecFails (c : Nat) (s : State) : State :=
  if clOf s c = .spare then clusterFault c 2 4 s else s

/-- The codec test ends: any failure on a spare ends its trust (06, field check; 01 R521). -/
def execCodecTestDone (c : Fin 20) (codewords : W16) (meanIt : W16) (failed : W16) (s : State) :
    Host.Outcome State Fault Refusal :=
  .next (match findDeferred 0x541 (cf c.val) s with
    | none => s
    | some d =>
      let ok := decide (failed = 0)
      let s := unitTested c.val ok s
      let s := if ok then s else codecFails c.val s
      finish d stDone (beBytes 1 (b2n (!ok)) ++ [0] ++ beBytes 2 codewords.toNat ++ beBytes 2 meanIt.toNat
        ++ beBytes 2 failed.toNat) s)

end Sys2Proof.Machine
end

