-- ==== Sys2Proof/Machine/Receive.lean ====
section
/-!
DEFINITION. The broadband receiver of a feeder group (05): detection, timing, training, frame control, payload symbols
with impulses and channel steps, the noise map, and the commands of the chapter.
-/
namespace Sys2Proof.Machine

/-- Fields of BB_DET and BB_RX_CFG as the device uses them (05). -/
def restartDb (s : State) : Nat := objF s 0 0x520 25 22
def capMargin (s : State) : Nat := max 3 (objF s 0 0x520 21 18)
def tgate (s : State) : Nat := max 1 (objF s 0 0x520 15 10)
def impThr (s : State) : Nat := max 3 (objF s 0 0x521 31 27)
def overMax (s : State) : Nat := max 1 (objF s 0 0x521 26 22)
def stepThr (s : State) : Nat := max 3 (objF s 0 0x521 21 18)
def stepN (s : State) : Nat := max 1 (objF s 0 0x521 17 16)
def userMin (s : State) : Nat := objF s 0 0x521 9 6

/-- Ports that contribute to a group's broadband reception: in SERVICE with the driver idle (R119). -/
def rxPorts (s : State) (g : Nat) : List Nat := (bbPorts s g).filter (fun p => !driverOn s p)

/-- Ports whose reception is measured: those, and the idle ones in REMOVED_AUTO (03 R84). -/
def hearPorts (s : State) (g : Nat) : List Nat :=
  (monPorts s g).filter (fun p => objF s (pf p) 0x400 28 28 == 1 && !driverOn s p)

/-- Sync points of a group's signal (04 R98). -/
def groupSync (s : State) (g : Nat) : List TxPoint := syncPoints (lowBand s g) (masked s)

/-- FALSE_SYNC, FALSE_TIMING, FC_FAIL, CAPTURES and USERS_ABSENT of a group (BB_GRP_ABORT). -/
def grpAbort (g hi lo n : Nat) (s : State) : State := bumpF 0 (0x538 + g) hi lo n s

/-- The PGA of the group's ports is released (03 R72). -/
def freePga (g : Nat) (s : State) : State :=
  (portsOf s g).foldl (fun t p => setPort p (fun k => { k with pgaHeld := false }) t) s

/-- The preset of R131: the stored offset of the granted user, or the mean of several; 0 with no holder. -/
def presetOf (s : State) (l : List (Nat × BitVec 12)) : Rat :=
  rMean ((l.filter (fun e => e.2 != 4095)).map (fun e => (nFoff s e.2.toNat : Rat)))

/-- Receptions that the schedule expects in the slot in progress (R120); none while a sounding or a transmit test runs in the
group (03 R86). -/
def slotGrants (s : State) (g : Nat) : List Grant :=
  if groupBlocked s g then []
  else (grpL s g).cur.filter (fun a => (a.kind == 0 || a.kind == 3) && covers a s.clk.slot.val)

/-- The receiver returns to IDLE under the settings of the slot in progress (R120, R131); frames that the decoder holds go
on. -/
def rxIdle (g : Nat) (s : State) : State :=
  let up := slotGrants s g
  let l := up.map (fun a => (a.uidx, if a.kind = 3 then (4095 : BitVec 12) else a.node))
  let t := s.clk.slot.val
  let d := presetOf s l
  freePga g (setRx g (fun x => { (default : GrpRx) with
    grants := l, firstSlot := (up.head?.map (·.first)).getD t, lastSlot := (up.head?.map (·.last)).getD t
    gi := (up.head?.map (·.gi)).getD 0, expect := !up.isEmpty, preset := d, report := x.report }) s)

/-- The last receive report of a group takes a frame whose frame control was accepted, its payload not passed (R151). -/
def usersReport (g : Nat) (s : State) : State :=
  (rxOf s g).users.foldl (fun t u => match u.lay with | some f => reportOnly f t | none => t) s

/-- The frames of a reception leave the decoder, and one of the group that awaits its re-estimation (R152, R172); each leaves
its report (R151). -/
def abandonUsers (g : Nat) (s : State) : State :=
  let s := usersReport g s
  let s := (rxOf s g).users.foldl (fun t u => match u.frame with | some i => abandonFrame i t | none => t) s
  (s.dec.frames.filter (fun f => f.group == g && f.owed)).foldl (fun t f => abandonFrame f.id t) s

/-- The receiver of a group is re-armed at a slot start (R120, R131). A burst in progress is left alone within the slots of its
grant, where its frame fits whole (R129); one that has not reached its payload by their end is given up. -/
def rearm (g : Nat) (s : State) : State :=
  let x := rxOf s g
  let mine := decide (x.firstSlot ≤ s.clk.slot.val ∧ s.clk.slot.val ≤ x.lastSlot)
  match x.ph with
  | .payload => s
  | .train | .fc => if mine then s else rxIdle g (abandonUsers g s)
  | _ => rxIdle g s

/-- An attempt ends with FALSE_SYNC or FALSE_TIMING: a pending detection whose S9 window is open becomes the primary
(R126). -/
def attemptEnds (g : Nat) (s : State) : State :=
  match (rxOf s g).pendS with
  | some t => if rxTb s ≤ t + 6144 then setRx g (fun x => { x with det := t, pendS := none }) s else rxIdle g s
  | none => rxIdle g s

/-- The PGA takes its step on a detection and holds (03 R72): the samples of the detection give the gain. -/
def holdPga (p : Nat) (xs : List Int) (s : State) : State :=
  if objF s (pf p) 0x402 31 31 = 1 then
    setPort p (fun k => { k with pgaHeld := true }) (setPga p (clampInt 0 48 (agcWant s p (xs.take 1280))).toNat s)
  else s

/-- The primary detector declares a detection (R122). -/
def execBbPreambleDetect (g : Fin 6) (rx : Rx) (s : State) : Host.Outcome State Fault Refusal :=
  .next (let x := rxOf s g.val
    if x.expect && decide (x.ph = .idle) && detects s (rxPorts s g.val) rx 0 then
      let t := rxTb s
      let s := bumpF 0 (0x528 + g.val) 31 16 1 s
      let s := (rxPorts s g.val).foldl (fun s p => holdPga p (rxOfPort rx p) s) s
      setRx g.val (fun x => { x with ph := .sync, det := t, pendS := none }) s
    else s)

/-- The secondary detector declares a detection while the primary attempt is in SYNC (R121, R126). One that takes over drops
an older pending detection: DESIGN CHOICE (log 124). -/
def execBbSecondaryDetect (g : Fin 6) (rx : Rx) (s : State) : Host.Outcome State Fault Refusal :=
  .next (let x := rxOf s g.val
    let ports := rxPorts s g.val
    if x.ph ≠ .sync ∨ detects s ports rx 0 = false then s
    else
      let t := rxTb s
      let power := syncPower s (groupSync s g.val) ports rx
      if power x.det * ofDb (restartDb s) ≤ power t then
        setRx g.val (fun x => { x with det := t, pendS := none }) (grpAbort g.val 31 24 1 s)
      else setRx g.val (fun x => { x with pendS := some t }) s)

/-- The gate of R124: t0 lies within TGATE of the opening of the slot it falls in. -/
def gateOk (s : State) (t0 : Nat) : Bool :=
  objF s 0 0x520 16 16 == 0 ||
    (let want : Int := slotStartTb s (slotAt s t0) + leadTicks (getObj s 0 0x500)
     decide (((t0 : Int) - want).natAbs ≤ 400 * tgate s))

/-- Reception enters TRAIN on a burst (R123, R127, R132). -/
def enterTrain (g t0 : Nat) (coarse power : Rat) (captured : Bool) (s : State) : State :=
  let sl := slotAt s t0
  setRx g (fun x => { (default : GrpRx) with
    grants := x.grants, firstSlot := x.firstSlot, lastSlot := x.lastSlot, expect := x.expect, gi := x.gi, preset := x.preset
    report := x.report, det := x.det, ph := .train, t0 := t0, slot := sl, coarse := coarse, power := power
    captured := captured }) s

/-- A burst found at S9: its t0, its power, and its coarse residual, which a multi-user slot does not use (R123, R125, R132,
R133). -/
def foundAt (s : State) (g : Nat) (rx : Rx) : Option (Nat × Rat × Rat) :=
  let pts := groupSync s g
  let ports := rxPorts s g
  (s9Find s pts ports rx).map (fun e =>
    let t0 := rxTb s - 2 * e.1 - 4608
    (t0, e.2, if (rxOf s g).grants.length ≤ 1 then coarseOffset s pts ports rx t0 (rxOf s g).preset else 0))

/-- An offset beyond ±150 ppm (R132). -/
def farOff (c : Rat) : Bool := decide (15000 < |c|)

/-- S9 is found within 3072 samples of the detection (R123, R124, R132): a t0 outside the gate ends the attempt with
FALSE_TIMING, a coarse offset beyond ±150 ppm in a single-user slot with FALSE_SYNC. -/
def execBbS9Found (g : Fin 6) (rx : Rx) (s : State) : Host.Outcome State Fault Refusal :=
  .next (let x := rxOf s g.val
    if x.ph ≠ .sync ∨ x.det + 6144 < rxTb s then s
    else match foundAt s g.val rx with
      | none => s
      | some (t0, power, coarse) =>
        if !gateOk s t0 then attemptEnds g.val (grpAbort g.val 23 16 1 s)
        else if farOff coarse then attemptEnds g.val (grpAbort g.val 31 24 1 s)
        else enterTrain g.val t0 coarse power false s)

/-- No S9 within 3072 samples (R123). -/
def execBbSyncTimeout (g : Fin 6) (s : State) : Host.Outcome State Fault Refusal :=
  .next (let x := rxOf s g.val
    if x.ph = .sync ∧ x.det + 6144 ≤ rxTb s then attemptEnds g.val (grpAbort g.val 31 24 1 s) else s)

/-- The current frame's signal power (R127): for a multi-user frame that of the strongest user, measured from training; while
it is still in TRAIN, before any user has been measured, the power of the whole burst at its S9: DESIGN CHOICE (log 159). -/
def framePower (x : GrpRx) : Rat :=
  if x.users.length ≤ 1 then x.power else (x.users.map (·.power)).foldl max 0

/-- The secondary detector finds an S9, within 3072 samples of a detection of its own, during a frame (R127, R152). A burst
far off in frequency is no capture (R132, log 125). -/
def execBbCapture (g : Fin 6) (rx : Rx) (s : State) : Host.Outcome State Fault Refusal :=
  .next (let x := rxOf s g.val
    let busy := decide (x.ph = .train ∨ x.ph = .fc ∨ x.ph = .payload)
    if !busy || objF s 0 0x520 17 17 == 0 || !(List.range 3073).any (detects s (rxPorts s g.val) rx) then s
    else match foundAt s g.val rx with
      | none => s
      | some (t0, power, coarse) =>
        if !gateOk s t0 then s
        else if farOff coarse then grpAbort g.val 31 24 1 s
        else if framePower x * ofDb (capMargin s) ≤ power then
          enterTrain g.val t0 coarse power true (grpAbort g.val 7 4 1 (abandonUsers g.val s))
        else s)

-- Impulses (R143 to R145).

/-- IMP(b) of a port takes a window (R145). -/
def impUpdate (p bin : Nat) (hit : Bool) (s : State) : State :=
  let k := 64 * p + bin
  let old : Rat := smGet (fun _ => 0) s.bb.imp k
  let new := old + noiseWeight s * ((b2n hit : Nat) - old)
  setBb (fun b => { b with imp := smPut (fun _ => 0) k new b.imp }) s

/-- The quiet floor takes an unflagged window with weight 1/64 (R143); the first window sets it. -/
def floorUpdate (p : Nat) (eq : Rat) (s : State) : State :=
  let new := match vAt s.bb.floor p with | some f => f + (eq - f) / 64 | none => eq
  setBb (fun b => { b with floor := vSet b.floor p (some new) }) s

/-- A window of a port is impulsive (R143). -/
def impulsive (s : State) (p : Nat) (eq : Rat) (ovr : Nat) : Bool :=
  (match vAt s.bb.floor p with | some f => decide (f * ofDb (impThr s) ≤ eq) | none => false) || decide (overMax s ≤ ovr)

/-- The noise map marks the bin (06 R171): IMP(b) ≥ ERASE_IMP / 16. -/
def binErased (s : State) (p bin : Nat) : Bool :=
  decide (eraseImp s ≠ 0) && decide ((eraseImp s : Rat) / 16 ≤ smGet (fun _ => 0) s.bb.imp (64 * p + bin))

/-- Carriers of the quiet bands (R143). -/
def quietCarriers : List Nat := (List.range 23).map (· + 12) ++ (List.range 65).map (· + 1766)

/-- E_q of a 4096-sample window that begins at sample o of a burst at t0 (R143). -/
def quietEnergy (s : State) (xs : List Int) (t0 : Nat) (off : Rat) (o : Nat) : Rat :=
  rMean (quietCarriers.map (fun k => cNorm (windowAt s xs t0 off o 4096 k)))

/-- OVER samples among the 4096 from TB a on (03 R67). -/
def overCount (s : State) (p : Nat) (xs : List Int) (a : Nat) : Nat :=
  ((List.range 4096).filter (fun i => wordOver (rxAt s p xs ((rxTb s - (a + 2 * i)) / 2)))).length

/-- The FFT window of a training or frame-control symbol of port p, from sample o of a burst on (R143, R145): measured, counted
where it is impulsive, else joining the quiet floor. -/
def symbolWindow (t0 o : Nat) (off : Rat) (rx : Rx) (p : Nat) (a : State × List Nat) : State × List Nat :=
  let s := a.1
  let xs := rxOfPort rx p
  let at_ := t0 + 2 * o
  let eq := quietEnergy s xs t0 off o
  if impulsive s p eq (overCount s p xs at_) then (impUpdate p (binAt s at_) true (bumpF (pf p) 0x525 31 16 1 s), a.2 ++ [p])
  else (impUpdate p (binAt s at_) false (floorUpdate p eq s), a.2)

/-- The windows of a symbol on its ports: the state after them, and the ports that were impulsive. -/
def symbolWindows (t0 o : Nat) (off : Rat) (rx : Rx) (ports : List Nat) (s : State) : State × List Nat :=
  ports.foldl (fun a p => symbolWindow t0 o off rx p a) (s, [])

-- Training.

/-- Sample n of a burst has been taken. -/
def heard (s : State) (t0 n : Nat) : Bool := decide (t0 + 2 * n ≤ rxTb s)

/-- Ports without TX_ACTIVE from sample a up to b of a burst (R119). -/
def quietPorts (s : State) (ports : List Nat) (t0 a b : Nat) : List Nat := ports.filter (fun p => quietIn s p t0 a b)

/-- A granted user after training (R127, R132, R136): its SNR summed over the contributing ports, and its power, on the scale
of 04 R113, as that of a comb of unit energy. -/
def trainedUser (s : State) (low : Bool) (m : Nat → Bool) (t : Training) (ports : List Nat) (e : Nat × BitVec 12) (i : Nat) :
    RxUser :=
  let l := (t.ests.filter (fun x => ports.contains x.port)).map (fun x => (tapEnergy low m (x.h.getD i []), x.noise))
  let snr := rSum (l.map (fun y => ratio y.1 y.2))
  { u := e.1, node := e.2, present := decide (ofDb (userMin s) ≤ snr), snr := snr
    power := 32 * (syncPoints low m).length * rSum (l.map (·.1)), fine := t.fine.getD i 0, refined := 0, decided := false
    fc := none, lay := none, frame := none }

/-- Users, channels and T1 values that training leaves: those of the users found present (R135, R136). -/
def trained (x : GrpRx) (us : List RxUser) (t : Training) : GrpRx :=
  let here := (List.range us.length).filter (fun i => (us.getD i default).present)
  let pick := fun (l : List (List Cx)) => here.map (fun i => l.getD i [])
  { x with
    ph := .fc, users := us, first := t.first.map (fun e => (e.1, pick e.2))
    chan := { users := here.map (fun i => (us.getD i default).u)
              rot := here.map (fun i => if us.length ≤ 1 then 0 else (us.getD i default).fine)
              ests := t.ests.map (fun e => { e with h := pick e.h }) } }

/-- T2 ends (R132, R133, R135, R136): users below USER_MIN are absent. -/
def execBbTrainingEnd (g : Fin 6) (rx : Rx) (s : State) : Host.Outcome State Fault Refusal :=
  .next (let x := rxOf s g.val
    if x.ph ≠ .train ∨ heard s x.t0 11263 = false then s
    else
      let low := lowBand s g.val
      let off := x.preset + x.coarse
      let con := quietPorts s (rxPorts s g.val) x.t0 2976 11264
      let w1 := symbolWindows x.t0 2976 off rx con s
      let w2 := symbolWindows x.t0 7072 off rx con w1.1
      let bad := w1.2.map (fun p => (p, 0)) ++ w2.2.map (fun p => (p, 1))
      let t := training w2.1 low (masked s) x.gi (x.grants.map (·.1)) (quietPorts s (hearPorts s g.val) x.t0 2976 11264) con bad
        rx x.t0 off
      let s := w2.1
      let us := x.grants.zipIdx.map (fun e => trainedUser s low (masked s) t (rxPorts s g.val) e.1 e.2)
      let s := grpAbort g.val 3 0 (us.filter (fun u => !u.present)).length s
      if us.all (fun u => !u.present) then rxIdle g.val s else setRx g.val (fun x => trained x us t) s)

-- Frame control.

/-- Bits a to b of a word whose bit 0 comes first, most significant bit at the lowest number (04 R100). -/
def wordField {n : Nat} (w : BitVec n) (a b : Nat) : Nat :=
  bitsToNat ((List.range (b + 1 - a)).map (fun i => w.getLsbD (a + i)))

/-- The frame-control fields of a word. -/
def fcOf (w : BitVec 144) : RxFc :=
  ⟨BitVec.ofNat 12 (wordField w 5 16), BitVec.ofNat 12 (wordField w 17 28), wordField w 45 48, wordField w 49 50,
    wordField w 51 52, wordField w 53 56, wordField w 57 64, wordField w 65 66, wordField w 67 78, wordField w 79 94,
    wordField w 95 97⟩

/-- VER and FCS of a word. -/
def fcCrcOk (w : BitVec 144) : Bool :=
  wordField w 0 1 == 1
    && crcBits 16 0x1021 0xFFFF ((List.range 128).map (fun i => w.getLsbD i)) == wordField w 128 143

/-- The checks of R129. -/
def fcAccept (s : State) (x : GrpRx) (w : BitVec 144) : Bool :=
  let f := fcOf w
  let lim := slotStartTb s (x.lastSlot + 1) - tailTicks (getObj s 0 0x500)
  fcCrcOk w && f.gi != 3 && f.rate != 3 && (decide (1 < f.map) || f.rate == 0)
    && (if f.map = 3 then decide (1 ≤ f.ubits ∧ f.ubits ≤ 12) else f.ubits == 0) && f.nsym != 0
    && wordField w 29 44 == netId s && wordField w 2 2 == 0 && f.slot == x.slot
    && x.grants.any (fun e => e.1 == wordField w 3 4) && decide (f.nsym ≤ symsFit 0 x.t0 f.gi lim)

/-- The offset estimate of a user's burst in 0.01 ppm (R132, R133). -/
def userOffset (x : GrpRx) (u : RxUser) : Rat := x.preset + x.coarse + u.fine + u.refined

/-- What the resampler removes from a user's symbols after training: in a multi-user slot the preset alone (R132, R133). -/
def symOffset (x : GrpRx) (u : RxUser) : Rat := if x.grants.length ≤ 1 then userOffset x u else x.preset

/-- The layout of a user's frame, from its frame control and the settings in force (R137, 04 R101 to R107). -/
def layOf (s : State) (g : Nat) (x : GrpRx) (u : RxUser) (f : RxFc) (fit : Fit) : RxFrame :=
  { (default : RxFrame) with
    id := s.dec.nextId, set := x.t0, group := g, node := f.src, dst := f.dst, uidx := u.u, users := x.grants.length
    slot := x.slot, t0 := x.t0, sf := sfNow s, rate := f.rate
    fit := [fit.n, fit.s, fit.l0, fit.nsym, fit.d, fit.pad], per := fit.n, bytes := f.bytes, nsym := f.nsym
    map := f.map, mapId := f.mapId, gi := f.gi, ubits := f.ubits, low := lowBand s g, mask := maskBytes s
    maps := (List.range 8).map (fun i => match mapSlot s f.src.toNat 0 i with | some c => memRead s (cacheBase c) 864 | none => [])
    pool := portMask (portsOf s g), cws := newCws fit 96 true, foff := userOffset x u
    present := (x.users.filter (·.present)).length, captured := x.captured }

/-- NSYM or SPAN of a frame control differ from those that the Garurn computes (06 R162). -/
def sizeWrong (s : State) (t0 : Nat) (f : RxFc) (fit : Fit) : Bool :=
  let h := fun i => slotAt s (symStart 0 t0 f.gi i) / 4
  decide (fit.nsym ≠ f.nsym) || decide (h (fit.nsym - 1) - h 0 ≠ f.span)

/-- A frame control names a map set that is not in force or not held (08 R260). -/
def mapStale (s : State) (x : GrpRx) (f : RxFc) : Bool :=
  decide (f.map = 2) && (decide (f.mapId ≠ nUlMap s f.src.toNat)
    || !(slotIdxs x.slot (slotAt s (symStart 0 x.t0 f.gi (f.nsym - 1)))).all (fun i => (mapSlot s f.src.toNat 0 i).isSome))

/-- An accepted frame control opens its frame (R130, 06 R162, R166, R167, 08 R260): its layout, and the frame in the decoder
where its payload is stored. The map set of another receiver is not known, so a size that depends on one is not checked. -/
def openFrame (g : Nat) (u : RxUser) (f : RxFc) (s : State) : State × RxUser :=
  let x := rxOf s g
  let fit := fitBb f.rate (8 * f.bytes + 32) (burstCap s (lowBand s g) 0 x.t0 f.gi f.map f.ubits f.src.toNat 0)
  let lay := layOf s g x u f fit
  let u := { u with lay := some lay }
  let own := decide (f.dst = 0 ∨ f.dst = 4095)
  if own && mapStale s x f then (nSetMapreq f.src.toNat true (bumpF 0 0x70B 3 0 1 s), u)
  else if (own || decide (f.map ≠ 2)) && sizeWrong s x.t0 f fit then (bumpF 0 0x543 7 0 1 s, u)
  else if !own then (s, u)
  else if poolBits s g < poolUsed s g + 4 * fit.len then (furrowFull s, u)
  else
    (decStatus (setDec (fun d => { d with frames := d.frames ++ [lay], nextId := lay.id + 1 }) s), { u with frame := some lay.id })

/-- Replace a user of a reception. -/
def setUser (g : Nat) (u : RxUser) (s : State) : State :=
  setRx g (fun x => { x with users := x.users.map (fun y => if y.u = u.u then u else y) }) s

/-- Every present user is decided: PAYLOAD, or the frame ends with FC_FAIL (R129). -/
def fcDone (g : Nat) (s : State) : State :=
  let us := (rxOf s g).users.filter (·.present)
  if us.any (fun u => !u.decided) then s
  else if us.any (fun u => u.fc.isSome) then setRx g (fun x => { x with ph := .payload }) s
  else rxIdle g (grpAbort g 15 8 1 s)

/-- The separated values of a user's frame control by carrier (R139 to R141), from the spectra on the contributing ports;
the taps turn by the user's residual from the reference to the window (R133). -/
def fcValues (x : GrpRx) (ui : Nat) (y : List (Nat × List Cx)) (k : Nat) : Option (Cx × Rat) :=
  let c := x.chan
  separate ((List.range c.users.length).map (fun w => y.map (fun e =>
      unturn (-(c.rot.getD w 0)) 12192 k (atC ((estOf c e.1).h.getD w []) k))))
    (y.map (fun e => (estOf c e.1).noise)) (y.map (fun e => atC e.2 k)) (c.users.map (fun _ => (⟨0, 0⟩, 1))) ui

/-- A frame-control word from its bits, bit 0 first. -/
def wordOf (n : Nat) (l : List Bool) : BitVec n := BitVec.ofNat n ((l.take n).foldr (fun b a => 2 * a + b2n b) 0)

/-- The frame control of a user, decoded with 20 iterations (R141, 06 R177). -/
def fcDecoded (x : GrpRx) (low : Bool) (m : Nat → Bool) (ui : Nat) (y : List (Nat × List Cx)) : BitVec 144 :=
  wordOf 144 (minSumRun 0 12 (fun _ => false) 20 (planSoft (repPlan low m 144) 288 (fcValues x ui y)) []).1

/-- The refined correction in 0.01 ppm: the phase advance over 9216 samples from T1 to the frame control as re-encoded (R132,
R133). -/
def refinedOf (x : GrpRx) (low : Bool) (m : Nat → Bool) (ui : Nat) (y : List (Nat × List Cx)) (w : BitVec 144) : Rat :=
  let bits := (ldpcEncode 0 12 ((List.range 144).map (fun i => w.getLsbD i))).toArray
  let plan := repPlan low m 144
  let rot := x.chan.rot.getD ui 0
  100000000 * (4096 / 9216) * lsSlope ((usedCarriers low m).filterMap (fun (k : Nat) =>
    (planPoint plan (fun i => bits.getD i false) k).map (fun p => ((k : Rat), cSum (y.map (fun e =>
      let h := match x.first.find? (fun t => t.1 == e.1) with | some t => atC (t.2.getD ui []) k | none => ⟨0, 0⟩
      cMul (unturn rot 12192 k (atC e.2 k)) (cConj (cMul h p))))))))

/-- The spectra of a symbol of a burst on the ports that contribute to it (R119), its FFT window from sample o on. -/
def heardSpectra (s : State) (g : Nat) (x : GrpRx) (rx : Rx) (off : Rat) (o : Nat) : List (Nat × List Cx) :=
  let ports := quietPorts s ((rxPorts s g).filter (fun p => !nbit x.left.toNat p && x.chan.ests.any (fun e => e.port == p))) x.t0 o (o + 4096)
  ports.map (fun p => (p, spectrum s (lowBand s g) (rxOfPort rx p) x.t0 off o))

/-- The windows of the frame-control symbol, measured once (R143): the ports that an impulsive one leaves out (R144). -/
def fcWindows (x : GrpRx) (off : Rat) (rx : Rx) (ports : List Nat) (s : State) : State × List Nat :=
  match x.fcHit with
  | some l => (s, l)
  | none => symbolWindows x.t0 12192 off rx ports s

/-- The frame control of a user is decoded at the end of its symbol (R129, R130, R132, R141). -/
def execBbFrameControl (g : Fin 6) (u : Fin 3) (rx : Rx) (s : State) : Host.Outcome State Fault Refusal :=
  .next (let x := rxOf s g.val
    match x.users.find? (fun y => y.u == u.val && y.present && !y.decided) with
    | none => s
    | some y =>
      if x.ph ≠ .fc ∨ heard s x.t0 16383 = false then s
      else
        let low := lowBand s g.val
        let m := masked s
        let ui := x.chan.users.idxOf u.val
        let all := heardSpectra s g.val x rx (symOffset x y) 12192
        let w := fcWindows x (symOffset x y) rx (all.map Prod.fst) s
        let s := setRx g.val (fun x => { x with fcHit := some w.2 }) w.1
        let rest := all.filter (fun e => !w.2.contains e.1)
        let spec := if rest.length < x.chan.users.length then [] else rest
        let word := fcDecoded x low m ui spec
        -- 20 iterations of a Z = 12 codeword (06 R177)
        let s := addPrec 2000 s
        if !fcAccept s x word then fcDone g.val (setUser g.val { y with decided := true } s)
        else
          let d := refinedOf x low m ui spec word
          let y := { y with decided := true, refined := d, fc := some (fcOf word) }
          let s := setRx g.val (fun x => { x with chan := { x.chan with
            rot := if x.grants.length ≤ 1 then x.chan.rot else x.chan.rot.set ui (x.chan.rot.getD ui 0 + d) } }) s
          let s := bumpF 0 (0x528 + g.val) 15 0 1 s
          let s := setLk (fun l => { l with present := l.present ++ [(g.val, (fcOf word).src)] }) s
          let r := openFrame g.val y (fcOf word) s
          fcDone g.val (setUser g.val r.2 r.1))

-- Payload symbols (R143, R144, 06 R171).

/-- One port's window of a payload symbol (R143, R144, R171): the state after its figures, the ports that stay in the symbol,
and whether one was impulsive. The bin is looked up after this window's own update, and a window that only the map leaves out
updates floor and IMP as unflagged: DESIGN CHOICE (log 160). -/
def portWindow (g bin p : Nat) (eq : Rat) (ovr : Nat) (a : State × List Nat × Bool) : State × List Nat × Bool :=
  let s := a.1
  let s := if ovr = 0 then s else setRx g (fun x => { x with overs := x.overs ||| BitVec.ofNat 6 (2 ^ p) }) s
  if impulsive s p eq ovr then (impUpdate p bin true (bumpF (pf p) 0x525 31 16 1 s), a.2.1, true)
  else
    let s := impUpdate p bin false (floorUpdate p eq s)
    if binErased s p bin then (s, a.2.1, a.2.2) else (s, a.2.1 ++ [p], a.2.2)

-- Payload symbols and channel steps (R146 to R148).

/-- The layouts of the accepted users of a reception, with the channels and symbols held so far. -/
def layouts (x : GrpRx) : List RxFrame :=
  let l := x.users.filterMap (·.lay)
  let st := (List.range 6).filterMap (fun p => if nbit x.stepped.toNat p then some (p, vAt x.runAt p) else none)
  l.map (fun f => { f with
    chan := x.chan, acc := l.length, ends := l.map (fun e => (e.uidx, e.nsym)), stepAt := st
    obs := x.obs.filter (fun o => decide (o.i < f.nsym)), impSyms := (x.impAt.filter (fun i => decide (i < f.nsym))).length
    step := x.stepped.toNat
    contrib := (x.chan.ests.map (·.port)).filter (fun p => !nbit x.left.toNat p && x.obs.any (fun o => o.ports.contains p)) })

/-- The decision of a user's symbol on a carrier from the current soft values (R146). -/
def decided (f : RxFrame) (o : RxObs) (soft : List Int) (k : Nat) : Cx :=
  (planPoint (framePlan f o.idx) (fun i => decide (soft.getD i 0 < 0)) k).getD ⟨0, 0⟩

/-- The residual error of a port in a symbol against the decisions, averaged over the carriers, as a ratio to its training
noise (R146). -/
def stepRise (x : GrpRx) (m : List (RxFrame × List Int)) (o : RxObs) (p : Nat) : Rat :=
  match m.head? with
  | none => 0
  | some (f, _) =>
    ratio (rMean ((usedCarriers f.low (frameMasked f)).map (fun k =>
      cNorm (cSub (obsAt o p k) (cSum (m.map (fun e => cMul (tapAt e.1 o p (userPlace e.1) k) (decided e.1 o e.2 k))))))))
      (estOf x.chan p).noise

/-- A port's step run after an unflagged symbol (R146). -/
def stepRun (g i : Nat) (rise : Rat) (p : Nat) (s : State) : State :=
  if nbit (rxOf s g).stepped.toNat p then s
  else if ofDb (stepThr s) ≤ rise then
    setRx g (fun x => { x with
      run := vSet x.run p (vAt x.run p + 1), runAt := if vAt x.run p = 0 then vSet x.runAt p i else x.runAt
      rise := vSet x.rise p (max (vAt x.rise p) rise) }) s
  else setRx g (fun x => { x with run := vSet x.run p 0, rise := vSet x.rise p 0 }) s

/-- The step watch starts on a group (08 R266): the stepped node's maps go, and nodes whose downlink set is older owe a
fresh one. -/
def startWatch (g node : Nat) (t : W64) (m : BitVec 6) (s : State) : State :=
  let s := if nState s node = 0 then s else dropMaps node s
  let w := objF s 0 0x703 15 12
  if w = 0 then s
  else
    let sf := sfNow s
    let s := setGrpL g (fun l => { l with watch := some (sf + w + 1, t, m) }) s
    ((nodesIn s 2).filter (fun n => nGroup s n == g && decide (nPorts s n &&& m.toNat ≠ 0)
      && (List.range 8).any (fun i => match mapSlot s n 1 i with | some c => decide (cTb s c < t.toNat) | none => false))).foldl
      (fun s n => nSetMapreq n true s) s

/-- The BB_CHANNEL_STEP of one user's frame, stamped with the start of its first stepped symbol (R148), and the link layer's
step watch for its node (08 R266). -/
def stepRaised (g first : Nat) (mask : BitVec 6) (big : Rat) (f : RxFrame) (s : State) : State :=
  let t := BitVec.ofNat 64 (symStart 0 f.t0 f.gi first)
  startWatch g f.node.toNat t mask
    (srcStore ⟨76, 0, false, BitVec.ofNat 3 (evSev .bbChannelStep), t, BitVec.ofNat 16 (evCode .bbChannelStep),
      beBytes 2 f.node.toNat ++ beBytes 1 mask.toNat ++ beBytes 2 first
        ++ beBytes 1 (clampInt 0 255 (roundAny 148 (dbOf big))).toNat ++ beBytes 1 g⟩ s)

/-- Steps declared at this symbol (R146 to R148): the ports are excluded from their first stepped symbol on, and each frame
with a step raises its BB_CHANNEL_STEP once. -/
def declareSteps (g : Nat) (s : State) : State :=
  let x := rxOf s g
  let new := (List.range 6).filter (fun p => !nbit x.stepped.toNat p && decide (stepN s ≤ vAt x.run p))
  if new.isEmpty then s
  else
    let first := new.foldl (fun a p => min a (vAt x.runAt p)) (vAt x.runAt (new.headD 0))
    let mask := x.stepped ||| BitVec.ofNat 6 (portMask new)
    let s := new.foldl (fun s p => bumpF (pf p) 0x525 15 8 1 s) s
    let s := setRx g (fun x => { x with stepped := mask }) s
    let big := new.foldl (fun a p => max a (vAt x.rise p)) 0
    -- a frame's step is raised once: those that a step has reached already are left out
    let old := (List.range 6).filter (fun p => nbit x.stepped.toNat p)
    let told := fun (f : RxFrame) => old.any (fun p => decide (vAt x.runAt p < f.nsym))
    ((x.users.filterMap (·.lay)).filter (fun f => decide (first < f.nsym) && !told f)).foldl
      (fun s f => stepRaised g first mask big f s) s

/-- The layouts of the accepted users with whether each one's payload is stored. -/
def storedLays (x : GrpRx) : List (RxFrame × Bool) :=
  (layouts x).zip ((x.users.filter (fun u => u.lay.isSome)).map (fun u => u.frame.isSome))

/-- A symbol's soft values are written for every user whose payload is stored (R142, R144, 06 R168, R170). The users that
count against the remaining ports are those accepted: DESIGN CHOICE (log 122). -/
def writeSym (g : Nat) (o : RxObs) (s : State) : State :=
  (storedLays (rxOf s g)).foldl (fun s e => match (if e.2 then decFrame s e.1.id else none) with
    | some fr =>
      if o.i < e.1.nsym then
        setFrame { e.1 with cws := fr.cws, soft := fr.soft ++ symSoft s e.1 o, erased := fr.erased + b2n (symLost e.1 e.1.acc o) } s
      else s
    | none => s) s

/-- Write the symbols that are due (R142): those `lag` symbols old, or all. -/
def writeDue (g lag : Nat) (s : State) : State :=
  let x := rxOf s g
  let due := x.obs.filter (fun o => decide (x.sent ≤ o.i ∧ o.i + lag ≤ x.seen))
  setRx g (fun x => { x with sent := x.sent + due.length }) (due.foldl (fun s o => writeSym g o s) s)

/-- A stored frame is complete: its codewords wait (R142, 06 R174). An accepted frame that is not stored leaves its report
(R151). -/
def frameComplete (f : RxFrame) (stored : Bool) (s : State) : State :=
  if !stored then reportOnly f s
  else match decFrame s f.id with
    | none => s
    | some fr =>
      let fr := { fillBlock fr 0 fr.cws.length fr.soft s.clk.tb with
        complete := true, impSyms := f.impSyms, step := f.step, contrib := f.contrib, stepAt := f.stepAt
        owed := decide (f.step ≠ 0) && objF s 0 0x521 15 15 == 1 }
      setDec (fun d => { d with cwNow := d.cwNow + fr.cws.length }) (setFrame fr s)

/-- The frame's last symbol has been processed. -/
def rxComplete (g : Nat) (s : State) : State :=
  let s := writeDue g 0 s
  let x := rxOf s g
  let s := (storedLays x).foldl (fun s e => frameComplete e.1 e.2 s) s
  let s := (List.range 6).foldl (fun s p => if nbit x.overs.toNat p then bumpF (pf p) 0x525 7 0 1 s else s) s
  decStatus (rxIdle g s)

/-- A symbol that began at TB a has been overwritten in the receive ring (09 R272): it lies more than the 31.2 us back that
the ring holds, and the samples of a port no longer reach back to it; or no cluster is active to which its transform could be
assigned (R12), so that it stays in the ring until it is overwritten (log 148). -/
def overwritten (s : State) (rx : Rx) (ports : List Nat) (a : Nat) : Bool :=
  decide (activeL s = 0) || decide (12480 < rxTb s - a) && ports.any (fun p => decide ((rxOfPort rx p).length ≤ (rxTb s - a) / 2))

/-- The windows of a symbol's ports (R143, R144, 06 R171), folded by `win`; a symbol overwritten has none, is erased and
counts in RX_OVERRUN (09 R272, 06 R170). -/
def symbolPorts (lost : Bool) (ports : List Nat)
    (win : Nat → State × List Nat × Bool → State × List Nat × Bool) (s : State) : State × List Nat × Bool :=
  if lost then (bumpF 0 0xF00 15 8 1 s, [], false) else ports.foldl (fun b p => win p b) (s, [], false)

/-- A payload symbol is processed (R138 to R148, R152, 06 R171), its FFT window 96 samples before the end of its guard
(R135). -/
def execBbPayloadSymbol (g : Fin 6) (rx : Rx) (s : State) : Host.Outcome State Fault Refusal :=
  .next (let x := rxOf s g.val
    let ls := layouts x
    let u := (x.users.filter (fun u => u.fc.isSome)).headD default
    let gi := (u.fc.getD default).gi
    let i := x.seen
    let o := 16384 + i * (4096 + giSamples gi) + giSamples gi - 96
    if x.ph ≠ .payload ∨ heard s x.t0 (o + 4095) = false then s
    else
      let a := x.t0 + 2 * o
      let bin := binAt s a
      let off := symOffset x u
      let eq := fun p => quietEnergy s (rxOfPort rx p) x.t0 off o
      let svc := quietPorts s ((rxPorts s g.val).filter (fun p => !nbit x.left.toNat p && x.chan.ests.any (fun e => e.port == p))) x.t0 o (o + 4096)
      let r := symbolPorts (overwritten s rx svc a) svc
        (fun p => portWindow g.val bin p (eq p) (overCount s p (rxOfPort rx p) a)) s
      let obs : RxObs := { i := i, idx := slotAt s (symStart 0 x.t0 gi i) % 8, bin := bin, ports := r.2.1
                           y := (quietPorts s (x.chan.ests.map (·.port)) x.t0 o (o + 4096)).map (fun p =>
                             (p, spectrum s (lowBand s g.val) (rxOfPort rx p) x.t0 off o)) }
      let s := setRx g.val (fun x => { x with
        seen := i + 1, obs := x.obs ++ [obs], impAt := if r.2.2 then x.impAt ++ [i] else x.impAt }) r.1
      let m := (ls.filter (fun f => decide (i < f.nsym))).map (fun f => (f, symSoft s { f with obs := f.obs ++ [obs] } obs))
      let s := r.2.1.foldl (fun s p => stepRun g.val i (stepRise x m obs p) p s) s
      let s := declareSteps g.val s
      let total := ls.foldl (fun a f => max a f.nsym) 0
      if total ≤ i + 1 then rxComplete g.val s else writeDue g.val (stepN s + 1) s)

/-- New soft values of re-estimated symbols reach the codewords (R147, 06 R174): posteriors move by the change. -/
def reestCw (f : RxFrame) (c : Nat) (w : DecCw) (inp : List Int) : DecCw :=
  if w.ph = .converged then w
  else { w with inp := inp, post := movePost f c w inp }

/-- A frame whose stepped ports rejoin with new channels, its soft values recomputed (R147). -/
def rejoined (s : State) (f : RxFrame) : RxFrame :=
  let g := { f with owed := false, again := f.stepAt.map (fun e => (e.1, newTaps s f e.1 e.2)) }
  let soft := frameSoft s g
  let ins := deinterleave (fitOf f) f.rate 96 0 f.cws.length soft
  { g with soft := soft, cws := (List.range f.cws.length).map (fun c => reestCw f c (f.cws.getD c (newCw 0)) (ins.getD c [])) }

/-- The stepped ports are re-estimated once the decoder has made its first pass over every codeword of the slot's frames
(R147): the soft values of their symbols are recomputed. -/
def execBbStepReestimate (g : Fin 6) (u : Fin 3) (s : State) : Host.Outcome State Fault Refusal :=
  .next (match s.dec.frames.find? (fun f => f.group == g.val && f.nb.isNone && f.uidx == u.val && f.owed && f.complete) with
    | none => s
    | some f =>
      if (s.dec.frames.filter (fun x => sameSlot x f)).all (fun x => x.cws.all (·.passed)) then setFrame (rejoined s f) s else s)

/-- A quiet 4096-sample block (R143, R145, 07 R221), the newest samples of the port: floor and IMP always, the noise map
while no burst is being received. -/
def execNoiseMapBlock (p : Fin 6) (rx : List Int) (s : State) : Host.Outcome State Fault Refusal :=
  .next (let g := groupOf s p.val
    let a := rxTb s - 8190
    if funcDown s (pf p.val) || txIn s p.val a (rxTb s + 2) then s
    else
      let bin := binAt s a
      let eq := quietEnergy s rx a 0 0
      if impulsive s p.val eq (overCount s p.val rx a) then
        let s := impUpdate p.val bin true (bumpF (pf p.val) 0x525 31 16 1 s)
        setBb (fun b => { b with flagged := vSet b.flagged p.val ((a :: vAt b.flagged p.val).take 64) }) s
      else
        let s := impUpdate p.val bin false (floorUpdate p.val eq s)
        if (rxOf s g).ph ≠ .idle then s
        else (List.range 24).foldl (fun t k =>
          noisePut p.val bin k (rMean ((inGroup k (carriers false)).map (fun c => cNorm (windowAt s rx a 0 0 4096 c)))) t) s)

-- Commands.

/-- BB_RX_LAST (R151). -/
def execBbRxLast (r : Req) (s : State) : Host.Outcome State Fault Refusal :=
  .next (execReq 0x520 r (r.func == 0) (lenAnd r 4 (chk (decide (byteAt r.params 0 ≤ 5)) 0)) false
    (fun s => match (rxOf s (byteAt r.params 0)).report with
      | some b => .reply stDone b s
      | none => refuse stNoResource noField s) s)

/-- The node ID in bits 31:20 of the first parameter word. -/
def reqNode (r : Req) : Nat := nfield (beAt r.params 0 4) 31 20

/-- BB_SNR_ARM (R150). -/
def execBbSnrArm (r : Req) (s : State) : Host.Outcome State Fault Refusal :=
  let n := reqNode r
  .next (execReq 0x521 r (r.func == 0) (lenAnd r 4 (chk (decide (1 ≤ n ∧ n ≤ 4094)) 0)) false
    (fun s =>
      if nState s n = 0 then refuse stNoResource noField s
      else .reply stAccepted [] (setBb (fun b => { b with snrArm := some (BitVec.ofNat 12 n) }) s)) s)

/-- BB_SNR_READ (R150): 16 bytes of heading and 1728 of the view. -/
def execBbSnrRead (r : Req) (s : State) : Host.Outcome State Fault Refusal :=
  let v := byteAt r.params 0
  .next (execReq 0x522 r (r.func == 0) (lenAnd r 4 (chk (decide (v ≤ 6)) 0)) false
    (fun s => match s.bb.snrCap with
      | none => refuse stNoResource noField s
      | some (n, idx, t0, views) =>
        .reply stDone (beBytes 2 n.toNat ++ beBytes 1 v ++ beBytes 1 idx ++ beBytes 8 t0 ++ beBytes 4 0
          ++ slice (views.getD v []) 0 1728) s) s)

/-- A power per carrier in −0.5 dBFS, 1 to 255: a carrier of power N_p has twice that, its negative frequency beside it. -/
def halfDbfs (rule : Nat) (v : Rat) : Nat := (clampInt 1 255 (roundAny rule (-2 * dbOf (2 * v)))).toNat

/-- BB_NOISE_READ (R145): N in −0.5 dBFS, 0 for no observation; IMP in 1/255. -/
def execBbNoiseRead (r : Req) (s : State) : Host.Outcome State Fault Refusal :=
  .next (execReq 0x523 r (portFunc r) (lenIs r 0) (funcDown s r.func.toNat)
    (fun s =>
      let p := reqPort r
      let b := (List.range 64).flatMap (fun b =>
        (List.range 24).map (fun g =>
          let v := noiseMap s p b g
          if v < 0 then (0 : Byte) else BitVec.ofNat 8 (halfDbfs 523 v))
        ++ [BitVec.ofNat 8 (roundAny 5231 (255 * smGet (fun _ => 0) s.bb.imp (64 * p + b))).toNat] ++ List.replicate 7 0)
      .reply stDone b s) s)

end Sys2Proof.Machine
end

