-- ==== Sys2Proof/Machine/Narrow.lean ====
section
/-!
DEFINITION. The narrowband layer (07): channels and their Sieves, the burst as it leaves the ports, detection, sync word,
header, payload symbols, capture, carrier loss, and the commands of the chapter.
-/
namespace Sys2Proof.Machine

/-- Fields of NB_CFG and NB_DET as the device uses them (07). -/
def nbPreLen (s : State) : Nat := max 16 (objF s 0 0x610 31 26)
def nbRampUs (s : State) : Nat := min 64 (max 8 (objF s 0 0x610 25 19))
def csThr (s : State) : Nat := objF s 0 0x612 31 28
def syncErr (s : State) : Nat := objF s 0 0x612 27 25
def nbRestartDb (s : State) : Nat := objF s 0 0x612 18 15
def nbCapMargin (s : State) : Nat := max 3 (objF s 0 0x612 14 11)
def lossDb (s : State) : Nat := max 6 (objF s 0 0x612 9 6)
def lossN (s : State) : Nat := 4 * max 1 (objF s 0 0x612 5 2)
def syncWin (s : State) : Nat := 4 * max 1 (objF s 0 0x612 24 19)

/-- The record number of a group's channel. -/
def nbI (g ch : Nat) : Nat := 8 * g + ch

/-- A configuration enables its channel. -/
def nbEnabled (cfg : W32) : Bool := fget cfg 31 13 != 0

/-- Ports of some that contribute to reception on a channel (R211, R213, R226): in SERVICE, the layer enabled, the driver
idle, the Sieve clean. -/
def nbHear (s : State) (ports : List Nat) (ch : Nat) (cfg : W32) : List Nat :=
  ports.filter (fun p => inService s p && objF s (pf p) 0x400 27 27 == 1 && !driverOn s p && nbClean s p ch cfg)

/-- Ports that contribute to a group's reception on a channel. -/
def nbRxPorts (s : State) (g ch : Nat) : List Nat := nbHear s (portsOf s g) ch (nbOf s (nbI g ch)).cfg

/-- Counts of NB_COUNT. -/
def nbCount (ch hi lo n : Nat) (s : State) : State := bumpF 0 (0x630 + ch) hi lo n s

/-- The channel returns to IDLE; frames that the decoder holds go on. -/
def nbIdle (g ch : Nat) (s : State) : State :=
  setNbRx (nbI g ch) (fun x => { (default : NbRx) with ph := .idle, cfg := x.cfg, report := x.report }) s

/-- A symbol time in ticks. -/
def nbT (cfg : W32) : Rat := 400000000 / nbBaud cfg

/-- The fine outputs of a port on a channel that a row's samples give. -/
def nbFine (s : State) (p ch : Nat) (cfg : W32) (rx : Rx) : List SieveOut :=
  fineOuts (sieveOrder cfg) (coarseOuts s p ch cfg (rxOfPort rx p))

/-- The group delay of a Sieve's fine path in ticks: N (R − 1) / 2 input samples and 23 / 2 coarse outputs (R207). -/
def nbDelay (cfg : W32) : Rat := (sieveOrder cfg * (sieveR cfg - 1) + 23 * sieveR cfg : Nat)

/-- Ticks from one fine output to the next (R207). -/
def fineStep (cfg : W32) : Rat := (4 * sieveR cfg : Nat)

/-- A port's floor test (R214): the power is CS_THR above the channel floor, where that has been measured. -/
def aboveFloor (s : State) (p ch : Nat) (power : Rat) : Bool :=
  match vAt s.nb.floor (8 * p + ch) with
  | some f => decide (f * ofDb (csThr s) ≤ power)
  | none => true

/-- The detection of a port (R214): the larger power of the grids on which it detects. -/
def nbPortPower (s : State) (p ch : Nat) (cfg : W32) (rx : Rx) : Option Rat :=
  let c := coarseOuts s p ch cfg (rxOfPort rx p)
  let l := ([gridPower false c, gridPower true c].filterMap id).filter (aboveFloor s p ch)
  if l.isEmpty then none else some (l.foldl max 0)

/-- A narrowband detection (R214); in SYNC a detection RESTART_DB stronger restarts the attempt, a weaker one is ignored
(R216). -/
def execNbPreambleDetect (g : Fin 6) (ch : Fin 8) (rx : Rx) (s : State) : Host.Outcome State Fault Refusal :=
  .next (let i := nbI g.val ch.val
    let x := nbOf s i
    let t := rxTb s
    let ports := (nbRxPorts s g.val ch.val).filter (fun p => !txIn s p (t - (8 * nbT x.cfg).floor.toNat) (t + 2))
    let hits := ports.filterMap (fun p => nbPortPower s p ch.val x.cfg rx)
    let pw := hits.foldl max 0
    -- the frame keeps the membership of its preamble (03 R80)
    let all := portsOf s g.val
    let go := fun s => setNbRx i (fun x => { x with ph := .sync, det := t, power := pw, ports := all })
      (nbCount ch.val 31 24 1 s)
    if !nbEnabled x.cfg || hits.isEmpty then s
    else if x.ph = .idle then go s
    else if x.ph = .sync ∧ x.power * ofDb (nbRestartDb s) ≤ pw then go (nbCount ch.val 23 16 1 s)
    else s)

/-- Differing bits of two words. -/
def hamming (a b : W32) : Nat := ((List.range 32).filter (fun i => a.getLsbD i != b.getLsbD i)).length

-- Combining (R215).

/-- Complex gains of ports against the strongest over some outputs of each; a port more than 20 dB below it is left out
(R215). -/
def nbGains (l : List (Nat × List Cx)) : List (Nat × Cx) :=
  let en := fun (e : Nat × List Cx) => rSum (e.2.map cNorm)
  match l.foldl (fun (a : Option (Nat × List Cx)) e => match a with
      | none => some e
      | some b => if en b < en e then some e else some b) none with
  | none => []
  | some q => (l.filter (fun e => decide (en q ≤ 100 * en e))).map (fun e => (e.1, cScale (ratio 1 (en q)) (cDot e.2 q.2)))

/-- Outputs of ports combined by their gains, in the order of time; ports without a gain are left out (R215). -/
def nbCombine (gains : List (Nat × Cx)) (l : List (Nat × List Cx)) : List Cx :=
  let m := l.filterMap (fun e => (gains.find? (fun g => g.1 == e.1)).map (fun g => (g.2, e.2)))
  (List.range ((m.map (·.2.length)).foldl max 0)).map (fun i =>
    let k := m.filter (fun e => decide (i < e.2.length))
    cScale (ratio 1 (rSum (k.map (fun e => cNorm e.1)))) (cSum (k.map (fun e => cMul (cConj e.1) (e.2.getD i ⟨0, 0⟩)))))

/-- Values of each port's fine outputs from TB a up to b, the Sieve's delay taken out. -/
def nbSpan (s : State) (ch : Nat) (cfg : W32) (fines : List (Nat × List SieveOut)) (a b : Rat) : List (Nat × List Cx) :=
  fines.map (fun e => (e.1, (outsIn s e.1 ch cfg e.2 (a + nbDelay cfg) (b + nbDelay cfg)).map outVal))

/-- The span of symbol k of a frame: half a symbol time about its pulse's centre, k symbol times after the stamp (R193). -/
def nbSymSpan (cfg : W32) (stamp k : Nat) : Rat × Rat := (stamp + ((k : Rat) - 1 / 2) * nbT cfg, stamp + ((k : Rat) + 1 / 2) * nbT cfg)

/-- A sync word found (R215, R218, R223): the stamp of its first symbol, differences, frame level, carrier offset in Hz, the
gains, its combined outputs by symbol, and the quality of each port. -/
structure NbFound where
  stamp : Nat
  errs : Nat
  level : Rat
  foff : Rat
  gains : List (Nat × Cx)
  syms : List (List Cx)
  quality : List (Nat × Nat)

/-- Hard decisions of combined outputs cut into symbols of 15 625 / 960 outputs from a position on (R208, R215): the sign of
the mean phase advance, an offset per output taken out. -/
def hardSyms (z : List Cx) (at_ off : Rat) : List (List Cx) × List Bool :=
  let n : Rat := 15625 / 960
  let m := (((z.length : Rat) - at_) / n).floor.toNat
  let cut := (List.range m).map (fun (j : Nat) => (z.zipIdx.filter (fun e =>
    decide (at_ + j * n ≤ e.2) && decide ((e.2 : Rat) < at_ + (j + 1) * n))).map (·.1))
  (cut, cut.map (fun c => decide (off < rMean (advances c))))

/-- Ticks from the end of a window to the decision on it (R215): the next two windows, and the delay of the Sieve. -/
def searchTail (cfg : W32) : Rat := 2 * nbT cfg + nbDelay cfg

/-- The search window of a detection has passed (R215): the window that is decided now ended later than that. -/
def winOver (s : State) (x : NbRx) : Bool :=
  decide ((x.det : Rat) + syncWin s * nbT x.cfg + searchTail x.cfg < rxTb s)

/-- The sync search over the newest symbols (R215): the window that ended two symbols ago, and the next two; the one with the
fewest differences is taken, the earliest on a tie. The gains are those formed at the last multiple of 32 symbols from the
detection, the offset that of the eight symbols before it (log 126). -/
def nbFind (s : State) (ports mon : List Nat) (ch : Nat) (cfg : W32) (det : Nat) (rx : Rx) : Option NbFound :=
  let t := nbT cfg
  let now_ : Rat := rxTb s
  let fines := mon.map (fun p => (p, nbFine s p ch cfg rx))
  let own := fines.filter (fun e => ports.contains e.1)
  let seg : Rat := det + 32 * t * ((now_ - det) / (32 * t)).floor
  let gains := nbGains (nbSpan s ch cfg own (seg - 8 * t) seg)
  let pre := nbCombine gains (nbSpan s ch cfg own ((det : Rat) - 8 * t) det)
  let adv := rMean (advances pre)
  let z := nbCombine gains (nbSpan s ch cfg own (now_ - 36 * t - nbDelay cfg) (now_ - nbDelay cfg))
  let n : Rat := 15625 / 960
  let r := Config.symbolTiming (z.map (fun c => (c.re, c.im)))
  let at_ := r - n * (r / n).floor
  let h := hardSyms z at_ adv
  let base := h.1.length - 34
  let d := (List.range 3).map (fun k => hamming (BitVec.ofNat 32 (bitsToNat ((h.2.drop (base + k)).take 32))) (getObj s 0 0x611))
  let best := d.foldl min (d.headD 32)
  let k := base + d.idxOf best
  let first := (own.head?.bind (fun e => (outsIn s e.1 ch cfg e.2 (now_ - 36 * t) now_).head?.map (fun o => fineTb s e.1 ch cfg o.j))).getD 0
  let stamp := (roundNear 215 (first - nbDelay cfg + (at_ + k * n + n / 2) * fineStep cfg)).toNat
  let foff := adv * 400000000 / fineStep cfg
  let devs := (bitsOf 32 (getObj s 0 0x611).toNat).map (dev1 (fget cfg 10 10 == 1))
  if h.1.length < 34 ∨ syncErr s < d.headD 32 then none
  else some {
    stamp := stamp, errs := best, foff := foff, gains := gains, syms := (h.1.drop k).take 32
    level := rMean (((h.1.drop k).take 32).flatMap (fun c => c.map outPower))
    quality := fines.map (fun e => (e.1, lqiDb (dbOf (gfskSnr cfg foff devs ((List.range 32).map (fun j =>
      let w := nbSymSpan cfg stamp j
      ((nbSpan s ch cfg [e] w.1 w.2).map (·.2)).flatten)))))) }

/-- Ports of a group whose sync quality is measured: the contributing ones, and the clean and idle ones in REMOVED_AUTO (03
R84). -/
def nbMonPorts (s : State) (g ch : Nat) (cfg : W32) : List Nat :=
  (monPorts s g).filter (fun p => objF s (pf p) 0x400 27 27 == 1 && !driverOn s p && nbClean s p ch cfg)

/-- The channel enters HEADER on a sync word (R215, R218, R223), its frame on the members `all` of its preamble (03 R80). -/
def enterHeader (g ch : Nat) (all ports : List Nat) (f : NbFound) (captured : Bool) (s : State) : State :=
  let q := fun p => match f.quality.find? (fun e => e.1 == p) with | some e => e.2 | none => 0
  let s := ports.foldl (fun s p => setNb (fun b => { b with
    level := vSet b.level (8 * p + ch) (some f.level), sq := vSet b.sq (8 * p + ch) (q p) }) s) s
  setNbRx (nbI g ch) (fun x => { (default : NbRx) with
    ph := .header, cfg := x.cfg, report := x.report, det := x.det, level := f.level, errs := f.errs
    sq := (List.range 6).map (fun p => if ports.contains p then q p else 0), contrib := ports, mon := f.quality
    stamp := f.stamp, foff := f.foff, ports := all, gains := f.gains, done := 32, seen := f.syms, captured := captured }) s

/-- The sync word is found (R215) in a window that ended within SYNC_WIN symbols of the detection. -/
def execNbSyncMatch (g : Fin 6) (ch : Fin 8) (rx : Rx) (s : State) : Host.Outcome State Fault Refusal :=
  .next (let x := nbOf s (nbI g.val ch.val)
    let ports := nbHear s x.ports ch.val x.cfg
    if x.ph ≠ .sync ∨ winOver s x then s
    else match nbFind s ports (nbMonPorts s g.val ch.val x.cfg) ch.val x.cfg x.det rx with
      | some f => enterHeader g.val ch.val x.ports ports f false s
      | none => s)

/-- No window matches within SYNC_WIN symbols (R215). -/
def execNbSyncTimeout (g : Fin 6) (ch : Fin 8) (s : State) : Host.Outcome State Fault Refusal :=
  .next (let x := nbOf s (nbI g.val ch.val)
    if x.ph = .sync ∧ winOver s x then nbIdle g.val ch.val (nbCount ch.val 23 16 1 s) else s)

/-- The slot in progress, counted from reset. -/
def slotCount (s : State) : Nat := 16 * sfNow s + s.clk.slot.val

/-- First slot of an opening, counted from reset, and the slot after its last. -/
def openFirst (o : OpenSt) : Nat := 16 * o.sf + o.first
def openEnd (o : OpenSt) : Nat := openFirst o + o.count

/-- The opening of a group and channel, of one of some kinds, that covers the slot in progress. -/
def openNow (s : State) (g ch : Nat) (kinds : List Nat) : Option OpenSt :=
  s.lk.opens.find? (fun o => o.group == g && o.chan == ch && kinds.contains o.kind
    && decide (openFirst o ≤ slotCount s) && decide (slotCount s < openEnd o))

/-- The latest end of a burst's last symbol (R196): its slots end with the one before `slotEnd`, counted from reset. -/
def nbLimit (s : State) (slotEnd rampUs : Nat) : Nat :=
  slotStartTb s (slotEnd - 16 * sfNow s) - max (tailTicks (getObj s 0 0x500)) (us rampUs)

/-- The end limit of R196 for an opening. -/
def openLimit (s : State) (o : OpenSt) : Nat := nbLimit s (openEnd o) (nbRampUs s)

/-- Fields of a header word (R200). -/
structure NbHead where
  dst : Nat
  src : Nat
  mod : Bool
  len : Nat
  rate : Nat
  blk : Nat
deriving DecidableEq, Repr

def nbHeadOf (w : BitVec 64) : NbHead :=
  ⟨wordField w 16 27, wordField w 4 15, wordField w 3 3 == 1, wordField w 36 43, wordField w 44 45, wordField w 46 48⟩

/-- The tests of R217; a RATE of 0b11, which is not sent, fails too. -/
def nbHeadOk (s : State) (g ch : Nat) (cfg : W32) (w : BitVec 64) (endTb : Nat) : Bool :=
  crc8 ((List.range 56).map (fun i => w.getLsbD i)) == wordField w 56 63
    && wordField w 0 1 == 1 && wordField w 2 2 == 0 && wordField w 28 35 == netId s % 256
    && (wordField w 3 3 == 0 || fget cfg 10 10 == 1) && wordField w 44 45 != 3
    && (match openNow s g ch [0, 3] with | some o => decide (endTb ≤ openLimit s o) | none => false)

/-- Deviations of the sync word and of a header as re-encoded (R194, R198, R200). -/
def headDevs (s : State) (cfg : W32) (w : BitVec 64) : List Int :=
  let c := ldpcEncode 0 12 ((List.range 64).map (fun i => w.getLsbD i) ++ List.replicate 80 false)
  (bitsOf 32 (getObj s 0 0x611).toNat ++ c.take 64 ++ (c.drop 144).take 144).map (dev1 (fget cfg 10 10 == 1))

/-- The receive report of R224 as the accepted header gives it. -/
def nbHeadReport (s : State) (g ch : Nat) (x : NbRx) (w : BitVec 64) (nsym : Nat) : Bytes :=
  let h := nbHeadOf w
  let lqi := lqiDb (dbOf (gfskSnr x.cfg x.foff (headDevs s x.cfg w) x.seen))
  beBytes 2 h.src ++ beBytes 1 g ++ beBytes 1 ch ++ beBytes 1 (2 * b2n x.captured + 8 * b2n h.mod + 16 * b2n x.armedEver)
    ++ beBytes 1 lqi ++ beBytes 1 x.errs ++ [0] ++ be16s (roundAny 224 (10 * x.foff)) ++ x.sq.map (BitVec.ofNat 8) ++ beBytes 2 0
    ++ beBytes 1 h.len ++ beBytes 1 (64 * h.rate + 8 * h.blk) ++ beBytes 2 nsym ++ [0, 0] ++ beBytes 8 x.stamp

/-- The frame of an accepted header (R201 to R206). -/
def nbFrame (s : State) (g ch : Nat) (x : NbRx) (w : BitVec 64) (fit : Fit) (nsym : Nat) : RxFrame :=
  let h := nbHeadOf w
  { (default : RxFrame) with
    id := s.dec.nextId, set := x.stamp, group := g, nb := some ch, node := BitVec.ofNat 12 h.src, dst := BitVec.ofNat 12 h.dst
    users := 1, slot := s.clk.slot.val, t0 := x.stamp, sf := sfNow s, rate := h.rate
    fit := [fit.n, fit.s, fit.l0, fit.nsym, fit.d, fit.pad], per := h.blk + 1, bytes := h.len, nsym := nsym
    ubits := if h.mod then 2 else 1, pool := portMask x.ports, cws := newCws fit 12 false, rounds := 1
    foff := x.foff, present := 1, captured := x.captured, armedEver := x.armedEver, contrib := x.contrib, nbMon := x.mon
    nbCfg := x.cfg, nbDevs := headDevs s x.cfg w, nbHead := x.seen, errs := x.errs, sq := x.sq }

/-- The header codeword of 208 soft values, its shortened bits known zeros, after at most 20 iterations (R200, R206, 06
R169). -/
def headDecoded (soft : List Int) : BitVec 64 × Bool :=
  let r := minSumRun 0 12 (fun i => decide (64 ≤ i ∧ i < 144)) 20 (soft.take 64 ++ List.replicate 80 127 ++ soft.drop 64) []
  (wordOf 64 r.1, r.2)

/-- The header codeword is decoded once its last symbol has been received (R206, R217, R224): 20 iterations of precedence
work. -/
def execNbHeaderDecode (g : Fin 6) (ch : Fin 8) (s : State) : Host.Outcome State Fault Refusal :=
  .next (let i := nbI g.val ch.val
    let x := nbOf s i
    if x.ph ≠ .header ∨ x.done ≠ 240 then s
    else
      let s := addPrec 2000 s
      let w := (headDecoded x.soft).1
      let h := nbHeadOf w
      let fit := fitNb h.rate (8 * h.len + 16)
      let nsym := cdiv fit.len (if h.mod then 2 else 1)
      let fin := ((x.stamp : Rat) + (240 + nsym : Nat) * nbT x.cfg).floor.toNat
      if !((headDecoded x.soft).2 && nbHeadOk s g.val ch.val x.cfg w fin) then nbIdle g.val ch.val (nbCount ch.val 15 8 1 s)
      else
        let s := setLk (fun l => { l with present := l.present ++ [(g.val, BitVec.ofNat 12 h.src)] }) s
        let take := decide (h.dst = 0 ∨ h.dst = 4095)
        let f := nbFrame s g.val ch.val x w fit nsym
        let s := if take then setDec (fun d => { d with frames := d.frames ++ [f], nextId := f.id + 1 }) s else s
        setNbRx i (fun y => { y with
          ph := .payload, frame := if take then some f.id else none, nsym := nsym, head := w, last := []
          report := some (nbHeadReport s g.val ch.val x w nsym) }) s)

/-- The Furrow blocks of a narrowband frame (R203): first codeword, count, first stream position and length. -/
def nbBlocks (f : RxFrame) : List (Nat × Nat × Nat × Nat) :=
  let fit := fitOf f
  ((List.range (cdiv fit.n (max 1 f.per))).foldl (fun (a : List (Nat × Nat × Nat × Nat) × Nat) b =>
    let c0 := b * f.per
    let n := min f.per (fit.n - c0)
    let len := (List.range n).foldl (fun x k => x + fit.sent 12 (c0 + k)) 0
    (a.1 ++ [(c0, n, a.2, len)], a.2 + len)) ([], 0)).1

/-- A block without a reservation ends the storage of its frame: that block and the rest are neither stored nor decoded
(R167, R205); the blocks before it are complete and are decoded. -/
def nbRefuse (i : Nat) (f : RxFrame) (s : State) : State :=
  let s := furrowFull (setNbRx i (fun x => { x with frame := none }) s)
  if f.cws.all (fun w => decide (w.ph = .filling)) then dropFrame f.id s
  else maybeEnd { f with cws := f.cws.map (fun w => if w.ph = .filling then { w with ph := .failed } else w), complete := true } s

/-- Soft values of one payload symbol join a frame (R203, R205, R206): a block reserves at its first symbol and is
decoded after its last. -/
def nbWrite (i id : Nat) (q : List Int) (lost : Bool) (z : List Cx) (s : State) : State :=
  match decFrame s id with
  | none => s
  | some f =>
    let old := f.soft.length
    let q := q.take ((fitOf f).len - old)
    let new := old + q.length
    let fresh := (nbBlocks f).filter (fun b => decide (old ≤ b.2.2.1) && decide (b.2.2.1 < new))
    let need := fresh.foldl (fun a b => a + 4 * b.2.2.2) 0
    let full := decide (need ≠ 0 ∧ poolBits s f.group < poolUsed s f.group + need)
    -- without the reservation the symbol still completes the block that it ends
    let q := if full then q.take ((fresh.headD default).2.2.1 - old) else q
    let new := old + q.length
    let fit := fitOf f
    let cws := (List.range f.cws.length).map (fun c =>
      let w := f.cws.getD c (newCw 0)
      if !full && fresh.any (fun b => decide (b.1 ≤ c) && decide (c < b.1 + b.2.1)) then { w with resv := 4 * fit.sent 12 c }
      else w)
    let soft := f.soft ++ q
    let f := { f with cws := cws, soft := soft, erased := f.erased + b2n lost, nbPay := f.nbPay ++ [z] }
    let ends := (nbBlocks f).filter (fun b => decide (old < b.2.2.1 + b.2.2.2) && decide (b.2.2.1 + b.2.2.2 ≤ new))
    let t := s.clk.tb
    let f := ends.foldl (fun f b => fillBlock f b.1 b.2.1 ((soft.drop b.2.2.1).take b.2.2.2) t) f
    let f := { f with complete := decide (fit.len ≤ new) }
    if full then nbRefuse i f (setFrame f s) else decStatus (setFrame f s)

/-- ERASED_SYMS of the report counts a symbol. -/
def reportErased (n : Nat) (x : NbRx) : NbRx :=
  { x with report := x.report.map (fun b => slice b 0 16 ++ beBytes 2 (min 0xFFFF (beAt b 16 2 + n)) ++ slice b 18 14) }

/-- Set a bit of the report's FLAGS. -/
def reportFlag (bit : Nat) (x : NbRx) : NbRx :=
  { x with report := x.report.map (fun b =>
      let f := byteAt b 4
      slice b 0 4 ++ beBytes 1 (if nbit f bit then f else f + 2 ^ bit) ++ slice b 5 27) }

/-- Bits of a payload symbol. -/
def nbBps (x : NbRx) : Nat := if wordField x.head 3 3 == 1 then 2 else 1

/-- A symbol of the header or the payload is written: its soft values, or erasures (R170). -/
def nbStore (g ch : Nat) (lost : Bool) (soft : List Int) (z : List Cx) (s : State) : State :=
  let i := nbI g ch
  let x := nbOf s i
  let q := (List.range (if x.ph = .header then 1 else nbBps x)).map (fun j => if lost then 0 else softVal (soft.getD j 0))
  let next := fun (x : NbRx) => { x with done := x.done + 1, last := (lost :: x.last).take 8 }
  if x.ph = .header then setNbRx i (fun x => next { x with soft := x.soft ++ q, seen := x.seen ++ [z] }) s
  else
    let s := match x.frame with | some id => nbWrite i id q lost z s | none => s
    setNbRx i (fun x => reportErased (b2n lost) (next x)) s

/-- A port is left out of a symbol (R221): TX in it or the two before, OVER, a flagged quiet block, or its bin. -/
def nbLeftOut (s : State) (x : NbRx) (ch p k : Nat) (fine : List SieveOut) : Bool :=
  let w := nbSymSpan x.cfg x.stamp k
  let d := nbDelay x.cfg
  (outsIn s p ch x.cfg fine (w.1 - 2 * nbT x.cfg + d) (w.2 + d)).any (·.tx)
    || (outsIn s p ch x.cfg fine (w.1 + d) (w.2 + d)).any (·.ovr)
    || (vAt s.bb.flagged p).any (fun b => decide ((b : Rat) < w.2) && decide (w.1 < b + 8192))
    || binErased s p (binAt s w.1.floor.toNat)

/-- The soft values of a symbol from the combined outputs of it and its neighbours (R206, 06 R168). -/
def nbSoft (x : NbRx) (z : List Cx) : List Int :=
  let four := fget x.cfg 10 10 == 1
  let b := if x.ph = .header then 1 else nbBps x
  (List.range b).map (fun i => clampInt (-7) 7 (roundNear 168 (Config.gfskLlr b four (fget x.cfg 9 9 == 1)
    (z.map (fun c => (c.re, c.im))) i)))

/-- The runs of a symbol's power: the searcher disarms near the level, its run above the level and the run of carrier loss go
on (R218, R220). -/
def nbRuns (s : State) (power : Rat) (x : NbRx) : NbRx :=
  let cm := nbCapMargin s
  let near_ := decide (x.level ≤ power * ofDb ((cm : Rat) / 2)) && decide (power ≤ x.level * ofDb ((cm : Rat) / 2))
  { x with
    armed := x.armed && !near_
    above := if x.level * ofDb cm ≤ power then x.above + 1 else 0
    loss := if x.ph = .payload ∧ power * ofDb (lossDb s) < x.level then x.loss + 1 else 0 }

/-- The carrier is lost (R220): the remaining symbols are erasures and the frame's blocks complete. -/
def lostCarrier (g ch : Nat) (s : State) : State :=
  let i := nbI g ch
  let x := nbOf s i
  if x.ph = .payload ∧ lossN s ≤ x.loss then
    let s := setNbRx i (reportFlag 2) (nbCount ch 3 0 1 s)
    let s := (List.range (240 + x.nsym - x.done)).foldl (fun s _ => nbStore g ch true [] [] s) s
    nbIdle g ch s
  else s

/-- The next symbol of a frame (R213, R215, R218, R220 to R222), once its outputs are there; the gains are formed anew every
32 symbols. A symbol with no port left moves no run (log 126). -/
def execNbSymbol (g : Fin 6) (ch : Fin 8) (rx : Rx) (s : State) : Host.Outcome State Fault Refusal :=
  .next (let i := nbI g.val ch.val
    let x := nbOf s i
    let k := x.done
    let w := nbSymSpan x.cfg x.stamp k
    let due := decide (w.2 + nbDelay x.cfg ≤ rxTb s) && (decide (x.ph = .payload) || (decide (x.ph = .header) && decide (k < 240)))
    if !due then s
    else
      let fines := (nbHear s x.ports ch.val x.cfg).map (fun p => (p, nbFine s p ch.val x.cfg rx))
      let gains := if k % 32 = 0 then nbGains (nbSpan s ch.val x.cfg fines (w.1 - 8 * nbT x.cfg) w.1) else x.gains
      let keep := fines.filter (fun e => !nbLeftOut s x ch.val e.1 k e.2 && gains.any (fun q => q.1 == e.1))
      let z := nbCombine gains (nbSpan s ch.val x.cfg keep w.1 w.2)
      let around := nbCombine gains (nbSpan s ch.val x.cfg keep (w.1 - nbT x.cfg) (w.2 + nbT x.cfg))
      let s := setNbRx i (fun x => { (if keep.isEmpty then x else nbRuns s (rMean (z.map outPower)) x) with gains := gains }) s
      let s := nbStore g.val ch.val (keep.isEmpty || (nbOf s i).armed) (nbSoft x around) z s
      -- a run of carrier loss that ends with the frame's last symbol still acts on it (R222)
      if x.ph = .payload ∧ 240 + x.nsym ≤ k + 1 then nbIdle g.val ch.val (lostCarrier g.val ch.val s) else s)

/-- The symbols since the first of the eight become erasures, as far as they are not yet decoded (R218). -/
def eraseLast (i : Nat) (s : State) : State :=
  let x := nbOf s i
  if x.ph = .header then
    setNbRx i (fun x => { x with soft := x.soft.take (x.soft.length - x.last.length) ++ List.replicate (min x.soft.length x.last.length) 0 }) s
  else
    let fresh := (x.last.filter (fun e => !e)).length
    let s := match x.frame.bind (decFrame s) with
      | none => s
      | some f =>
        let at_ := f.soft.length - nbBps x * x.last.length
        let done := (nbBlocks f).foldl (fun a b => if b.2.2.1 + b.2.2.2 ≤ f.soft.length then max a (b.2.2.1 + b.2.2.2) else a) 0
        setFrame { f with
          erased := f.erased + fresh
          soft := (List.range f.soft.length).map (fun j => if max at_ done ≤ j then 0 else f.soft.getD j 0) } s
    setNbRx i (fun y => reportFlag 4 (reportErased fresh y)) s

/-- Eight symbols CAP_MARGIN above the frame level: the second searcher arms (R218). -/
def execNbCaptureArm (g : Fin 6) (ch : Fin 8) (s : State) : Host.Outcome State Fault Refusal :=
  .next (let i := nbI g.val ch.val
    let x := nbOf s i
    if (x.ph = .header ∨ x.ph = .payload) ∧ !x.armed ∧ 8 ≤ x.above then
      let t := rxTb s
      setNbRx i (fun y => { y with armed := true, armedEver := true, det := t, last := y.last.map (fun _ => true) }) (eraseLast i s)
    else s)

/-- The armed searcher finds a sync word within SYNC_WIN symbols (R219): the current frame is abandoned. -/
def execNbCapture (g : Fin 6) (ch : Fin 8) (rx : Rx) (s : State) : Host.Outcome State Fault Refusal :=
  .next (let x := nbOf s (nbI g.val ch.val)
    let ports := nbRxPorts s g.val ch.val
    if !x.armed || decide (x.ph ≠ .header ∧ x.ph ≠ .payload) || objF s 0 0x612 10 10 == 0 || winOver s x then s
    else match nbFind s ports (nbMonPorts s g.val ch.val x.cfg) ch.val x.cfg x.det rx with
      | none => s
      | some f =>
        let s := match x.frame with | some id => abandonFrame id s | none => s
        enterHeader g.val ch.val (portsOf s g.val) ports f true (nbCount ch.val 7 4 1 s))

/-- The combined power has stayed LOSS_DB below the frame level for LOSS_N symbols (R220). -/
def execNbLostCarrier (g : Fin 6) (ch : Fin 8) (s : State) : Host.Outcome State Fault Refusal :=
  .next (lostCarrier g.val ch.val s)

/-- A configuration takes effect on a group's channel, with a synchronising reset of its Sieves (R211, R213). -/
def nbTakes (g ch : Nat) (v : W32) (s : State) : State :=
  let s := (portsOf s g).foldl (fun s p => sieveZero p ch s) s
  setNbRx (nbI g ch) (fun x => { x with ph := .settle, cfg := v }) (nbIdle g ch s)

/-- A written NB_CH_k takes effect on every group that is in IDLE or SETTLE (R213). -/
def nbTakesAll (ch : Nat) (s : State) : State :=
  let v := getObj s 0 (0x600 + ch)
  (List.range 6).foldl (fun s g =>
    let x := nbOf s (nbI g ch)
    if x.cfg ≠ v ∧ (x.ph = .idle ∨ x.ph = .settle) then nbTakes g ch v s else s) s

/-- The write that waited for a frame takes effect on its group (R213). -/
def execNbChannelTakesEffect (g : Fin 6) (ch : Fin 8) (s : State) : Host.Outcome State Fault Refusal :=
  .next (let x := nbOf s (nbI g.val ch.val)
    let v := getObj s 0 (0x600 + ch.val)
    if x.cfg ≠ v ∧ (x.ph = .idle ∨ x.ph = .settle) then nbTakes g.val ch.val v s else s)

/-- Every contributing port of the group has reached a fine output without SETTLE (R211). -/
def execNbChannelSettled (g : Fin 6) (ch : Fin 8) (s : State) : Host.Outcome State Fault Refusal :=
  .next (let i := nbI g.val ch.val
    let x := nbOf s i
    if x.ph = .settle ∧ nbEnabled x.cfg ∧ (nbPorts s g.val).all (fun p => nbClean s p ch.val x.cfg) then
      setNbRx i (fun x => { x with ph := .idle }) s
    else s)

/-- The floor takes an interval in IDLE with the driver idle, with weight 1/256 (R214); the first interval sets it. -/
def execNbChannelFloorUpdate (p : Fin 6) (ch : Fin 8) (rx : List Int) (s : State) : Host.Outcome State Fault Refusal :=
  .next (let g := groupOf s p.val
    let k := 8 * p.val + ch.val
    let x := nbOf s (nbI g ch.val)
    let l := ((gridIntervals false 1 (coarseOuts s p.val ch.val x.cfg rx)).headD []).map outPower
    let t := rxTb s
    if (nbRxPorts s g ch.val).contains p.val && decide (x.ph = .idle) && nbEnabled x.cfg && !l.isEmpty
        && !txIn s p.val (t - (2 * nbT x.cfg).floor.toNat) (t + 2) then
      let new := match vAt s.nb.floor k with | some f => f + (rMean l - f) / 256 | none => rMean l
      setNb (fun b => { b with floor := vSet b.floor k (some new) }) s
    else s)

-- Transmission.

/-- The symbols of a burst (R194, R198, R200, R202): preamble, sync word, header, payload. -/
def nbSymbols (s : State) (cfg : W32) (b : TxBurst) : List Int :=
  let four := fget cfg 10 10 == 1
  let sync := (~~~ getObj s 0 0x611).toNat
  let head := ldpcEncode 0 12 (b.word ++ List.replicate 80 false)
  let one := (List.range (nbPreLen s)).map (fun i => decide (i % 2 = 0)) ++ bitsOf 32 sync ++ head.take 64
    ++ (head.drop 144).take 144
  one.map (dev1 four) ++ payDevs four b.mod b.stream

/-- Ports of a downlink burst (R225): broadcast on every port of the group, else by TX_PORTS. Of ports with the same sync
quality the lowest-numbered one sends: DESIGN CHOICE (log 150). -/
def nbTxPorts (s : State) (b : TxBurst) : List Nat :=
  let ps := (nbPorts s b.group).filter (fun p => txAble s p)
  let n := b.node.toNat
  if n = 4095 then ps
  else if objF s 0 0x610 15 15 = 1 then ps.filter (fun p => nbit (nPorts s n) p)
  else match ps with
    | [] => []
    | h :: t => [t.foldl (fun a p => if nPortQ s n a < nPortQ s n p then p else a) h]

/-- The Furrow blocks of a burst, from its header: their bits, and the symbols sent when each has ended (R203, R205). -/
def burstBlocks (s : State) (b : TxBurst) : List (Nat × Nat) :=
  let w := fun i n => bitsToNat ((b.word.drop i).take n)
  let f := fitNb (w 44 2) (8 * w 36 8 + 16)
  let per := w 46 3 + 1
  let bps := if b.mod then 2 else 1
  ((List.range (cdiv f.n per)).foldl (fun (a : List (Nat × Nat) × Nat) k =>
    let len := (List.range (min per (f.n - k * per))).foldl (fun x c => x + f.sent 12 (k * per + c)) 0
    (a.1 ++ [(len, nbPreLen s + 240 + cdiv (a.2 + len) bps)], a.2 + len)) ([], 0)).1

/-- A broadband burst under way on a port that a narrowband burst makes saturate (04 R112): CLIPPED counts it, where it had no
saturated sample before. -/
def clipLater (p : Nat) (b : NbBurst) (s : State) : State :=
  match s.out.reverse.find? (fun o => match o with | .bbBurst x => x.ports.contains p | _ => false) with
  | some (.bbBurst x) =>
    if (portOf s p).bbOn && decide (b.t0 < (portOf s p).bbEnd) && !burstClips s p x s.out
        && burstClips s p x (s.out ++ [.nbBurst b]) then bumpF (pf p) 0x504 7 0 1 s
    else s
  | _ => s

/-- End in ticks of a burst of n symbols, its ramp included. -/
def nbFin (t0 n rampUs : Nat) (cfg : W32) : Nat := t0 + cdiv (n * 400000000) (nbBaud cfg) + us rampUs

/-- Whole symbols of a burst that fit before its limit (R196). -/
def nbFits (t0 limit : Nat) (cfg : W32) : Nat := (limit - t0) * nbBaud cfg / 400000000

/-- A burst under way that a new period in use carries beyond its limit is cut after its last whole symbol (R196). -/
def recutNb (s : State) (o : OutItem) : Option NbBurst :=
  match o with
  | .nbBurst b =>
    let n := nbFits b.t0 (nbLimit s b.slotEnd b.rampUs) b.cfg
    if 16 * sfNow s ≤ b.slotEnd ∧ now s < nbFin b.t0 b.devs.length b.rampUs b.cfg ∧ n < b.devs.length then
      some { b with devs := b.devs.take n, cut := true }
    else none
  | _ => none

/-- The bursts under way after a change of the period in use (R196): each is counted in TRUNCATED once. -/
def recutBursts (s : State) : State :=
  let s := (s.out.filterMap (fun o => (recutNb s o).map (fun b => (b, o)))).foldl (fun s e =>
    let fin := nbFin e.1.t0 e.1.devs.length e.1.rampUs e.1.cfg
    let was := match e.2 with | .nbBurst b => b.cut | _ => true
    e.1.ports.foldl (fun s p =>
      let s := setPort p (fun k => { k with nbEnd := fin }) (setNb (fun v => { v with busy := vSet v.busy p fin }) s)
      if was then s else bumpF (pf p) 0x621 15 8 1 s) s) s
  { s with out := s.out.map (fun o => match recutNb s o with | some b => .nbBurst b | none => o) }

/-- C_m falls (02 R46, R47): the cycle and its period in use; a burst that this carries beyond its limit is cut (R196). -/
def execMainsCycleStart (s : State) : Host.Outcome State Fault Refusal :=
  .next (match s.clk.c with
    | none => s
    | some c => recutBursts (cycleBegins c s))

/-- A narrowband burst leaves its ports (R193 to R197, R225): a busy modulator is LATE, an end beyond the limit cuts the
burst after its last whole symbol. -/
def sendNb (b : TxBurst) (data : Bool) (s : State) : State :=
  let cfg := (nbOf s (nbI b.group b.chan)).cfg
  let bb := getObj s 0 0x500
  let t0 := slotStartTb s (burstSlots s b).1 + max (leadTicks bb) (us (nbRampUs s))
  let all := nbTxPorts s b
  let late := all.filter (fun p => decide (t0 < vAt s.nb.busy p))
  let s := late.foldl (fun s p => bumpF (pf p) 0x621 7 0 1 s) s
  let on := all.filter (fun p => !late.contains p)
  let r := if data then dutyPorts on s else (s, on)
  let ports := if tapHold r.1 then [] else r.2
  let s := ports.foldl (fun t p => adoptPortTx p true t) r.1
  let ramp := nbRampUs s
  let last := 16 * sfNow s + (burstSlots s b).2
  let devs := nbSymbols s cfg b
  let sent := devs.take (nbFits t0 (nbLimit s last ramp) cfg)
  let fin := nbFin t0 sent.length ramp cfg
  let s := ports.foldl (fun s p =>
    let s := setDriver p true true (setPort p (fun k => { k with nbEnd := fin }) s)
    let s := setNb (fun v => { v with busy := vSet v.busy p fin }) s
    let s := bumpF (pf p) 0x621 31 16 1 s
    if sent.length < devs.length then bumpF (pf p) 0x621 15 8 1 s else s) s
  let burst : NbBurst := ⟨b.group, b.chan, t0, ports, cfg, ramp, ports.map (fun p => attenOf s p true), sent, last,
    decide (sent.length < devs.length)⟩
  let s := ports.foldl (fun s p => clipLater p burst s) s
  if ports.isEmpty then s
  else emit (.nbBurst burst)
    (if b.resv = 0 then s else reserveAir b.group ((burstBlocks s b).map (fun e =>
      ⟨b.pool, e.1, min fin (t0 + cdiv (e.2 * 400000000) (nbBaud cfg))⟩)) s)

/-- A narrowband burst of an opening under way begins (R196, R225). -/
def execNbBurstTransmit (g : Fin 6) (ch : Fin 8) (s : State) : Host.Outcome State Fault Refusal :=
  .next (match (grpL s g.val).bursts.find? (fun b => b.nb && b.chan == ch.val && decide (b.sf ≤ sfNow s)) with
    | none => s
    | some b => takeBurst b (fun s => frameSent b.frame [] (sendNb b true s)) s)

-- Commands.

/-- NB_RX_LAST (R224). -/
def execNbRxLast (r : Req) (s : State) : Host.Outcome State Fault Refusal :=
  let g := byteAt r.params 0
  let k := byteAt r.params 1
  .next (execReq 0x601 r (r.func == 0)
    (lenAnd r 4 (firstBad (chk (decide (g ≤ 5)) 0) (chk (decide (k ≤ 7)) 1))) false
    (fun s => match (nbOf s (nbI g k)).report with
      | some b => .reply stDone b s
      | none => refuse stNoResource noField s) s)

/-- A power on the scale of 04 R113 in −0.5 dBFS. -/
def halfDb (v : Rat) : Nat := (clampInt 0 255 (roundAny 602 (-2 * dbOf v))).toNat

/-- NB_LEVEL: floors, frame levels and sync qualities of a port. -/
def execNbLevel (r : Req) (s : State) : Host.Outcome State Fault Refusal :=
  .next (execReq 0x602 r (portFunc r) (lenIs r 0) (funcDown s r.func.toNat)
    (fun s =>
      let p := reqPort r
      .reply stDone ((List.range 8).flatMap (fun k =>
        beBytes 1 ((vAt s.nb.floor (8 * p + k)).elim 0 halfDb) ++ beBytes 1 ((vAt s.nb.level (8 * p + k)).elim 0 halfDb)
          ++ beBytes 1 (vAt s.nb.sq (8 * p + k)) ++ [0])) s) s)

/-- NB_TX_TEST (R197): deferred; refused as PORT_SOUND is, and for a disabled channel. -/
def execNbTxTest (r : Req) (s : State) : Host.Outcome State Fault Refusal :=
  let v := beAt r.params 0 4
  .next (execReq 0x603 r (portFunc r) (lenAnd r 4 (chk (decide (1 ≤ nfield v 31 26 ∧ nfield v 31 26 ≤ 60)) 0))
    (funcDown s r.func.toNat)
    (fun s =>
      let p := reqPort r
      let cfg := (nbOf s (nbI (groupOf s p) (nfield v 25 23))).cfg
      if testRefused s p || !nbEnabled cfg then refuse stNotInState noField s
      else deferIf r [v] s (setPort p (fun k => { k with testWaiting := true }))) s)

/-- The narrowband transmit test ends: TX_RMS and bursts sent. -/
def execNbTxTestDone (p : Fin 6) (rmsMv : W16) (bursts : W16) (s : State) : Host.Outcome State Fault Refusal :=
  .next (match findDeferred 0x603 (pf p.val) s with
    | none => s
    | some d =>
      finish d stDone (beBytes 2 rmsMv.toNat ++ beBytes 2 bursts.toNat ++ beBytes 4 0)
        (testEnds p.val (bumpF (pf p.val) 0x621 31 16 bursts.toNat s)))

end Sys2Proof.Machine
end

