-- ==== Sys2Proof/Machine/Link.lean ====
section
/-!
DEFINITION. The link layer (08): downlink frames and ARQ, opening and receiving uplink frames, tone-map sets, joining,
leaving, node states, the destinations of 14 R413, the commands of the chapter, and the reads and pointer faults of queues,
which can lose frames.
-/
namespace Sys2Proof.Machine

/-- Fields of ARQ_CFG, ROUTE_CFG and MAP_CFG as the device uses them (08). -/
def arqTo (s : State) : Nat := max 1 (objF s 0 0x701 31 28)
def arqRetry (s : State) : Nat := objF s 0 0x701 27 24
def routeLqi (s : State) : Nat := objF s 0 0x702 31 24
def lostN (s : State) : Nat := max 1 (objF s 0 0x702 23 16)
def maxDesc (s : State) : Nat := max 1 (objF s 0 0x702 15 8)
def maxRelay (s : State) : Nat := min 64 (max 1 (objF s 0 0x702 7 1))
def mapMargin (s : State) : Nat := objF s 0 0x703 31 28
def mapDelta (s : State) : Nat := max 1 (objF s 0 0x703 23 20)
def mapHold (s : State) : Nat := max 1 (objF s 0 0x703 19 16)

-- Downlink frames.

/-- A frame type is sequenced (R231). -/
def sequenced (ty node : Nat) : Bool := (ty == 0 && node != 4095) || ty == 2 || ty == 5 || ty == 6

/-- A downlink frame joins the link engine's list (R244). -/
def newFrame (n g ty : Nat) (nb : Bool) (body : Bytes) (key pos : Option Nat) (s : State) : State :=
  let f : TxFrame := ⟨s.lk.nextId, BitVec.ofNat 12 n, g, nb, ty, body, none, .queued, 0, 0, [], pos, none, 0, [], key, [], g⟩
  setLk (fun l => { l with tx := l.tx ++ [f], nextId := l.nextId + 1 }) s

/-- A frame of the link engine's own to a node. -/
def nodeFrame (n ty : Nat) (body : Bytes) (s : State) : State := newFrame n (nGroup s n) ty (nNarrow s n) body none none s

/-- A DATA body joins the downlink queue of a group (14 R412): false where the queue lacks space. A body that no ring holds is
taken and lost (10 R295). -/
def dataFrame (n g : Nat) (nb : Bool) (body : Bytes) (s : State) : State × Bool :=
  let pos := (getQ s (dlQueue g)).pp
  let r := qPush (dlQueue g) 0x16 nb g body s
  match r.2 with
  | .stored => (newFrame n g 0 nb body none (some pos) r.1, true)
  | .lost => (r.1, true)
  | .full => (r.1, false)

/-- The frames that wait for a node. -/
def framesOf (s : State) (n : Nat) : List TxFrame := s.lk.tx.filter (fun t => t.node.toNat == n)

/-- Discard every frame of a node in either direction (R249, R255), those encoded and those in queue 0x0E among them. -/
def dropFrames (n : Nat) (s : State) : State :=
  let s := (framesOf s n).foldl (fun s f => dropTx f s) s
  setLk (fun l => { l with
    opened := l.opened.map (fun o => if o.orig.toNat = n then { o with gone := true } else o)
    stored := l.stored.filter (fun e => e.node.toNat != n), sets := l.sets.filter (fun e => e.node.toNat != n)
    acks := l.acks.filter (fun e => e.toNat != n), retry := l.retry.filter (fun e => e.toNat != n)
    ulAsk := l.ulAsk.filter (fun e => e.toNat != n) }) s

/-- The ACK entry for a node (R233), written by the Garurn. -/
def ackEntry (s : State) (n : Nat) : Bytes :=
  beBytes 5 (n * 2 ^ 28 + nVr s n * 2 ^ 16 + nVa s n * 16) ++ beBytes 8 (nNat s n 34 8)

/-- A tone-map set is no longer outstanding; `ok` when its frame was acknowledged (R258). -/
def setEnds (frame : Nat) (ok : Bool) (s : State) : State :=
  match s.lk.sets.find? (fun e => e.frame == frame) with
  | none => s
  | some e =>
    let s := setLk (fun l => { l with sets := l.sets.filter (fun x => x.frame != frame) }) s
    -- an older set that is acknowledged later changes nothing
    if ok then
      setLk (fun l => { l with sets := l.sets.filter (fun x => !(x.node == e.node && decide (x.frame < e.frame))) })
        (nSet e.node.toNat 24 1 e.id s)
    else s

/-- A frame has been acknowledged (R244). -/
def ackedTx (f : TxFrame) (s : State) : State := setEnds f.id true (dropTx f s)

/-- A frame is given up (R244). -/
def giveUpTx (f : TxFrame) (s : State) : State := setEnds f.id false (dropTx f (bumpF 0 0x70B 15 12 1 s))

/-- T_ack of a frame expires (R244, R245, R265). -/
def execArqAckTimeout (node : BitVec 12) (seq : BitVec 12) (s : State) : Host.Outcome State Fault Refusal :=
  .next (let n := node.toNat
    match s.lk.tx.find? (fun t => decide (t.node = node) && decide (t.seq = some seq.toNat) && decide (t.st = .sent)) with
    | none => s
    | some t =>
      if sfNow s < t.sentSf + arqTo s + nHops s n - 1 then s
      else if t.retx < arqRetry s then
        let s := setTx t.id (fun t => { t with st := .queued, retx := t.retx + 1 }) (bumpF 0 0x70B 31 16 1 s)
        let s := moveVa n s
        -- the maps are those of the node that the burst went to, and it owes fresh ones
        let h := hopOf s n
        if t.retx = 1 ∧ t.nego ≠ [] then nSetMapreq h true (t.nego.foldl (fun s i => dropMap h 1 i s) s) else s
      else moveVa n (giveUpTx t s))

-- Resets of a packet queue (10 R290).

/-- What a packet queue's reset takes with it: requests in 0x18 are answered QUEUE_FAULT; frames of a downlink queue and
opened frames in 0x0E are lost. -/
def queueLoses (q : Nat) (s : State) : State :=
  if q = 0x18 then failRequests s
  else if q = 0x0E then setLk (fun l => { l with opened := [] }) s
  else if 8 ≤ q ∧ q ≤ 0xD then
    let l := s.lk.tx.filter (fun f => f.home == q - 8 && f.pos.isSome)
    l.foldl (fun s f => moveVa f.node.toNat (dropTx f s)) s
  else s

/-- A queue resets with QUEUE_FAULT (R290), with all it held. -/
def queueReset (q dom ptr first second : Nat) (s : State) : State := qFault q dom ptr first second (queueLoses q s)

/-- A unit of a packet is poisoned (09 R278). -/
def pktPoisoned (qid : Nat) (p : Pkt) (s : State) : Bool :=
  (List.range (pktUnits p.data.length)).any (fun i => isPoisoned s (unitAddr qid (p.pos + i)) 8)

/-- A consumer reads (R300): the next word of a crossing queue; the next packet of a packet queue, which frees it. Of a
retaining queue it reads the committed packet at a position, and RP stays (R296). A packet
with a poisoned word resets the queue (09 R278). -/
def execQueueConsumerRead (q : Byte) (pos : Nat) (s : State) : Host.Outcome State Fault Refusal :=
  .next (match qCat q.toNat with
    | none => s
    | some c =>
      let k := getQ s q.toNat
      if c.crossing then (qRead1 q.toNat s).1
      else if k.pkts.isEmpty then putQ q.toNat { k with underrun := true, underruns := min (k.underruns + 1) 0xFFFF } s
      else match if c.retain then qReadAt q.toNat pos s else qPop q.toNat s with
        | some (p, t) => if pktPoisoned q.toNat p s then queueReset q.toNat 2 3 0 0 s else t
        | none => s)

/-- Two copies of a pointer disagree (R289, R290). The first copy is given as held, the second re-inverted; equal copies are
no mismatch (log 153). -/
def execQueuePointerMismatch (q : Byte) (consumerSide : Bool) (ptr : Fin 3) (first second : W32) (s : State) :
    Host.Outcome State Fault Refusal :=
  .next (if (qCat q.toNat).isNone ∨ first = second then s
    else queueReset q.toNat (b2n consumerSide) ptr.val first.toNat second.toNat s)

-- Destinations of uplink data (14 R413).

/-- The destination in force for a node: KIND, INDEX and whether it follows the default. -/
def destOf (s : State) (n : Nat) : Nat × Nat × Bool :=
  match s.lk.dest.find? (fun e => e.1 == n) with
  | some e => (e.2.1, e.2.2, false)
  | none => match s.lk.dest.find? (fun e => e.1 == 0) with
    | some e => (e.2.1, e.2.2, n != 0)
    | none => (0, 0, n != 0)

/-- The port on which a Graft's queues live (12 R354). -/
def graftHome (s : State) (gid : Nat) : Nat := objF s 0 (0x910 + gid) 30 30

/-- Bodies for a Graft join its port's transmit queue while there is room (10 R292, 12 R354). -/
def drainGraft (s : State) : State :=
  s.lk.graftOut.foldl (fun s e =>
    if s.lk.graftOut.any (fun x => graftHome s x.1 == graftHome s e.1 && decide (x ≠ e))
        && (s.lk.graftOut.find? (fun x => graftHome s x.1 == graftHome s e.1)) != some e then s
    else
      let r := qPush (6 + graftHome s e.1) 0x16 false e.1 e.2 s
      if r.2 = .full then s else setLk (fun l => { l with graftOut := l.graftOut.erase e }) r.1) s

/-- An uplink body goes to a Graft (12 R354, 14 R413). -/
def toGraft (gid n : Nat) (body : Bytes) (s : State) : State :=
  if objF s 0 (0x910 + gid) 31 31 = 0 then bumpF 0 (0x930 + gid) 15 8 1 s
  else drainGraft (setLk (fun l => { l with
    graftOut := l.graftOut ++ [(gid, beBytes 4 (s.aon.addr.toNat * 4096 + n) ++ body)] }) s)

/-- An uplink body goes to an application core (16 R447). -/
def toCore (c n g : Nat) (nb : Bool) (body : Bytes) (s : State) : State :=
  let r := qPush (0x10 + c) 0x16 false 1 (beBytes 2 (n + 4096 * g + 32768 * b2n nb) ++ [0, 0] ++ body) s
  if r.2 = .stored then r.1 else bumpF (0x70 + c) 0xC04 31 16 1 r.1

-- Uplink delivery.

/-- The RX_WIN of a node as its stored frames give it (R233, R246). -/
def winOf (s : State) (n vr : Nat) : Nat :=
  (s.lk.stored.filter (fun e => e.node.toNat == n)).foldl (fun a e =>
    let d := (e.seq + 4096 - vr) % 4096
    if d < 64 then a ||| 2 ^ (63 - d) else a) 0

/-- Write VR and RX_WIN of a node. -/
def setVr (n vr : Nat) (s : State) : State := nSet n 34 8 (winOf s n vr) (nSet n 32 2 (vr * 16) s)

/-- The node table is full, with no LOST entry (R268). -/
def tableFull (s : State) : Bool := (freeNode s).isNone && (nodesIn s 3).isEmpty

/-- NODE_TABLE_FULL is raised once per transition to full (R268). -/
def fullCheck (s : State) : State :=
  if !tableFull s then setLk (fun l => { l with fullSaid := false }) s
  else if s.lk.fullSaid then s
  else raise 75 0 .nodeTableFull [] (setLk (fun l => { l with fullSaid := true }) s)

/-- A node enters LOST (R254): LOSSES counts it and NODE_LOST names it. -/
def loseNode (n : Nat) (s : State) : State :=
  if nState s n = 2 then fullCheck (raise 75 0 .nodeLost (beBytes 2 n) (bumpF 0 0x70A 23 16 1 (nSetState n 3 s))) else s

/-- A node becomes LEAVING, or another cause of its entry's end (R255): its cache slots are freed; a repeater's
descendants enter LOST. -/
def setLeaving (n why : Nat) (s : State) : State :=
  if nState s n = 0 ∨ nState s n = 4 ∨ n = 0 then s
  else
    let d := if nRepeater s n then descendants s n else []
    let s := dropMaps n (nSetState n 4 s)
    let sf := sfNow s
    let s := setLk (fun l => { l with leaving := l.leaving ++ [(n, (sf, why))] }) s
    fullCheck (inTurn 75 loseNode d s)

/-- Store a downlink set (R259): its maps replace the node's downlink references. -/
def storeDownSet (n id slots : Nat) (maps : Bytes) (s : State) : State :=
  let s := (List.range 8).foldl (fun s i => dropMap n 1 i s) s
  let r := (List.range 8).foldl (fun (a : State × Nat) i =>
    if nbit slots i then
      let t := storeMap n 1 i id (slice maps (864 * a.2) 864) a.1
      (match t.2 with | some c => setMapRef n (8 + i) (some c) t.1 | none => t.1, a.2 + 1)
    else a) (s, 0)
  nSet n 23 1 id r.1

/-- A frame is delivered in order (R246): DATA to its destination, TONE_MAP and LEAVE to the link engine. -/
def deliverUp (e : Stored) (s : State) : State :=
  let n := e.node.toNat
  if e.ty = 0 then
    let d := destOf s n
    if d.1 = 0 then setLk (fun l => { l with uplink := l.uplink ++ [(e.node, e.group, e.nb, e.body)] }) s
    else if d.1 = 1 then toGraft d.2.1 n e.body s
    else if d.1 = 2 then toCore d.2.1 n e.group e.nb e.body s
    else s
  else if e.ty = 2 then
    if byteAt e.body 1 = 1 ∧ byteAt e.body 0 ≠ 0 then storeDownSet n (byteAt e.body 0) (byteAt e.body 2) (e.body.drop 4) s
    else s
  else if e.ty = 6 then setLeaving n 0 s
  else s

/-- Deliver the stored frames from VR on, without a gap (R246). -/
def deliverRun : Nat → Nat → State → State
  | 0, _, s => s
  | k + 1, n, s =>
    let vr := nVr s n
    match s.lk.stored.find? (fun e => e.node.toNat == n && e.seq == vr) with
    | none => s
    | some e =>
      let s := setLk (fun l => { l with stored := l.stored.filter (fun x => x != e) }) s
      deliverRun k n (deliverUp e (setVr n ((vr + 1) % 4096) s))

/-- A sequenced frame arrives (R246). -/
def takeSeq (n : Nat) (o : Opened) (s : State) : State :=
  let vr := nVr s n
  let d := (o.seq + 4096 - vr) % 4096
  let s := if s.lk.acks.contains o.orig then s else setLk (fun l => { l with acks := l.acks ++ [o.orig] }) s
  if d < 64 then
    if s.lk.stored.any (fun e => e.node.toNat == n && e.seq == o.seq) then bumpF 0 0x70B 31 16 1 s
    else
      -- a frame behind one already received has been sent again
      let again := s.lk.stored.any (fun e => e.node.toNat == n && decide (d < (e.seq + 4096 - vr) % 4096))
      let s := if again then bumpF 0 0x70B 31 16 1 s else s
      let e : Stored := ⟨o.orig, o.seq, o.ty, o.body, o.q.group, o.q.nb⟩
      let s := setLk (fun l => { l with stored := l.stored ++ [e] }) s
      deliverRun 64 n (setVr n vr s)
  else if (vr + 4096 - o.seq) % 4096 ≤ 64 then bumpF 0 0x70B 31 16 1 s
  else bumpF 0 0x70B 7 4 1 s

/-- A VA ahead of VR releases the receiver (R247). -/
def skipTo (n va : Nat) (s : State) : State :=
  let vr := nVr s n
  let k := (va + 4096 - vr) % 4096
  if k = 0 ∨ 64 < k then s
  else
    let s := (List.range k).foldl (fun s j =>
      let q := (vr + j) % 4096
      match s.lk.stored.find? (fun e => e.node.toNat == n && e.seq == q) with
      | some e => deliverUp e (setLk (fun l => { l with stored := l.stored.filter (fun x => x != e) }) s)
      | none => bumpF 0 0x70B 11 8 1 s) s
    deliverRun 64 n (setVr n va s)

/-- The ACK trailer of a node (R233, R244, R247). -/
def takeAck (n : Nat) (a : Bytes) (s : State) : State :=
  let w := beAt a 0 5
  if w / 2 ^ 28 ≠ n then s
  else
    let vr := (w / 2 ^ 16) % 4096
    let va := (w / 16) % 4096
    let win := beAt a 5 8
    let got := fun (t : TxFrame) => match t.seq with
      | none => false
      | some q =>
        let d := (q + 4096 - vr) % 4096
        decide (1 ≤ (vr + 4096 - q) % 4096 ∧ (vr + 4096 - q) % 4096 ≤ 64) || (decide (d < 64) && nbit win (63 - d))
    let s := ((framesOf s n).filter got).foldl (fun s t => ackedTx t s) s
    let s := setLk (fun l => { l with backAt := smPut (fun _ => 0) n (now s) l.backAt }) s
    skipTo n va (nSet n 42 2 (beAt a 13 2) (moveVa n s))

-- Measurements of a frame that passed (R522).

/-- The usable-port mask of a node (03 R81). -/
def usableMask (s : State) (n : Nat) : Nat :=
  portMask ((List.range 6).filter (fun p =>
    let h := smGet (fun _ => 0) s.lk.heard (8 * n + p)
    decide (h ≠ 0) && decide (sfNow s < h - 1 + 64)))

/-- PORT_Q, PORTS, LQI_UP and the stored offset take a frame (03 R81, 05 R134, R256). `heard` holds the superframe
plus one. DESIGN CHOICE: LQI_MIN is the value at the frame's receipt (log 135). -/
def phyNode (n : Nat) (q : RxQual) (s : State) : State :=
  let s := q.contrib.foldl (fun s p =>
    let v := q.portLqi.getD p 0
    let s := nSet n (16 + p) 1 v s
    if lqiMin s ≤ v then setLk (fun l => { l with heard := smPut (fun _ => 0) (8 * n + p) (q.sf + 1) l.heard }) s else s) s
  let s := nSet n 22 1 q.lqi (nSet n 11 1 (usableMask s n) s)
  if q.nb then s
  else nSet n 14 2 (toBits 16 (clampInt (-10000) 10000 (nFoff s n + roundNear 134 ((q.foff - nFoff s n) / 4)))) s

/-- The transmit-to-receive ratio of a port at carrier k: linear in frequency between 1 MHz and 50 MHz (04 R110); 1 where no
driver loopback has measured it. -/
def txRatio (s : State) (p k : Nat) : Cx :=
  let a := (portOf s p).loop1
  let b := (portOf s p).loop50
  if cNorm a = 0 ∧ cNorm b = 0 then ⟨1, 0⟩
  else cAdd a (cScale (((k : Rat) * 48828125 / 1000000000 - 1) / 49) (cSub b a))

/-- A pre-weight byte of a complex weight (04 R108, R110): the magnitude to the nearest 3 dB, zero below −19.5 dB, and the
phase to the nearest of 32 steps. -/
def weightByte (a : Cx) : Byte :=
  let db := dbOf (cNorm a)
  let m := if db < -39 / 2 then 7 else (clampInt 0 6 (roundNear 110 (-db / 3))).toNat
  BitVec.ofNat 8 (32 * m + (roundNear 1101 (32 * argTurn a) % 32).toNat)

/-- The corrected estimates of a frame's ports over a carrier group (04 R110). -/
def groupTaps (s : State) (q : RxQual) (g : Nat) : List (Nat × List Cx) :=
  let ks := inGroup g (usedCarriers (lowBand s q.group) (masked s))
  q.taps.map (fun e => (e.1, ks.map (fun k => cMul (txRatio s e.1 k) (atC e.2 k))))

/-- The energy of some values. -/
def cEnergy (l : List Cx) : Rat := rSum (l.map cNorm)

/-- Port r of a carrier group: the one with the largest sum of |h(k)|², the lowest of equals (04 R110). -/
def bestTap (l : List (Nat × List Cx)) : Nat × List Cx :=
  l.foldl (fun a e => if cEnergy a.2 < cEnergy e.2 then e else a) (l.headD (0, []))

/-- The pre-weights of a node's downlink slot are brought up to date (04 R110), the slot's TB left as it is; a port that did not
contribute to the frame has weight zero: DESIGN CHOICE (log 127). -/
def preWeights (n : Nat) (q : RxQual) (s : State) : State :=
  match mapRef s n (8 + q.idx) with
  | none => s
  | some c =>
    let l := (List.range 24).map (groupTaps s q)
    let w := l.flatMap (fun e =>
      let r := bestTap e
      (List.range 6).map (fun p => match e.find? (fun x => x.1 == p) with
        | some x => if p = r.1 then (0 : Byte) else weightByte (cScale (ratio 1 (cEnergy r.2)) (cDot r.2 x.2))
        | none => 0xE0))
    let s := setLk (fun k => { k with best := l.zipIdx.foldl (fun b e => smPut (fun _ => 0) (24 * c + e.2) (bestTap e.1).1 b) k.best }) s
    memWrite (cacheBase c + 1013) [BitVec.ofNat 8 (cFlags s c ||| 2)] (memWrite (cacheBase c + 864) w s)

/-- The candidate map of a frame, as 864 bytes (R257). -/
def candidate (s : State) (g : Nat) (snr : List Rat) : Bytes :=
  let last := lastCarrier (lowBand s g)
  let a := snr.toArray
  let b := fun k : Nat =>
    if masked s k || decide (last < k) then 0
    else (clampInt 0 12 ((a.getD (k - 37) (-120) - 1 - mapMargin s) / 3).floor).toNat
  (List.range 864).map (fun i => BitVec.ofNat 8 (16 * b (37 + 2 * i) + b (38 + 2 * i)))

/-- Bits of carrier k in a packed map. -/
def packedBits (m : Array Byte) (k : Nat) : Nat :=
  let b := (m.getD ((k - 37) / 2) 0).toNat
  if (k - 37) % 2 = 0 then b / 16 else b % 16

/-- The mean change of the candidate over the profile's carriers is MAP_DELTA / 8 bits or more (R257). -/
def changed (s : State) (g c : Nat) (cand : Bytes) : Bool :=
  let ks := carriers (lowBand s g)
  let m := cand.toArray
  let sum := ks.foldl (fun a k => a + ((packedBits m k : Int) - mapBits s c k).natAbs) 0
  decide (mapDelta s * ks.length ≤ 8 * sum)

/-- The step watch of a node's group concerns a map updated before T (R266). -/
def watchWants (s : State) (n idx : Nat) : Bool :=
  match (grpL s (nGroup s n)).watch, storedMap s n idx with
  | some (_, t, m), some c => decide (nPorts s n &&& m.toNat ≠ 0) && nState s n == 2 && decide (cTb s c < t.toNat)
  | _, _ => false

/-- Issue a new uplink set (R258, R264): every map held, those of a set still outstanding too, under the new MAP_ID, with the
candidate for one slot index. -/
def issueSet (n idx : Nat) (cand : Bytes) (s : State) : State :=
  let last := smGet (fun _ => 0) s.lk.ulLast n
  let id := if last = 255 ∨ 255 < last then 1 else last + 1
  let olds := (List.range 8).filterMap (fun i => if i = idx then none else (storedMap s n i).map (fun c => (i, c)))
  let s := olds.foldl (fun s e => memWrite (cacheBase e.2 + 1012) [BitVec.ofNat 8 id] s) s
  let s := dropMap n 0 idx s
  let r := storeMap n 0 idx id cand s
  let s := match r.2 with | some c => setMapRef n idx (some c) r.1 | none => r.1
  let all := (List.range 8).filterMap (fun i =>
    if i = idx then r.2.map (fun c => (i, c)) else (olds.find? (fun e => e.1 == i)))
  if all.isEmpty then s
  else
    let mask := all.foldl (fun a e => a + 2 ^ e.1) 0
    let body := beBytes 1 id ++ [0] ++ beBytes 1 mask ++ [0] ++ all.flatMap (fun e => memRead s (cacheBase e.2) 864)
    let f := s.lk.nextId
    let sf := sfNow s
    let s := nodeFrame n 2 body s
    setLk (fun l => { l with
      sets := l.sets ++ [⟨BitVec.ofNat 12 n, id, all, f⟩], ulLast := smPut (fun _ => 0) n id l.ulLast
      setAt := smPut (fun _ => 0) n (sf + 1) l.setAt, ulAsk := l.ulAsk.filter (fun e => e.toNat != n) }) s

/-- The tone maps take a frame (R257, R258, R262): a candidate, and a new set where one is due. A map of a set that waits for
its acknowledgement counts as the node's map for its slot index: DEDUCED (log 163). -/
def mapsTake (n : Nat) (q : RxQual) (s : State) : State :=
  if q.nb || s.pw.mcDown then s
  else
    let cand := candidate s q.group q.snr
    let held := sfNow s + 1 < smGet (fun _ => 0) s.lk.setAt n + mapHold s
    let due := match storedMap s n q.idx with
      | none => true
      | some c => (changed s q.group c cand && !decide held) || watchWants s n q.idx
    if due || s.lk.ulAsk.any (fun e => e.toNat == n) then issueSet n q.idx cand s else s

-- Opening and receiving.

/-- The Cloche can serve a link job now. -/
def clocheServes (s : State) : Bool :=
  objF s 0x50 0x800 31 31 == 1 && !drbgDead s && (freeEngine s).isSome

/-- An engine is free for this link job, and no other job comes before it (11 R307, R318). -/
def linkTurn (j : CJob) (s : State) : Bool := clocheServes s && s.clo.redo.isEmpty && nextLink s == some j

/-- A frame of a node fails R231: it changes nothing of its entry, and the grant in which its sender sent it is one without a
frame (R254, R268, R522). -/
def unheard (src orig : Nat) (s : State) : State :=
  if src = orig then setLk (fun l => { l with unheard := l.unheard ++ [BitVec.ofNat 12 orig] }) s else s

/-- The packet that an open had begun in queue 0x0E is aborted (10 R293, 11 R326). -/
def abortOpen (s : State) : State := putQ 0x0E (qAbort (getQ s 0x0E)) s

/-- The bytes of an uplink delivery packet (11 R326). -/
def openPacket (p : LinkParts) (body : Bytes) : Bytes :=
  beBytes 2 (p.orig + 4096 * p.ty) ++ beBytes 2 (p.seq * 16) ++ body

/-- An opened frame joins queue 0x0E (11 R326): false while there is no room for it. -/
def pushOpened (d : Delivered) (p : LinkParts) (slot : Nat) (body : Bytes) (s : State) : State × Bool :=
  let r := qPush 0x0E 0x17 d.q.nb d.q.group (openPacket p body) s
  let o : Opened := ⟨d.src, BitVec.ofNat 12 p.orig, p.ty, byteAt d.bytes 0, p.fin, p.seq, p.ack, body, d.q, slot, false⟩
  (setLk (fun l => { l with opened := l.opened ++ [o] }) (takeFcRx slot p.fc r.1), r.2 = .stored)

/-- Engines of a join trial (11 R324, CLOCHE_CFG). -/
def joinEngines (s : State) : Nat := min 4 (max 1 (objF s 0x50 0x801 31 29))

/-- A join trial begins: it takes free engines, as many as JOIN_ENGINES allows (11 R324). -/
def startTrial (d : Delivered) (s : State) : State :=
  let es := ((List.range 16).filter (fun e => engFree s e)).take (joinEngines s)
  es.foldl (fun s e => engTake e ⟨.trial, [], [], [], [], now s⟩ s) (setLk (fun l => { l with trial := some d }) s)

/-- A JOIN_REQ arrives at the Cloche: its trial begins, or it waits for the one in progress, up to eight (11 R324). -/
def joinArrives (d : Delivered) (s : State) : State :=
  if s.lk.trial.isNone then startTrial d s
  else if 8 ≤ s.lk.joins.length then bumpF 0x50 0x802 7 4 1 s
  else setLk (fun l => { l with joins := l.joins ++ [d] }) s

/-- An engine works on the join trial. -/
def onTrial (s : State) (e : Nat) : Bool := (vAt s.clo.eng e).any (fun r => r.job == .trial)

/-- The join trial has ended: its engines are free, and the oldest request that waits is tried. -/
def endTrial (s : State) : State :=
  let s := ((List.range 16).filter (fun e => onTrial s e)).foldl (fun s e => bumpF (0x40 + e) 0x808 23 0 1 (engRest e s)) s
  let s := setClo (fun c => { c with redo := c.redo.filter (fun r => r.job != .trial) }) (setLk (fun l => { l with trial := none }) s)
  match s.lk.joins with
  | [] => s
  | d :: rest => startTrial d (setLk (fun l => { l with joins := rest }) s)

/-- A job of an engine is completed (CE_STATUS.JOBS). -/
def jobDone (s : State) : State := match freeEngine s with | some e => bumpF (0x40 + e) 0x808 23 0 1 s | none => s

/-- Join requests are served (R250): JOIN_OPEN of the schedule in force. -/
def joinOpen (s : State) : Bool :=
  objF s 0 0x700 15 15 == 1 && ((freeNode s).isSome || !(nodesIn s 3).isEmpty) && (netSlot s).isSome && !s.pw.mcDown

/-- The Cloche takes the oldest frame from the codec (11 R318, R320, R323, R326): it is opened, stored and released, or
discarded. -/
def execLinkFrameOpen (s : State) : Host.Outcome State Fault Refusal :=
  .next (match s.lk.sealed with
    | [] => s
    | d :: rest =>
      if !linkTurn .up s then s
      else
        let p := linkParts d.bytes
        let gone := takeJob .up (setLk (fun l => { l with sealed := rest }) s)
        if !linkLenOk d.bytes then authFail gone
        else if 65504 < p.ct.length then bumpF 0x50 0x802 3 0 1 gone
        else if p.orig = 4095 ∧ p.ty = 3 then if joinOpen s then joinArrives d gone else gone
        else if p.orig = 0 ∨ p.orig = 4095 ∨ nState s p.orig = 0 then authFail gone
        else
          let slot := nKey s p.orig
          let fails := fun s => unheard d.src.toNat p.orig s
          if kClass s slot ≠ 1 then fails gone
          else
            let t := tryOpen s slot (kEui s slot) p
            -- the packet is written as the bytes come, so every open needs its room in the queue
            let r := pushOpened d p slot (t.getD p.ct) (jobDone gone)
            if !r.2 then s
            else if t.isNone then fails (authFail (abortOpen (jobDone gone)))
            else if !fcOk s slot p.fc then fails (replayed (abortOpen (jobDone gone)))
            else r.1)

/-- An uplink frame was heard from a node: SILENT restarts and LOST ends (R254). -/
def heardFrom (n : Nat) (s : State) : State :=
  let s := nSet n 25 1 0 s
  if nState s n = 3 then fullCheck (nSetState n 2 s) else s

/-- What an opened link frame does (08 R246, R247, R257, R522): it proves its node present, its measurements are kept, and its
acknowledgement and sequence number are taken. -/
def linkReceived (o : Opened) (s : State) : State :=
  let n := o.orig.toNat
  let m := o.src.toNat
  -- TYPE 9 to 15 is discarded (R231)
  if nState s n = 0 ∨ 9 ≤ o.ty ∨ o.gone then s
  else
    let s := heardFrom n s
    let s := setLk (fun l => { l with present := l.present ++ [(o.q.group, o.orig)] }) s
    let s := phyPorts o.q.contrib o.q.mon s
    -- what was measured belongs to the burst's sender
    let s := if m = 0 ∨ nState s m = 0 then s
      else
        let s := if m = n then s else nSet m 25 1 0 s
        let s := phyNode m o.q s
        let s := if o.q.nego then
            setLk (fun l => { l with fails := smPut (fun _ => 0) (8 * m + o.q.idx) 0 l.fails }) s
          else s
        if o.q.nb then s else mapsTake m o.q (preWeights m o.q s)
    let s := if nbit o.ctrl 2 ∧ !s.lk.ulAsk.contains o.orig then
        setLk (fun l => { l with ulAsk := l.ulAsk ++ [o.orig] }) s
      else s
    let s := if o.ack.isEmpty then s else takeAck n o.ack s
    if nState s n = 0 then s
    else if sequenced o.ty o.fin then takeSeq n o s
    else if o.ty = 0 then deliverUp ⟨o.orig, o.seq, o.ty, o.body, o.q.group, o.q.nb⟩ s
    else s

-- Joining.

/-- A candidate parent of a JOIN_REQ (R250): node, LQI, hops of the sender. -/
def joinCands (b : Bytes) : List (Nat × Nat) :=
  (List.range (min 4 (byteAt b 9))).map (fun i => (beAt b (10 + 4 * i) 2 % 4096, byteAt b (12 + 4 * i)))

/-- Repeaters in the table. -/
def repeaters (s : State) : List Nat := (liveNodes s).filter (fun n => nRepeater s n)

/-- A candidate meets every condition of R252 but that on descendants. -/
def candFits (s : State) (n : Nat) (narrow : Bool) (c : Nat × Nat) : Bool :=
  decide (routeLqi s ≤ c.2)
    && (c.1 == 0 || (!narrow && c.1 != n && nState s c.1 == 2 && !nNarrow s c.1
        && decide (nHops s c.1 + 1 ≤ 8) && !(nodePath s c.1).contains n && s.lk.canRep.contains c.1
        && (nRepeater s c.1 || decide ((repeaters s).length < maxRelay s))))

/-- Every repeater on the candidate's path, itself included, has room (R252). -/
def candRoom (s : State) (n : Nat) (c : Nat × Nat) : Bool :=
  c.1 == 0 || (nodePath s c.1 ++ [c.1]).all (fun r => decide (((descendants s r).filter (fun m => m != n)).length < maxDesc s))

/-- The better of two candidates: fewest hops, highest LQI, lowest node ID (R252). -/
def candBetter (s : State) (a b : Nat × Nat) : Bool :=
  let ha := if a.1 = 0 then 0 else nHops s a.1
  let hb := if b.1 = 0 then 0 else nHops s b.1
  decide (ha < hb) || (ha == hb && (decide (b.2 < a.2) || (a.2 == b.2 && decide (a.1 < b.1))))

/-- The parent chosen (R252). -/
def pickParent (s : State) (n : Nat) (narrow : Bool) (cs : List (Nat × Nat)) : Option (Nat × Nat) :=
  (cs.filter (fun c => candFits s n narrow c && candRoom s n c)).foldl (fun a c => match a with
    | none => some c
    | some b => if candBetter s c b then some c else some b) none

/-- The LOST entry that a join reclaims (R268): largest SILENT, lowest node ID. -/
def reclaimable (s : State) : Option Nat :=
  (nodesIn s 3).foldl (fun a n => match a with
    | none => some n
    | some b => if nSilent s b < nSilent s n then some n else some b) none

/-- DESC of every repeater follows its descendants. -/
def setDescs (l : List Nat) (s : State) : State := l.foldl (fun s r => nSet r 13 1 (min 255 (descendants s r).length) s) s

/-- A ROUTE_UPDATE for a repeater (R252). -/
def routeUpdate (r : Nat) (s : State) : State :=
  let d := (descendants s r).take 255
  nodeFrame r 5 ([1] ++ beBytes 2 (nParent s r) ++ beBytes 1 (nHops s r) ++ beBytes 1 d.length ++ d.flatMap (beBytes 2)) s

/-- A JOIN_ACCEPT (R250): broadcast in the group of the request, under the node's key. -/
def joinAccept (slot eui st node parent hops holdoff : Nat) (q : RxQual) (s : State) : State :=
  newFrame 4095 q.group 4 q.nb (beBytes 8 eui ++ beBytes 1 st ++ beBytes 2 node ++ beBytes 2 parent ++ beBytes 1 hops
    ++ beBytes 1 holdoff) (some slot) none s

/-- The key slots bound to no node any more (11 R313, FLAGS bit 3). -/
def unbind (n : Nat) (s : State) : State := if nState s n = 0 then s else setKFlag (nKey s n) 3 false s

/-- An entry is written for a joined node (R251, R252, R256). -/
def writeEntry (n slot eui : Nat) (body : Bytes) (parent : Nat) (d : Opened) (s : State) : State :=
  let caps := byteAt body 8
  let narrow := nbit caps 0
  let hops := (if parent = 0 then 0 else nHops s parent) + 1
  let was := nRepeater s n && nState s n != 0 && nEui s n == eui
  -- a narrowband node is never a repeater (R241): what was behind it is lost with it
  let rep := was && !narrow
  let s := if was ∧ narrow then inTurn 75 loseNode (descendants s n) s else s
  let flags := 128 * b2n (nbit caps 1) + caps / 32
  let s := dropMaps n (dropFrames n (unbind n s))
  let e := beBytes 8 eui ++ beBytes 2 (2 * 8192 + 4096 * b2n narrow + parent)
    ++ beBytes 1 (32 * d.q.group + 16 * b2n rep + hops) ++ [0] ++ beBytes 1 flags ++ List.replicate 13 0
    ++ beBytes 2 slot ++ List.replicate 36 0
  let s := setKFlag slot 3 true (memWrite (nodeBase n) e s)
  setLk (fun l => { l with
    heard := smErase (fun k => k / 8 == n) l.heard, fails := smErase (fun k => k / 8 == n) l.fails
    setAt := smErase (fun k => k == n) l.setAt, ulLast := smErase (fun k => k == n) l.ulLast
    backAt := smErase (fun k => k == n) l.backAt, unheard := l.unheard.filter (fun e => e.toNat != n)
    leaving := l.leaving.filter (fun e => e.1 != n)
    canRep := l.canRep.filter (fun m => m != n) ++ (if nbit caps 2 then [n] else []) }) s

/-- A verified join is served (R251, R252, R268). The spec gives HOLDOFF for STATUS 1 alone: a JOIN_ACCEPT with STATUS 2 carries
the same 16, and either refusal zeros for NODE, PARENT and HOPS: DESIGN CHOICE (log 164). -/
def joinNode (slot : Nat) (body : Bytes) (d : Opened) (s : State) : State :=
  let eui := kEui s slot
  let old := nodeOfEui s eui
  let pick := match old with
    | some n => some (n, false)
    | none => match freeNode s with
      | some n => some (n, false)
      | none => (reclaimable s).map (fun n => (n, true))
  match pick with
  | none =>
    fullCheck (bumpF 0 0x70A 15 8 1 (joinAccept slot eui 1 0 0 0 16 d.q s))
  | some (n, reclaimed) =>
    let narrow := nbit (byteAt body 8) 0
    let cs := joinCands body
    match pickParent s n narrow cs with
    | none =>
      let full := cs.any (fun c => candFits s n narrow c && !candRoom s n c)
      let s := if full then setLk (fun l => { l with refused := l.refused + 1 }) s else s
      bumpF 0 0x70A 15 8 1 (joinAccept slot eui 2 0 0 0 16 d.q s)
    | some (parent, _) =>
      let s := if reclaimed then setLk (fun l => { l with dest := l.dest.filter (fun e => e.1 != n) }) s else s
      let oldPath := if nState s n = 0 then [] else nodePath s n
      let s := writeEntry n slot eui body parent d s
      -- the request is a frame that passed R231: what was measured of its sender is kept (R257, R522)
      let s := if d.src.toNat = 4095 ∨ d.src.toNat = n then
          let s := phyNode n d.q (phyPorts d.q.contrib d.q.mon s)
          if d.q.nb then s else mapsTake n d.q (preWeights n d.q s)
        else s
      let s := if parent ≠ 0 ∧ !nRepeater s parent then nSet parent 10 1 (nNat s parent 10 1 + 16) s else s
      let path := nodePath s n
      let s := setDescs (oldPath ++ path) s
      let s := path.foldl (fun s r => routeUpdate r s) s
      let s := joinAccept slot eui 0 n parent (nHops s n) 0 d.q s
      fullCheck (raise 75 0 .nodeJoined (beBytes 2 n ++ beBytes 2 parent ++ beBytes 1 (nHops s n)) (bumpF 0 0x70A 31 24 1 s))

/-- The key slot that opens a JOIN_REQ, and its body: the first in slot order whose owner the body names (11 R324). -/
def joinHit (p : LinkParts) (s : State) : Option (Nat × Bytes) :=
  (usedSlots s).findSome? (fun n =>
    if kClass s n = 1 ∧ fcOk s n p.fc then
      match tryOpen s n (kEui s n) p with
      | some b => if beAt b 0 8 = kEui s n ∧ 8 ≤ b.length then some (n, b) else none
      | none => none
    else none)

/-- The join trial in progress ends (11 R324): the first node slot that opens the request, in slot order. Where none does, the
one packet begun counts as aborted: DESIGN CHOICE (log 165). -/
def execJoinTrial (s : State) : Host.Outcome State Fault Refusal :=
  .next (match s.lk.trial with
    | none => s
    | some d =>
      if objF s 0x50 0x800 31 31 = 0 ∨ drbgDead s ∨ !(List.range 16).any (fun e => onTrial s e) then s
      else
        let p := linkParts d.bytes
        match joinHit p s with
        | none => endTrial (authFail (abortOpen s))
        | some (n, b) =>
          let r := pushOpened d p n b s
          if r.2 then endTrial r.1 else s)

/-- A JOIN_REQ that a key has opened reaches the link engine (R250, R251). -/
def joinReceived (o : Opened) (s : State) : State :=
  if objF s 0 0x700 15 15 = 1 ∧ (netSlot s).isSome ∧ !s.pw.mcDown then joinNode o.slot o.body o s else s

/-- The link engine takes an opened frame from queue 0x0E (R246, R247, R251, R257, R522). -/
def execLinkFrameReceive (s : State) : Host.Outcome State Fault Refusal :=
  .next (match s.lk.opened with
    | [] => s
    | o :: rest =>
      let s := setLk (fun l => { l with opened := rest }) s
      let s := match qPop 0x0E s with | some (_, t) => t | none => s
      if o.orig = 4095 then joinReceived o s else linkReceived o s)

-- Silence and leaving.

/-- SILENT of a node reaches LOST_N (R254): it and its descendants enter LOST. -/
def execNodeSilenceLimit (node : BitVec 12) (s : State) : Host.Outcome State Fault Refusal :=
  .next (let n := node.toNat
    if nState s n = 2 ∧ lostN s ≤ nSilent s n ∧ n ≠ 0 then
      let d := if nRepeater s n then descendants s n else []
      inTurn 75 loseNode (n :: d) s
    else s)

/-- A LEAVING entry becomes FREE (R255): its queue is empty, or 8 superframes have passed. -/
def execLeavingToFree (node : BitVec 12) (s : State) : Host.Outcome State Fault Refusal :=
  .next (let n := node.toNat
    match s.lk.leaving.find? (fun e => e.1 == n) with
    | none => s
    | some e =>
      if nState s n = 4 ∧ ((framesOf s n).isEmpty ∨ e.2.1 + 8 ≤ sfNow s) then
        let path := nodePath s n
        let s := dropFrames n (unbind n s)
        let s := memWrite (nodeBase n) (List.replicate 64 0) s
        let s := setLk (fun l => { l with
          canRep := l.canRep.filter (fun m => m != n), leaving := l.leaving.filter (fun e => e.1 != n), dest := l.dest.filter (fun e => e.1 != n)
          backAt := smErase (fun k => k == n) l.backAt, unheard := l.unheard.filter (fun e => e.toNat != n)
          heard := smErase (fun k => k / 8 == n) l.heard, fails := smErase (fun k => k / 8 == n) l.fails
          setAt := smErase (fun k => k == n) l.setAt, ulLast := smErase (fun k => k == n) l.ulLast }) s
        fullCheck (raise 75 0 .nodeLeft (beBytes 2 n ++ beBytes 1 e.2.2) (setDescs path s))
      else s)

-- Commands.

/-- Whether a node ID has an entry. -/
def hasEntry (s : State) (n : Nat) : Bool := n == 0 || nState s n != 0

/-- NODE_READ (R256). -/
def execNodeRead (r : Req) (s : State) : Host.Outcome State Fault Refusal :=
  let n := reqNode r
  .next (execReq 0x710 r (r.func == 0) (lenAnd r 4 (chk (decide (n ≤ 4094)) 0)) false
    (fun s => if hasEntry s n then .reply stDone (nodeEntry s n) s else refuse stNoResource noField s) s)

/-- NODE_FIND (R251). -/
def execNodeFind (r : Req) (s : State) : Host.Outcome State Fault Refusal :=
  .next (execReq 0x711 r (r.func == 0) (lenIs r 8) false
    (fun s => match nodeOfEui s (beAt r.params 0 8) with
      | some n => .reply stDone (beBytes 4 (n * 2 ^ 20)) s
      | none => refuse stNoResource noField s) s)

/-- NODE_EVICT (R255): LEAVING, with a LEAVE to the node. -/
def execNodeEvict (r : Req) (s : State) : Host.Outcome State Fault Refusal :=
  let n := reqNode r
  .next (execReq 0x712 r (r.func == 0) (lenAnd r 4 (chk (decide (n ≤ 4094)) 0)) false
    (fun s =>
      if n = 0 ∨ nState s n = 0 then refuse stNotInState noField s
      else
        let why := if nbit (beAt r.params 0 4) 19 then 2 else 1
        .reply stAccepted [] (nodeFrame n 6 (beBytes 1 why) (setLeaving n 1 s))) s)

/-- TONEMAP_READ (04 R106). -/
def execTonemapRead (r : Req) (s : State) : Host.Outcome State Fault Refusal :=
  let n := reqNode r
  let v := beAt r.params 0 4
  .next (execReq 0x713 r (r.func == 0) (lenAnd r 4 (chk (decide (n ≤ 4094)) 0)) false
    (fun s => match mapSlot s n (nfield v 19 19) (nfield v 18 16) with
      | some c => .reply stDone (memRead s (cacheBase c) 1024) s
      | none => refuse stNoResource noField s) s)

/-- ROUTE_READ (R252, R253). -/
def execRouteRead (r : Req) (s : State) : Host.Outcome State Fault Refusal :=
  let n := reqNode r
  .next (execReq 0x714 r (r.func == 0) (lenAnd r 4 (chk (decide (n ≤ 4094)) 0)) false
    (fun s =>
      if !hasEntry s n then refuse stNoResource noField s
      else
        let p := (nodePath s n).take 7
        .reply stDone (beBytes 1 (if n = 0 then 0 else nHops s n) ++ [0] ++ slice (p.flatMap (beBytes 2)) 0 14) s) s)

/-- SCHED_READ: the last beacon body of a group (R234). -/
def execSchedRead (r : Req) (s : State) : Host.Outcome State Fault Refusal :=
  let g := byteAt r.params 0
  .next (execReq 0x715 r (r.func == 0) (lenAnd r 4 (chk (decide (g ≤ 5)) 0)) false
    (fun s => match (grpL s g).beacon with
      | some b => .reply stDone b s
      | none => refuse stNoResource noField s) s)

/-- NODE_REFRESH (R267). -/
def execNodeRefresh (r : Req) (s : State) : Host.Outcome State Fault Refusal :=
  let n := reqNode r
  .next (execReq 0x716 r (r.func == 0) (lenAnd r 4 (chk (decide (n ≤ 4094)) 0)) false
    (fun s =>
      if n = 0 ∨ nState s n = 0 then refuse stNotInState noField s else .reply stAccepted [] (refreshNode n s)) s)

/-- DEST_SET (14 R413). -/
def execDestSet (r : Req) (s : State) : Host.Outcome State Fault Refusal :=
  let n := reqNode r
  let v := beAt r.params 0 4
  let kind := nfield v 19 18
  let idx := nfield v 15 12
  .next (execReq 0x720 r (r.func == 0)
    (lenAnd r 4 (chk (decide (n ≤ 4094) && (nbit v 11 || kind != 2 || decide (idx ≤ 3))) 0)) false
    (fun s =>
      let without := fun (l : LinkSt) => { l with dest := l.dest.filter (fun e => e.1 != n) }
      if n ≠ 0 ∧ nState s n = 0 then refuse stNotInState noField s
      else if nbit v 11 ∧ n ≠ 0 then .reply stDone [] (setLk without s)
      else if kind = 1 ∧ objF s 0 (0x910 + idx) 31 31 = 0 then refuse stNotInState noField s
      else .reply stDone [] (setLk (fun l => { without l with dest := (without l).dest ++ [(n, (kind, idx))] }) s)) s)

/-- DEST_READ (14 R413). -/
def execDestRead (r : Req) (s : State) : Host.Outcome State Fault Refusal :=
  let n := reqNode r
  .next (execReq 0x721 r (r.func == 0) (lenAnd r 4 (chk (decide (n ≤ 4094)) 0)) false
    (fun s =>
      let d := destOf s n
      .reply stDone (beBytes 4 (n * 2 ^ 20 + d.1 * 2 ^ 18 + d.2.1 * 2 ^ 12 + b2n d.2.2 * 2 ^ 11)) s) s)

-- Data packets of the host (14 R410 to R412).

/-- A downlink body for a system address (14 R412): the status of a refusal, or the queued frame. -/
def downlinkData (saddr : Nat) (body : Bytes) (s : State) : State × Option W16 :=
  let n := saddr % 4096
  if (saddr / 4096) % 64 ≠ s.aon.addr.toNat then (s, some stBadDest)
  else if n = 4095 then
    let gs := (List.range 6).filter (fun g => groupExists s g)
    if gs.all (fun g => (dataFrame 4095 g false body s).2) then
      (gs.foldl (fun s g => (dataFrame 4095 g false body s).1) s, none)
    else (s, some stNoResource)
  else if n = 0 ∨ (nState s n ≠ 2 ∧ nState s n ≠ 3) then (s, some stNotInState)
  else
    let r := dataFrame n (nGroup s n) (nNarrow s n) body s
    if r.2 then (r.1, none) else (s, some stNoResource)

/-- A data packet with its CRC (14 R410). -/
def dataPacket (kind tag dest info status saddr : Nat) (body : Bytes) : Bytes :=
  let b := [0x6C, 0x43] ++ beBytes 2 kind ++ beBytes 2 tag ++ beBytes 1 dest ++ beBytes 1 info ++ beBytes 2 body.length
    ++ beBytes 2 status ++ beBytes 4 saddr ++ body
  b ++ beBytes 4 (crc32c b)

/-- The refusal of a downlink packet (14 R412): the request's header with KIND 3 and STATUS. -/
def dataRefusal (p : Bytes) (st : W16) : Bytes :=
  dataPacket 3 (beAt p 4 2) (byteAt p 6) (byteAt p 7) st.toNat (beAt p 12 4) []

/-- A host's downlink packet is taken from the host receive queue (14 R412). -/
def execDataPacketDownlink (link : Fin 2) (mac : BitVec 48) (vlan : Option (BitVec 12)) (packet : Bytes) (s : State) :
    Host.Outcome State Fault Refusal :=
  .next (let s := match qPop link.val s with
      | some (p, t) => if p.data = packet then t else s
      | none => s
    -- requests behind it come to the head
    let s := hostRequests link s
    if beAt packet 2 2 ≠ 2 ∨ !dataPacketOk packet ∨ byteAt packet 0 ≠ 0x6C then s
    else
      let r := if destRule s.aon.addr.toNat (byteAt packet 6) false = .here then
          downlinkData (beAt packet 12 4 % 2 ^ 18) (slice packet 16 (beAt packet 8 2)) s
        else (s, some stBadDest)
      match r.2 with
      | none => r.1
      | some st => match replyLink s link.val with
        | some k => hostSend k mac vlan (dataRefusal packet st) r.1
        | none => r.1)

/-- An uplink DATA frame for the host leaves on the event link, or is discarded (14 R411). -/
def execUplinkDataSend (s : State) : Host.Outcome State Fault Refusal :=
  .next (match s.lk.uplink with
    | [] => s
    | (n, g, nb, body) :: rest =>
      let s := setLk (fun l => { l with uplink := rest }) s
      match eventLink s with
      | none => bumpF (0x5C + objF s 0 0xE20 30 30) 0x31 19 8 1 s
      | some l =>
        if 9000 < body.length then
          bumpF (0x5C + l) 0x31 19 8 1
            (raise 75 0 .hostDataOversize (beBytes 2 n.toNat ++ beBytes 2 (min 0xFFFF body.length)) s)
        else
          let d := eventDst s
          hostSend l d.1 d.2 (dataPacket 1 0 (ownDest s) (g + 8 * b2n nb) 0 (s.aon.addr.toNat * 4096 + n.toNat) body) s)

end Sys2Proof.Machine
end

