-- ==== Sys2Proof/Machine/Sched.lean ====
section
/-!
DEFINITION. The schedule (08 R227 to R243): fixing it, the start of each slot, and the beacons. The choice of slots is
the scheduler's and comes with the command; the rules of R241 and R242 accept or leave out each proposal.
-/
namespace Sys2Proof.Machine

/-- What a slot is used for (R227); a slot that nothing uses is idle. -/
inductive SlotKind where
  | transmit | receive | hop
deriving DecidableEq, Repr

/-- The slot kind that a grant and an opening give. -/
def grantKind (a : Grant) : SlotKind := if a.kind = 1 then .transmit else if a.kind = 2 then .hop else .receive
def openKind (o : OpenSt) : SlotKind := if o.kind = 1 ∨ o.kind = 2 then .transmit else .receive

/-- An uplink or join opening. The model gives the NB_BEACON's own opening KIND 2, which is not sent (R240). -/
def openUp (o : OpenSt) : Bool := o.kind == 0 || o.kind == 3

/-- A schedule while it is being fixed: its superframe; grants by group; relayed descriptors by repeater and group;
openings announced; downlink slots used by group. -/
structure Plan where
  sf : Nat
  grants : List (Nat × Grant)
  relayed : List (Nat × Nat × List Grant)
  down : List (Nat × Nat × Grant)
  opens : List OpenSt
  dl : List (Nat × Nat)
deriving Repr

/-- A grant has slots between two. -/
def overlaps (a : Grant) (lo hi : Nat) : Bool := decide (a.first ≤ hi) && decide (lo ≤ a.last)

/-- An opening covers a slot counted from reset. -/
def openCovers (o : OpenSt) (t : Nat) : Bool := decide (openFirst o ≤ t) && decide (t < openEnd o)

/-- Openings of a group, those under way and those of the plan. -/
def planOpens (s : State) (pl : Plan) (g : Nat) : List OpenSt := (s.lk.opens ++ pl.opens).filter (fun o => o.group == g)

/-- The beacon of superframe n is suppressed: slot 0 lies inside a narrowband uplink opening (R237). -/
def suppressed (l : List OpenSt) (n : Nat) : Bool := l.any (fun o => openUp o && openCovers o (16 * n))

/-- Superframes a + 1 to n have no beacon (R237): the descriptors of superframe a apply again in each. -/
def runTo (l : List OpenSt) (a n : Nat) : Bool := (List.range (n - a)).all (fun i => suppressed l (a + 1 + i))

/-- The grants that apply in superframe n, as far as the plan tells: those in force, those of the plan, and their repeats
(R237). -/
def grantsAt (s : State) (pl : Plan) (g n : Nat) : List Grant :=
  let o := planOpens s pl g
  let mine := (pl.grants.filter (fun e => e.1 == g)).map (·.2)
  if n < pl.sf then (grpL s g).cur
  else if runTo o (pl.sf - 1) n then (grpL s g).cur.filter (fun a => a.kind != 1)
  else if runTo o pl.sf n then (if n = pl.sf then mine else mine.filter (fun a => a.kind != 1))
  else []

/-- Superframes of a relayed beacon's period (R239). -/
def relaySf (s : State) : Nat := max 1 (objF s 0 0x700 8 5)

/-- The kinds that something gives to slot T, counted from reset, in a group: grants, relayed blocks of each superframe, those
planned among them, and openings. -/
def slotUses (s : State) (pl : Plan) (g T : Nat) : List SlotKind :=
  let n := T / 16
  let t := T % 16
  let blocks := (s.lk.relays.filter (fun r => r.group == g && decide (r.first ≤ n) && decide (n < r.upto)
      && !(pl.relayed.any (fun x => x.1 == r.node.toNat) && decide (pl.sf < n)))).map (·.grants)
    ++ (pl.relayed.filter (fun x => x.2.1 == g && decide (pl.sf < n) && decide (n ≤ pl.sf + relaySf s))).map (·.2.2)
  ((grantsAt s pl g n).filter (fun a => covers a t)).map grantKind
    ++ (blocks.filter (fun l => l.any (fun a => covers a t))).map (fun _ => .hop)
    ++ ((planOpens s pl g).filter (fun o => openCovers o T)).map openKind

/-- Every slot has one kind at most (R227), in the plan's superframe and in those its grants can be repeated in. -/
def kindsFit (s : State) (pl : Plan) (g : Nat) : Bool :=
  (List.range 256).all (fun i => match slotUses s pl g (16 * pl.sf + i) with
    | [] => true
    | k :: l => l.all (fun x => decide (x = k)))

/-- The usable port of a node that serves it: the highest PORT_Q, the lowest port on a tie (R83). -/
def bestPort (s : State) (n : Nat) : Option Nat :=
  ((List.range 6).filter (fun p => nbit (nPorts s n) p && inService s p)).foldl (fun a p => match a with
    | none => some p
    | some b => if nPortQ s n b < nPortQ s n p then some p else some b) none

/-- The group that serves a node under the mode in force (R80, R83): its own while that has a usable link. -/
def servingGroup (s : State) (n : Nat) (newMode : Bool) : Nat :=
  let g := nGroup s n
  let keep := !newMode && groupExists s g && (svcPorts s g).any (fun p => nbit (nPorts s n) p)
  if keep then g else match bestPort s n with
    | some p => groupOf s p
    | none => if groupExists s g then g else 0

/-- Coded bits that a grant can carry. -/
def grantBits (s : State) (g : Nat) (a : Grant) : Nat :=
  let m := ofDescMap a.map
  burstCap s (lowBand s g) 0 (slotStartTb s (16 + a.first) + leadTicks (getObj s 0 0x500)) a.gi m.1 m.2 a.node.toNat 0 a.nsym

/-- Coded bits that a narrowband opening can carry: those of its slots, and no more than the longest payload. -/
def openBits (s : State) (o : OpenSt) : Nat :=
  let cfg := getObj s 0 (0x600 + o.chan)
  min ((o.count * s.clk.per * nbBaud cfg * (if o.mod then 2 else 1)) / (8 * 256 * 400000000)) (fitNb o.rate (8 * 255 + 16)).len

/-- The sum of charges in a group at a slot counted from reset (R242): each from its first slot to the end of the slot
after its last. -/
def chargeAt (s : State) (pl : Plan) (g t : Nat) : Nat :=
  let up := fun n => (grantsAt s pl g n).filter (fun a => a.kind == 0 || a.kind == 3)
  let mine := (up (t / 16)).filter (fun a => decide (a.first ≤ t % 16) && decide (t % 16 ≤ a.last + 1))
  let before := if t % 16 = 0 then (up (t / 16 - 1)).filter (fun a => a.last == 15) else []
  (mine ++ before).foldl (fun a e => a + 4 * grantBits s g e) 0
    + ((planOpens s pl g).filter (fun o => openUp o && decide (openFirst o ≤ t) && decide (t ≤ openEnd o))).foldl
        (fun a o => a + 4 * openBits s o) 0

/-- The charges stay within the pool from slot lo to slot hi. -/
def poolFits (s : State) (pl : Plan) (g lo hi : Nat) : Bool :=
  (List.range (hi + 1 - lo)).all (fun i => decide (chargeAt s pl g (lo + i) ≤ poolBits s g))

/-- The charges stay within the pool in the plan's superframe and in those its grants can be repeated in (R242). -/
def poolOk (s : State) (pl : Plan) (g : Nat) : Bool := poolFits s pl g (16 * pl.sf) (16 * pl.sf + 256)

/-- Payload symbols that fit slots lo to hi of the next superframe (R92, R241). -/
def slotsFit (s : State) (lo hi gi : Nat) : Nat :=
  let cfg := getObj s 0 0x500
  symsFit 0 (slotStartTb s (16 + lo) + leadTicks cfg) gi (slotStartTb s (16 + hi + 1) - tailTicks cfg)

/-- What every broadband proposal meets: slots 1 to 15 in order, none of them blocked, a group with a port in SERVICE, a
beacon that carries the grant, and room for its descriptor (R86, R237, R241, R268). -/
def propOk (s : State) (pl : Plan) (p : Proposal) : Bool :=
  decide (1 ≤ p.first.val ∧ p.first.val ≤ p.last.val) && groupExists s p.group.val && !(svcPorts s p.group.val).isEmpty
    && groupFreeAt s p.group.val (slotStartTb s (16 + p.first.val)) && !suppressed (planOpens s pl p.group.val) pl.sf
    && decide ((pl.grants.filter (fun e => e.1 == p.group.val)).length < 45)

/-- The grant of a proposal. -/
def propGrant (p : Proposal) (uidx map rate nsym : Nat) : Grant :=
  ⟨p.kind.val, p.first.val, p.last.val, uidx, rate, p.gi.val, p.node, map, nsym⟩

/-- A grant joins the plan. -/
def addGrant (g : Nat) (a : Grant) (pl : Plan) : Plan := { pl with grants := pl.grants ++ [(g, a)] }

/-- The frame can take its sequence number now (R244). -/
def seqReady (s : State) (f : TxFrame) : Bool :=
  f.seq.isSome || !sequenced f.ty f.node.toNat
    || decide ((nVs s f.node.toNat + 4096 - nVa s f.node.toNat) % 4096 < 64)

/-- The oldest frame that waits for a broadband burst to a node. -/
def waitingFor (s : State) (g hop : Nat) : Option TxFrame :=
  s.lk.tx.find? (fun f => decide (f.st = .queued) && !f.nb && hopOf s f.node.toNat == hop && f.group == g && seqReady s f)

/-- Whether a node's ACK entry travels in trailers (R248). -/
def trailerNode (s : State) (n : Nat) : Bool := n != 4095 && (nNarrow s n || decide (2 ≤ nHops s n))

/-- A frame is chosen for the next schedule: it takes its number and its trailer, and goes to the Cloche (R244, R248). -/
def chooseFrame (f : TxFrame) (grant : Option Grant) (sf : Nat) (s : State) : State :=
  let n := f.node.toNat
  let fresh := f.seq.isNone && sequenced f.ty n
  let vs := nVs s n
  let s := if fresh then nSet n 30 2 (((vs + 1) % 4096) * 16) s else s
  let owed := trailerNode s n && s.lk.acks.contains f.node
  let ack := if owed then ackEntry s n else []
  let s := setTx f.id (fun t => { t with
    st := .sealing, seq := if fresh then some vs else t.seq, grant := grant, sfFor := sf, ack := ack }) s
  let s := if owed then setLk (fun l => { l with acks := l.acks.erase f.node }) s else s
  setClo (fun c => { c with jobs := c.jobs ++ [.link f.id] }) s

/-- A new frame of the link engine's own that is chosen at once. -/
def chooseNew (n g ty : Nat) (nb : Bool) (body : Bytes) (key : Option Nat) (grant : Option Grant) (sf : Nat) (s : State) :
    State :=
  let s := newFrame n g ty nb body key none s
  match s.lk.tx.getLast? with
  | some f => chooseFrame f grant sf s
  | none => s

/-- Uplink grants (R241): granted users share slots, guard and NSYM_MAX, and lie within MU_SPREAD of one another. -/
def admitUplink (p : Proposal) (s : State) (pl : Plan) : State × Plan :=
  let g := p.group.val
  let n := p.node.toNat
  let peers := (pl.grants.filter (fun e => e.1 == g && overlaps e.2 p.first.val p.last.val)).map (·.2)
  let spread : Int := 25 * objF s 0 0x521 14 10
  let may := !nNarrow s n && nHops s n == 1 && servingGroup s n false == g
    && (nState s n == 2 || (nState s n == 3 && p.cls.val == 7))
    && (p.cls.val != 4 || s.lk.retry.contains p.node)
    && (p.cls.val != 6 || decide (0 < nBacklog s n))
    && (p.cls.val != 7 || p.first == p.last)
  let same := peers.all (fun a => a.kind == 0 && a.first == p.first.val && a.last == p.last.val && a.gi == p.gi.val
    && a.node != p.node && decide (((nFoff s a.node.toNat - nFoff s n).natAbs : Int) ≤ spread))
  let nsym := match peers.head? with
    | some a => a.nsym
    | none => min p.nsymMax.toNat (slotsFit s p.first.val p.last.val p.gi.val)
  let m := if p.cls.val = 4 then (fallback s n, 0) else pickMap s n 0 p.first.val p.last.val
  let pl' := addGrant g (propGrant p peers.length m.1 m.2 nsym) pl
  if may && same && decide (peers.length < min 3 (svcPorts s g).length) && decide (0 < nsym)
      && poolOk s pl' g then
    -- a node that has been polled comes last in the next round (R243)
    (if p.cls.val = 4 then setLk (fun l => { l with retry := l.retry.erase p.node }) s
      else if p.cls.val = 7 then setGrpL g (fun l => { l with polled := n }) s
      else s, pl')
  else (s, pl)

/-- A join descriptor of the Garurn's own (R250). -/
def admitJoin (p : Proposal) (s : State) (pl : Plan) : State × Plan :=
  let g := p.group.val
  let alone := !pl.grants.any (fun e => e.1 == g && overlaps e.2 p.first.val p.last.val)
  let nsym := min p.nsymMax.toNat (slotsFit s p.first.val p.last.val p.gi.val)
  let pl' := addGrant g (propGrant p 0 1 0 nsym) pl
  if joinOpen s && alone && decide (0 < nsym) && poolOk s pl' g then (s, pl') else (s, pl)

/-- Hop grants (R239, R243): a broadband node that is ACTIVE; the repeater's own hop slot follows its relayed beacon. -/
def admitHop (p : Proposal) (s : State) (pl : Plan) : State × Plan :=
  let g := p.group.val
  let n := p.node.toNat
  let alone := !pl.grants.any (fun e => e.1 == g && overlaps e.2 p.first.val p.last.val)
  let nsym := min p.nsymMax.toNat (slotsFit s p.first.val p.last.val p.gi.val)
  let after := p.cls.val != 0 || pl.down.any (fun d => d.2.1 == g && decide (d.2.2.last < p.first.val)
    && (d.1 == n || (nodePath s d.1).contains n))
  if nState s n == 2 && n != 0 && !nNarrow s n && servingGroup s n false == g && alone && after && decide (0 < nsym) then
    (s, addGrant g (propGrant p 0 0xF 0 nsym) pl)
  else (s, pl)

/-- Nodes whose ACK entries the broadcast ACK frame of a group carries (R248). -/
def ackOwed (s : State) (g : Nat) : List (BitVec 12) :=
  s.lk.acks.filter (fun n => !nNarrow s n.toNat && nHops s n.toNat == 1 && servingGroup s n.toNat false == g)

/-- The broadcast ACK frame (R243, R248): entries for one-hop broadband nodes, as many as the grant carries. -/
def admitAcks (p : Proposal) (s : State) (pl : Plan) : State × Plan :=
  let g := p.group.val
  let owed := ackOwed s g
  let nsym := min p.nsymMax.toNat (slotsFit s p.first.val p.last.val p.gi.val)
  let cap := fun x => x * symCap s (lowBand s g) 1 0 none
  let fits := fun k => let f := fitBb 0 (8 * (20 + 13 * k) + 32) cap; decide (0 < f.nsym ∧ f.nsym ≤ nsym)
  let k := ((List.range (min 255 owed.length + 1)).filter fits).foldl max 0
  if k = 0 then (s, pl)
  else
    let now_ := owed.take k
    let a := propGrant p 0 1 0 nsym
    let s := chooseNew 4095 g 1 false (beBytes 1 k ++ now_.flatMap (fun n => ackEntry s n.toNat)) (netSlot s) (some a) pl.sf s
    (setLk (fun l => { l with acks := l.acks.filter (fun n => !now_.contains n) }) s, addGrant g a pl)

/-- A relayed beacon goes to a repeater once every RELAY_SF superframes (R239). -/
def admitRelay (p : Proposal) (s : State) (pl : Plan) : State × Plan :=
  let g := p.group.val
  let r := p.node.toNat
  let nsym := min p.nsymMax.toNat (slotsFit s p.first.val p.last.val p.gi.val)
  let m := pickMap s (hopOf s r) 1 p.first.val p.last.val
  let a := { propGrant p 0 m.1 m.2 nsym with node := BitVec.ofNat 12 (hopOf s r) }
  if nState s r == 2 && nRepeater s r && servingGroup s r false == g && decide (0 < nsym)
      && !s.lk.relays.any (fun x => x.node == p.node && decide (pl.sf + 1 < x.upto))
      && !pl.relayed.any (fun x => x.1 == r) then
    (s, { addGrant g a pl with relayed := pl.relayed ++ [(r, g, [])], down := pl.down ++ [(r, g, a)] })
  else (s, pl)

/-- Downlink (R243, R248): the oldest waiting frame for the node, or an ACK frame for a node behind it. A broadcast goes out with
ROBUST_8 at rate 1/2, as a beacon does: DESIGN CHOICE (log 167). -/
def admitDown (p : Proposal) (s : State) (pl : Plan) : State × Plan :=
  let g := p.group.val
  let n := p.node.toNat
  let used := (pl.dl.filter (fun e => e.1 == g)).foldl (fun a e => a + e.2) 0
  let count := p.last.val + 1 - p.first.val
  let share := max 1 (objF s 0 0x700 14 11)
  let nsym := min p.nsymMax.toNat (slotsFit s p.first.val p.last.val p.gi.val)
  let may := n == 4095 || ((nState s n == 2 || nState s n == 4) && !nNarrow s n && nHops s n == 1)
  let m := if n = 4095 then (1, 0) else pickMap s n 1 p.first.val p.last.val
  let a := propGrant p 0 m.1 m.2 nsym
  let pl' := { addGrant g a pl with dl := pl.dl ++ [(g, count)] }
  if may && decide (used + count ≤ share) && decide (0 < nsym) then
    match waitingFor s g n with
    | some f => (chooseFrame f (some a) pl.sf s, pl')
    | none => match s.lk.acks.find? (fun x => !nNarrow s x.toNat && decide (2 ≤ nHops s x.toNat) && hopOf s x.toNat == n) with
      | some x => (chooseNew x.toNat g 1 false [0] none (some a) pl.sf s, pl')
      | none => (s, pl)
  else (s, pl)

/-- The NB_BEACON opening of a group in a superframe (R240): from slot 1 on, long enough for the longest body. -/
def nbBeaconOpen (s : State) (sf g : Nat) : OpenSt :=
  let ch := objF s 0 0x704 23 21
  let cfg := getObj s 0 (0x600 + ch)
  let syms := nbPreLen s + 32 + 64 + 144 + (fitNb 0 (8 * 239 + 16)).len
  let b := getObj s 0 0x500
  let ticks := cdiv (syms * 400000000) (nbBaud cfg) + max (leadTicks b) (us (nbRampUs s)) + us (nbRampUs s)
    + max (tailTicks b) (us (nbRampUs s))
  ⟨g, sf, 1, cdiv (ticks * 2048) s.clk.per, 2, ch, 0, false, 4095⟩

/-- The group has a narrowband node ACTIVE (R240). -/
def nbActive (s : State) (g : Nat) : Bool := (nodesIn s 2).any (fun n => nNarrow s n && servingGroup s n false == g)

/-- Superframe n, after the plan's, holds an NB_BEACON of the group (R240): NEXT of the last one announced it. -/
def nbReserved (s : State) (pl : Plan) (g n : Nat) : Bool :=
  let every := max 1 (objF s 0 0x704 31 24)
  let due := max pl.sf (sfNow s + (grpL s g).nbDue)
  nbActive s g && decide (due ≤ n) && (n - due) % every == 0

/-- An opening takes slot 0 or the slots of the NB_BEACON in superframe n. -/
def meetsBeacon (s : State) (n g : Nat) (o : OpenSt) : Bool :=
  let b := nbBeaconOpen s n g
  openCovers o (16 * n) || (decide (openFirst o < openEnd b) && decide (openFirst b < openEnd o))

/-- A descriptor of a relayed beacon (R239): it concerns a descendant and its parent, or joins that the repeater hears; its
slots are hop slots of the superframes that follow. -/
def admitRelayed (p : Proposal) (r : Nat) (s : State) (pl : Plan) : State × Plan :=
  let g := p.group.val
  let nsym := min p.nsymMax.toNat (slotsFit s p.first.val p.last.val p.gi.val)
  let a := if p.kind.val = 3 then propGrant p 0 1 0 nsym else propGrant p 0 0xF 0 nsym
  let clear := (List.range (relaySf s)).all (fun k => (List.range 16).all (fun t => !covers a t
    || (!(nbReserved s pl g (pl.sf + 1 + k) && openCovers (nbBeaconOpen s (pl.sf + 1 + k) g) (16 * (pl.sf + 1 + k) + t))
      && (s.lk.relays.all (fun x => !(x.group == g && x.node.toNat != r && decide (pl.sf + 1 + k < x.upto)
          && decide (x.first ≤ pl.sf + 1 + k) && x.grants.any (fun b => covers b t))))
      && (pl.relayed.all (fun x => !(x.2.1 == g && x.2.2.any (fun b => covers b t)))))))
  let may := if p.kind.val = 3 then joinOpen s else nState s p.node.toNat == 2 || nState s p.node.toNat == 3
  if may && clear && decide (0 < nsym) && pl.relayed.any (fun x => x.1 == r && x.2.1 == g && decide (x.2.2.length < 45)) then
    (s, { pl with relayed := pl.relayed.map (fun x => if x.1 == r then (x.1, x.2.1, x.2.2 ++ [a]) else x) })
  else (s, pl)

/-- One broadband proposal, admitted or left out. -/
def admitProp (e : State × Plan) (p : Proposal) : State × Plan :=
  let (s, pl) := e
  let g := p.group.val
  let n := p.node.toNat
  let t := if !propOk s pl p then e
    else if p.kind.val = 3 ∧ n ≠ 0 then admitRelayed p n s pl
    else if p.kind.val = 0 ∧ 2 ≤ nHops s n then admitRelayed p (nParent s n) s pl
    else if p.kind.val = 0 then (if 4 ≤ p.cls.val ∧ p.cls.val ≠ 5 then admitUplink p s pl else e)
    else if p.kind.val = 3 then admitJoin p s pl
    else if p.kind.val = 2 then admitHop p s pl
    else if pl.grants.any (fun x => x.1 == g && x.2.kind == 1 && overlaps x.2 p.first.val p.last.val) then e
    else if p.cls.val = 0 then admitRelay p s pl
    else if p.cls.val = 3 then (if n = 4095 then admitAcks p s pl else e)
    else admitDown p s pl
  if kindsFit t.1 t.2 g then t else e

-- Narrowband openings.

/-- The group's NB_BEACON falls due in the plan's superframe. -/
def nbBeaconDue (s : State) (pl : Plan) (g : Nat) : Bool :=
  groupExists s g && decide ((grpL s g).nbDue ≤ 1) && nbActive s g && !(nbPorts s g).isEmpty
    && groupFreeAt s g (slotStartTb s 17)
    && nbEnabled (nbOf s (nbI g (objF s 0 0x704 23 21))).cfg
    && decide (0 < s.clk.per) && !(planOpens s pl g).any (fun o => meetsBeacon s pl.sf g o)

/-- No run of more than 15 beacons is suppressed (R241). -/
def runsOk (l : List OpenSt) (from_ : Nat) : Bool :=
  ((List.range 520).foldl (fun (a : Nat × Bool) k =>
    let n := if suppressed l (from_ + k) then a.1 + 1 else 0
    (n, a.2 && decide (n ≤ 15))) (0, true)).2

/-- Openings announced by the group's NB_BEACON so far. -/
def announced (pl : Plan) (g : Nat) : List OpenSt := pl.opens.filter (fun o => o.group == g && o.kind != 2)

/-- A narrowband opening that the scheduler asks for, admitted or left out (R240 to R242). -/
def admitOpen (e : State × Plan) (q : NbOpening) : State × Plan :=
  let (s, pl) := e
  let g := q.group.val
  let n := q.node.toNat
  let o : OpenSt := ⟨g, pl.sf + q.sfOfs.toNat, q.first.val, q.count.toNat, q.kind.val, q.chan.val, q.rate.val, q.mod, q.node⟩
  let cfg := (nbOf s (nbI g o.chan)).cfg
  let others := planOpens s pl g
  -- a LOST node is polled and no more, a LEAVING one still gets its LEAVE (R254, R255); a broadcast is any node's
  let who : Bool := if o.kind = 3 then n == 0 && joinOpen s
    else if n = 4095 then o.kind == 1 && !o.mod
    else (nState s n == 2 || nState s n == (if o.kind = 0 then 3 else 4)) && nNarrow s n && servingGroup s n false == g
      && nChan s n == o.chan && (!o.mod || nFour s n)
  let clash := others.any (fun x => decide (openFirst x < openEnd o) && decide (openFirst o < openEnd x)
    && (openKind x != openKind o || x.chan == o.chan || o.kind == 1))
  let beacon := (List.range 512).any (fun i => nbReserved s pl g (pl.sf + 1 + i) && meetsBeacon s (pl.sf + 1 + i) g o)
  let pl' := { pl with opens := pl.opens ++ [o] }
  if !(pl.opens.any (fun x => x.group == g && x.kind == 2)) || !who || !nbEnabled cfg || o.kind == 2 || o.count == 0
      || (o.mod && fget cfg 10 10 == 0) || clash || beacon || !kindsFit s pl' g || decide (openFirst o ≤ 16 * pl.sf)
      || !groupFreeAt s g (slotStartTb s (openFirst o - 16 * sfNow s))
      || !runsOk (o :: others) (pl.sf + 1) || decide (204 < 6 * ((announced pl g).length + 1))
      || (openUp o && !(poolOk s pl' g && poolFits s pl' g (openFirst o) (openEnd o))) then e
  else if o.kind = 1 then
    match s.lk.tx.find? (fun f => decide (f.st = .queued) && f.nb && f.group == g && decide (f.node = q.node) && seqReady s f)
    with
    | some f => (chooseFrame f none o.sf s, pl')
    | none => e
  else (s, pl')

-- Beacons.

/-- A grant descriptor (R234). -/
def descBytes (a : Grant) : Bytes :=
  beBytes 1 (16 * a.first + a.last) ++ beBytes 1 (64 * a.kind + 16 * a.uidx + 4 * a.rate + a.gi)
    ++ beBytes 2 (16 * a.node.toNat + a.map) ++ beBytes 2 (16 * a.nsym)

/-- A beacon body (R234, R239). -/
def beaconBody (s : State) (g cycle : Nat) (relayed : Bool) (rep hops : Nat) (incl : Bool) (ds : List Grant) : Bytes :=
  let cfg := getObj s 0 0x500
  let mask := maskBytes s
  beBytes 2 (netId s) ++ beBytes 8 Config.eui.toNat ++ beBytes 4 cycle ++ beBytes 4 s.clk.per ++ beBytes 2 (sfOffset s)
    ++ beBytes 1 (fget cfg 31 24) ++ beBytes 1 (fget cfg 23 16)
    ++ beBytes 1 (32 * g + 16 * b2n (lowBand s g) + 8 * b2n (joinOpen s) + 4 * b2n incl + 2 * b2n relayed)
    ++ beBytes 1 (16 * rep + hops) ++ beBytes 2 (crc16 mask) ++ beBytes 1 ds.length ++ [0] ++ ds.flatMap descBytes
    ++ (if incl then mask else [])

/-- The relayed beacons of a schedule (R239): the frame to each repeater, sealed with the network key as every BEACON (R231), with
the mask after a change of it and every 32 cycles (R236), and the block its descriptors describe. An older block of the repeater
lasts up to it. -/
def sendRelayed (e : State) (pl : Plan) : State :=
  pl.relayed.foldl (fun s x =>
    let (r, g, ds) := x
    match pl.down.find? (fun d => d.1 == r), netSlot s with
    | some d, some k =>
      let mask := maskBytes s
      let cycle := s.clk.sfCycle.toNat + 2
      let incl := cycle % 32 == 0 || !s.lk.maskTold.contains (r, mask)
      let body := beaconBody s g cycle true (relaySf s - 1) (nHops s r) incl ds
      let s := chooseNew r g 7 false body (some k) (some d.2.2) pl.sf s
      setLk (fun l => { l with
        maskTold := (r, mask) :: l.maskTold.filter (fun y => y.1 != r)
        relays := l.relays.map (fun y => if y.node.toNat = r then { y with upto := min y.upto (pl.sf + 1) } else y)
          ++ [⟨BitVec.ofNat 12 r, g, pl.sf + 1, pl.sf + 1 + relaySf s, ds⟩] }) s
    | _, _ => s) e

/-- Openings and ACK entries of the NB_BEACON (R240, R248), fixed with the schedule. -/
def nbFix (g : Nat) (pl : Plan) (s : State) : State :=
  let ann := announced pl g
  if !(pl.opens.any (fun o => o.group == g && o.kind == 2)) then
    setGrpL g (fun l => { l with nbAnn := [], nbAcks := [] }) s
  else
    let owed := (s.lk.acks.filter (fun n => nNarrow s n.toNat && servingGroup s n.toNat false == g)).take
      ((204 - 6 * ann.length) / 13)
    let acks := owed.map (fun n => ackEntry s n.toNat)
    let s := setGrpL g (fun l => { l with nbAnn := ann, nbAcks := acks }) s
    setLk (fun l => { l with acks := l.acks.filter (fun n => !owed.contains n) }) s

/-- Put p into a list before the first whose key is not below its own; sort by a key, equals in the order given. -/
def insertBy (key : Proposal → Nat) (p : Proposal) : List Proposal → List Proposal
  | [] => [p]
  | q :: l => if key p ≤ key q then p :: q :: l else q :: insertBy key p l
def sortBy (key : Proposal → Nat) (l : List Proposal) : List Proposal := l.foldr (insertBy key) []

/-- The order of R243 within a class: downlink by the oldest waiting frame, uplink by the age of the node's report, polls in
turn. -/
def propKey (s : State) (p : Proposal) : Nat :=
  let g := p.group.val
  let n := p.node.toNat
  if p.cls.val = 5 then ((waitingFor s g n).map (·.id)).getD s.lk.nextId
  else if p.cls.val = 6 then smGet (fun _ => 0) s.lk.backAt n
  else if p.cls.val = 7 then (n + 4095 - (grpL s g).polled) % 4096
  else 0

/-- The order of R243: classes in turn. -/
def byClass (s : State) (lo hi : Nat) (l : List Proposal) : List Proposal :=
  (List.range 8).flatMap (fun c =>
    if lo ≤ c ∧ c ≤ hi then sortBy (propKey s) (l.filter (fun p => p.cls.val == c)) else [])

/-- The model's own proposals, where a rule calls for a grant and the command proposes none: one slot at a time. -/
def ownProp (s : State) (cls : Fin 8) (kind : Fin 4) (g : Fin 6) (n : Nat) (t : Fin 16) : Proposal :=
  let gi : Fin 3 := match objF s 0 0x700 10 9 with | 0 => 0 | 1 => 1 | _ => 2
  ⟨cls, g, t, t, kind, BitVec.ofNat 12 n, gi, 4095⟩

/-- Grants and relayed descriptors of a plan. -/
def planSize (pl : Plan) : Nat := pl.relayed.foldl (fun a x => a + 1 + x.2.2.length) pl.grants.length

/-- The first slot after `lo` in which a proposal is admitted: the plan with it, and that slot. -/
def placeAfter (mk : Fin 16 → Proposal) (e : State × Plan) (lo : Nat) : Option ((State × Plan) × Nat) :=
  (List.finRange 16).findSome? (fun t =>
    if t.val ≤ lo then none
    else
      let x := admitProp e (mk t)
      if planSize e.2 < planSize x.2 then some (x, t.val) else none)

/-- A proposal is admitted in the first slot that takes it, or left out. -/
def placeAny (mk : Fin 16 → Proposal) (e : State × Plan) : State × Plan := ((placeAfter mk e 0).map (·.1)).getD e

/-- The relayed beacon of a repeater that is due (R239): its downlink, and one after another the hop slots of the repeaters on
its path and its own; none of them where they do not all fit. -/
def placeRelay (g : Fin 6) (r : Nat) (e : State × Plan) : State × Plan :=
  let s := e.1
  let steps := (fun t => ownProp s 0 1 g r t) :: (nodePath s r ++ [r]).map (fun n t => ownProp s 0 2 g n t)
  let out := steps.foldl (fun (a : Option ((State × Plan) × Nat)) mk => a.bind (fun x => placeAfter mk x.1 x.2)) (some (e, 0))
  (out.map (·.1)).getD e

/-- What a group's schedule holds whether or not the command proposes it: the relayed beacons that are due, a join descriptor
while JOIN_OPEN is set, a broadcast ACK slot while one-hop entries are pending, and step retries (R239, R243, R250, R266).
DESIGN CHOICE (log 168): one slot each, the first free one. -/
def placeDue (due : Nat) (g : Fin 6) (e : State × Plan) : State × Plan :=
  let s := e.1
  let own := e.2.grants.filter (fun x => x.1 == g.val)
  match due with
  | 0 => ((repeaters s).filter (fun r => servingGroup s r false == g.val)).foldl (fun e r => placeRelay g r e) e
  | 1 => if joinOpen s && !own.any (fun x => x.2.kind == 3) then placeAny (ownProp s 7 3 g 0) e else e
  | 2 => if (ackOwed s g.val).isEmpty || own.any (fun x => x.2.kind == 1 && x.2.node == 4095) then e
    else placeAny (ownProp s 3 1 g 4095) e
  | _ => (s.lk.retry.filter (fun n => servingGroup s n.toNat false == g.val)).foldl
      (fun e n => placeAny (ownProp s 4 0 g n.toNat) e) e

/-- The due grants of one sort in every group. -/
def placeAll (due : Nat) (e : State × Plan) : State × Plan := (List.finRange 6).foldl (fun e g => placeDue due g e) e

/-- The schedule of the next superframe over the previewed state, in the order of R243. -/
def planSchedule (props : List Proposal) (opens : List NbOpening) (v : State) : State :=
  let k := sfNow v + 1
  let join := fun (p : Proposal) => decide (p.kind.val = 3 ∧ p.node = 0)
  let rest := props.filter (fun p => !join p)
  let e := (List.range 6).foldl (fun (e : State × Plan) g =>
    let pl := { e.2 with opens := e.2.opens ++ [nbBeaconOpen e.1 k g] }
    if nbBeaconDue e.1 e.2 g && kindsFit e.1 pl g then (e.1, pl) else e) (v, (⟨k, [], [], [], [], []⟩ : Plan))
  let e := placeAll 0 ((byClass v 0 2 rest).foldl admitProp e)
  let e := placeAll 1 ((props.filter join).foldl admitProp e)
  let e := opens.foldl admitOpen e
  let e := placeAll 2 ((byClass v 3 3 rest).foldl admitProp e)
  let e := placeAll 3 ((byClass v 4 4 rest).foldl admitProp e)
  let e := (byClass v 5 7 rest).foldl admitProp e
  let s := sendRelayed e.1 e.2
  let pl := e.2
  let s := (List.range 6).foldl (fun s g => nbFix g pl s) s
  let s := setLk (fun l => { l with opens := l.opens ++ pl.opens }) s
  (List.range 6).foldl (fun s g =>
    let rep := suppressed (planOpens s pl g) k
    setGrpL g (fun l => { l with
      next := if rep then l.cur.filter (fun a => a.kind != 1) else (pl.grants.filter (fun x => x.1 == g)).map (·.2) }) s) s

/-- The schedule of the next superframe is fixed (R228, R229, R237, R243). -/
def execScheduleFix (props : List Proposal) (opens : List NbOpening) (s : State) : Host.Outcome State Fault Refusal :=
  .next (if s.pw.mcDown then
      (List.range 6).foldl (fun s g => setGrpL g (fun l => { l with next := l.cur }) s) s
    else
      let t := planSchedule props opens (preview s)
      { t with regs := s.regs, shadow := s.shadow, bb := s.bb, port := s.port })

/-- The step watch of a group ends (R266). -/
def execStepWatchEnd (g : Fin 6) (s : State) : Host.Outcome State Fault Refusal :=
  .next (match (grpL s g.val).watch with
    | some (e, _, _) => if e ≤ sfNow s then setGrpL g.val (fun l => { l with watch := none }) s else s
    | none => s)

-- Slot and superframe starts.

/-- Drivers whose last burst has ended turn off (03 R68). -/
def driversDue (s : State) : State :=
  (List.range 6).foldl (fun s p =>
    let k := portOf s p
    if k.testRunning || k.checking.isSome then s
    else
      let s := if k.bbOn && decide (k.bbEnd ≤ now s) then setDriver p false false s else s
      if k.nbOn && decide (k.nbEnd ≤ now s) then setDriver p true false s else s) s

/-- What the block does when no command waits: one tick, and drivers at the end of their bursts. -/
def idle (s : State) : State := driversDue (tick s)

/-- Tests that waited for the slot start begin (R86, 04 R118). -/
def testsBegin (s : State) : State :=
  (List.range 6).foldl (fun s p =>
    if (portOf s p).testWaiting then
      let t := s.clk.tb
      let s := setPort p (fun k => { k with testWaiting := false, testRunning := true, testAt := t }) s
      -- a sounding begins with the driver idle (R75); a narrowband test leaves the banks alone (04 R118)
      if (findDeferred 0x603 (pf p) s).isSome then setDriver p true true s
      else if (findDeferred 0x530 (pf p) s).isSome then setDriver p false true (takeBankB p 0 s)
      else takeBankB p 0 s
    else s) s

/-- SILENT counts a grant without a frame (R254). -/
def silentUp (n : Nat) (s : State) : State :=
  if n = 0 ∨ n = 4095 ∨ nState s n = 0 then s else nSet n 25 1 (min 255 (nSilent s n + 1)) s

/-- Narrowband openings that have ended leave the list; an uplink opening without a frame counts towards SILENT (R254). -/
def opensEnd (s : State) : State :=
  let t := slotCount s
  let gone := s.lk.opens.filter (fun o => decide (openEnd o ≤ t))
  let s := gone.foldl (fun s o =>
    if o.kind = 0 ∧ !s.lk.present.contains (o.group, o.node) then silentUp o.node.toNat s else s) s
  setLk (fun l => { l with opens := l.opens.filter (fun o => decide (t < openEnd o)) }) s

/-- The opening as an NB_BEACON lists it (R240), for a beacon in superframe k. -/
def openBytes (s : State) (k : Nat) (o : OpenSt) : Bytes :=
  beBytes 1 (o.sf - k) ++ beBytes 2 (4096 * o.first + o.count) ++ beBytes 1 (64 * o.kind + 8 * o.chan + 2 * o.rate + b2n o.mod)
    ++ beBytes 2 (16 * o.node.toNat + 2 * objF s 0 0x610 18 16)

/-- The engine that seals a beacon: a free one, else the first in service, which takes it after its job. DESIGN CHOICE (log 166):
that wait takes no time of the model. -/
def beaconEngine (s : State) : Option Nat :=
  (freeEngine s).orElse (fun _ => (List.range 16).find? (fun e => engState s e != 4 && !funcDown s (0x40 + e)))

/-- The Cloche seals a beacon under the network key: none without a key, before READY, once the DRBG has stopped, or with no
engine left. -/
def sealBeacon (ty : Nat) (body : Bytes) (s : State) : State × Option Bytes :=
  match netSlot s, beaconEngine s with
  | some k, some e =>
    if objF s 0x50 0x800 31 31 = 0 ∨ drbgDead s then (s, none)
    else sealLink k ty false false 4095 0 1 [] body (bumpF (0x40 + e) 0x808 23 0 1 s)
  | _, _ => (s, none)

/-- The NB_BEACON of a group leaves in its opening at slot 1 (R240). -/
def nbBeaconSend (g : Nat) (s : State) : State :=
  let ch := objF s 0 0x704 23 21
  match openNow s g ch [2] with
  | none => s
  | some o =>
    if o.sf ≠ sfNow s then s
    else
      let b := getObj s 0 0x500
      let l := grpL s g
      let every := max 1 (objF s 0 0x704 31 24)
      let body := beBytes 4 s.clk.sfCycle.toNat ++ beBytes 4 s.clk.per ++ beBytes 2 (sfOffset s) ++ beBytes 1 (fget b 31 24)
        ++ beBytes 1 (fget b 23 16) ++ beBytes 1 (nbRampUs s) ++ beBytes 1 every ++ beBytes 1 l.nbAnn.length
        ++ beBytes 1 l.nbAcks.length ++ l.nbAnn.flatMap (openBytes s (sfNow s)) ++ l.nbAcks.flatten
      let s := setGrpL g (fun l => { l with nbDue := every }) s
      match sealBeacon 8 body s with
      | (s, none) => s
      | (s, some f) =>
        let fit := fitNb 0 (8 * f.length + 16)
        let cfg := (nbOf s (nbI g ch)).cfg
        let per := nbPerBlock fit 1 (nbBaud cfg) (objF s 0 0x610 18 16) s.clk.per
        if groupBlocked s g ∨ poolBits s g < poolUsed s g + fit.len then s else
        let word := nbHeadBits false 4095 (netId s % 256) f.length 0 (per - 1)
        let x : TxBurst := ⟨g, true, 4095, 0, word, codedStream fit 0 12 per (nbFrameBits f), fit.len, 0, 0, 0, [], ch, false, fit.len,
          portMask (portsOf s g), 0, o.sf, o.first, o.count, []⟩
        sendNb x false (addPrec (15 * (fit.n + 1)) s)

/-- A slot begins (R52, R86, R120, R131, R240). -/
def execSlotStart (slot : Fin 16) (s : State) : Host.Outcome State Fault Refusal :=
  .next (if s.phase ≠ .running ∨ !s.clk.lockSeen ∨ s.clk.sfCount = 0 then s
    else
      let t := s.clk.tb
      let s := driversDue (setClk (fun c => { c with slot := slot, slotTb := t }) s)
      let s := if slot.val = 15 then lateWrites (now s) s else s
      let s := opensEnd s
      let s := testsBegin s
      let s := if slot.val = 1 then (List.range 6).foldl (fun s g => nbBeaconSend g s) s else s
      (List.range 6).foldl (fun s g => rearm g s) s)

/-- Grants of the superframe that ends without a frame of their node count towards SILENT (R254), and so do those whose frame
has failed R231 (R268). -/
def silentGrants (s : State) : State :=
  let missed := fun g a => !s.lk.present.contains (g, a)
  let s1 := (List.range 6).foldl (fun t g =>
    ((grpL s g).cur.filter (fun a => (a.kind == 0 || a.kind == 2) && missed g a.node)).foldl
      (fun t a => silentUp a.node.toNat t) t) s
  let s2 := (s.lk.relays.filter (fun r => decide (r.first ≤ sfNow s) && decide (sfNow s < r.upto))).foldl (fun t r =>
    (r.grants.filter (fun a => (a.kind == 0 || a.kind == 2) && missed r.group a.node)).foldl
      (fun t a => silentUp a.node.toNat t) t) s1
  let s2 := s.lk.unheard.foldl (fun t n => silentUp n.toNat t) s2
  -- a narrowband opening that runs on keeps its node's presence
  let k := slotCount s
  setLk (fun l => { l with
    present := l.present.filter (fun e => l.opens.any (fun o => o.group == e.1 && decide (o.node = e.2)
      && decide (openFirst o ≤ k) && decide (k + 1 < openEnd o)))
    unheard := [], relays := l.relays.filter (fun r => decide (sfNow s + 1 < r.upto)) }) s2

/-- The ended superframe is evaluated (03 R82, R84): changes already due stand, those it finds wait one superframe. -/
def evalPorts (s : State) : State × (List (Option PortMove)) :=
  let due := (List.range 6).map (fun p => (portOf s p).move)
  let s := (List.range 6).foldl (fun s p => setF (pf p) 0x711 7 0 (median (portOf s p).lqis) s) s
  ((List.range 6).foldl (fun s p => evalPort p s) s, due)

/-- The port changes due now are made; those that the evaluation found remain for the next superframe start. -/
def makeMoves (due : List (Option PortMove)) (s : State) : State :=
  let found := (List.range 6).map (fun p => (portOf s p).move)
  let s := (List.range 6).foldl (fun s p => setPort p (fun k => { k with move := due.getD p none }) s) s
  let s := portMovesDue s
  (List.range 6).foldl (fun s p =>
    let f := found.getD p none
    if (due.getD p none).isSome ∨ f.isNone then s else setPort p (fun k => { k with move := f }) s) s

/-- Ports that left SERVICE no longer count in a frame being received (05 R119). -/
def leftPorts (was : List Nat) (s : State) : State :=
  was.foldl (fun s p => if inService s p then s
    else (List.range 6).foldl (fun s g => setRx g (fun x =>
      if x.ph = .idle then x else { x with left := x.left ||| BitVec.ofNat 6 (2 ^ p) }) s) s) s

/-- Nodes follow their groups (R80, R83, R267). -/
def regroup (newMode : Bool) (s : State) : State :=
  (liveNodes s).foldl (fun s n =>
    let g := servingGroup s n newMode
    if g = nGroup s n then s
    else
      let s := nSet n 10 1 (nNat s n 10 1 % 32 + 32 * g) s
      let s := setLk (fun l => { l with tx := l.tx.map (fun f => if f.node.toNat = n then { f with group := g } else f) }) s
      refreshNode n s) s

/-- One port of the governor (17 R470): c in 10 mW. -/
def governPort (c p : Nat) (s : State) : State :=
  let f := pf p
  let pw := objF s f 0x403 13 6
  let att := objF s f 0x218 31 29
  let duty := objF s f 0x218 28 24
  if c < pw then
    if att < 6 then setF f 0x218 31 29 (att + 1) s else if 4 < duty then setF f 0x218 28 24 (duty - 1) s else s
  else if 5 * pw < 4 * c then
    if duty < 16 then setF f 0x218 28 24 (duty + 1) s else if 0 < att then setF f 0x218 31 29 (att - 1) s else s
  else s

/-- The device is HOT (17 R471). -/
def isHot (s : State) : Bool := objF s 0 0x211 20 20 == 1

/-- The hottest reading in 0.1 °C. -/
def hottest (s : State) : Int := s.pw.temps.toList.foldl max (s.pw.temps.toList.headD 0)

/-- TJ_HOT in 0.1 °C (17 R471). -/
def tjHot (s : State) : Int := 10 * (min 105 (max 85 (objF s 0 0x210 25 19)) : Nat)

/-- HOT as the readings and TJ_HOT now have it (17 R471): between the two thresholds it stays as it was. -/
def hotNow (s : State) : Bool :=
  if tjHot s ≤ hottest s then true else if hottest s < tjHot s - 50 then false else isHot s

/-- Ports that the governor reduces. -/
def reducedPorts (s : State) : List Nat :=
  (List.range 6).filter (fun p => decide (0 < objF s (pf p) 0x218 31 29) || decide (objF s (pf p) 0x218 28 24 < 16))

/-- THERMAL_THROTTLE and THERMAL_NORMAL (17 R473). -/
def throttleEvents (why port : Nat) (s : State) : State :=
  let s := setF 0 0x211 19 14 (portMask (reducedPorts s)) s
  let red := !(reducedPorts s).isEmpty || isHot s
  let t := be16s (hottest s)
  if red ∧ !s.pw.throttled then
    raise 76 0 .thermalThrottle (beBytes 1 why ++ beBytes 1 port ++ t) { s with pw := { s.pw with throttled := true } }
  else if !red ∧ s.pw.throttled then raise 76 0 .thermalNormal t { s with pw := { s.pw with throttled := false } }
  else s

/-- The governor at a superframe start (17 R470): the values it held come into force for bursts, then it adjusts them. -/
def govern (s : State) : State :=
  let att := (Vector.replicate 6 0).mapIdx (fun p (_ : Nat) => objF s (pf p) 0x218 31 29)
  let s := { s with pw := { s.pw with attNow := att } }
  -- a TJ_HOT that has just come into force
  let s := setF 0 0x211 20 20 (b2n (hotNow s)) s
  let s := if isHot s then throttleEvents 1 0xFF s else s
  let cap := min 55 (max 20 (objF s 0 0x210 31 26))
  let c := if isHot s then min cap 40 else cap
  let s := (List.range 6).foldl (fun s p => governPort c p s) s
  throttleEvents 0 ((reducedPorts s).headD 0) s

/-- Length of the run of suppressed beacons after superframe k (R237). -/
def runAfter (l : List OpenSt) (k : Nat) : Nat :=
  ((List.range 15).foldl (fun (a : Nat × Bool) i =>
    if a.2 && suppressed l (k + 1 + i) then (a.1 + 1, true) else (a.1, false)) (0, true)).1

/-- The beacon of a group (R234, R237): none in a superframe whose slot 0 lies inside a narrowband uplink opening. -/
def sendBeacon (g : Nat) (s : State) : State :=
  let l := grpL s g
  let opens := s.lk.opens.filter (fun o => o.group == g)
  let cyc := s.clk.sfCycle.toNat
  if !groupExists s g ∨ (bbPorts s g).isEmpty ∨ groupBlocked s g then s
  else if suppressed opens (sfNow s) then setGrpL g (fun l => { l with rep := l.rep - 1 }) s
  else
    let incl := !l.maskSaid || cyc % 32 == 0
    let rep := runAfter opens (sfNow s)
    -- no join descriptor goes out once JOIN_OPEN is clear (R250)
    let body := beaconBody s g cyc false rep 0 incl (l.cur.filter (fun a => a.kind != 3 || joinOpen s))
    match sealBeacon 7 body s with
    | (s, none) => s
    | (s, some f) =>
      let low := lowBand s g
      let gi := min 2 (objF s 0 0x700 10 9)
      let fit := fitBb 0 (8 * f.length + 32) (fun x => x * symCap s low 1 0 none)
      if poolBits s g < poolUsed s g + fit.len then s else
      let word := fcBits 4095 (netId s) 0 gi 1 0 0 0 fit.nsym f.length 0 false
      let b : TxBurst := ⟨g, false, 4095, 0, word, codedStream fit 0 96 fit.n (frameBits f), fit.nsym, gi, 1, 0, [0], 0, false, fit.len,
        portMask (portsOf s g), 0, sfNow s, 0, 1, []⟩
      let s := setGrpL g (fun l => { l with rep := rep, beacon := some body, maskSaid := true }) s
      sendBb b false none (addPrec (60 * fit.n + 15) s)

/-- Fabric clocks, at 781.25 MHz, in a count of ticks (06 R178). -/
def fabricClocks (ticks : Nat) : Nat := ticks * 125 / 64

/-- Figures of the superframe just ended (03 R71, 06 R178, 09 TR_BW). -/
def takeFigures (fig : SfFigures) (s : State) : State :=
  let s := (List.range 6).foldl (fun s p => setF (pf p) 0x403 13 6 (min 255 (fig.drvPwr.toList.getD p 0)) s) s
  let s := (List.range 6).foldl (fun s k => setF 0 (0xF10 + k) 31 20 (min 4095 (fig.bwUse.toList.getD k 0)) s) s
  let clocks := fabricClocks (now s - s.clk.sfTb.toNat)
  setDec (fun d => { d with clocksPrev := clocks, precPrev := d.precNow, precNow := 0, cwPrev := d.cwNow, cwNow := 0 }) s

/-- The pending writes of the boundary take effect (14 R408, 08 R228, 02 R519). -/
def superAdopt (s : State) : State :=
  let old := getObj s 0x78 0xE05
  let before := maskBytes s
  let s := adoptBound .sf (setBb (fun b => { b with mask := b.maskNext.getD b.mask, maskNext := none }) s)
  let s := lateDue s
  let new := getObj s 0x78 0xE05
  let s := altReturn (takeAlt (nominalHeld (channelChange old new (sourceChange old new s))))
  if maskBytes s = before then s
  else (List.range 6).foldl (fun s g => setGrpL g (fun l => { l with maskSaid := false }) s) s

/-- The superframe's own fields, and the schedule that comes into force. -/
def superBegin (s : State) : State :=
  let t := s.clk.tb
  let s := setClk (fun c => { c with
    slot := 0, slotTb := t, sfTb := t, sfCycle := c.cycle, sfCount := c.sfCount + 1
    edgeMiss := if srcChain s && !isMaster s then c.edgeMiss + 1 else c.edgeMiss
    aheadFor := c.aheadFor.map (· + 1) }) s
  let s := (List.range 6).foldl (fun s g => setGrpL g (fun l => { l with cur := l.next, nbDue := l.nbDue - 1 }) s) s
  (List.range 6).foldl (fun s p => setPort p (fun k => { k with lqis := [], clamps := 0 }) s) s

/-- The links of every node age (03 R81). -/
def agePorts (s : State) : State := (liveNodes s).foldl (fun s n => nSet n 11 1 (usableMask s n) s) s

/-- The sync master pulls CHAIN_SYNC low for 1 µs (02 R53). -/
def masterPulse (s : State) : State :=
  if isMaster s then
    let t := s.clk.tb
    emit .syncPulse (setClk (fun c => { c with edgeTb := t, annDue := true, driving := true }) s)
  else s

/-- ROUTE_FULL for the superframe that ended (R268). -/
def routeFull (s : State) : State :=
  let n := s.lk.refused
  if n = 0 then s else raise 75 0 .routeFull (beBytes 1 (min 0xFF n)) (setLk (fun l => { l with refused := 0 }) s)

/-- A superframe opens: what falls due at its start, in order (02 R43 to R45, 08 R228). -/
def superframeOpens (fig : SfFigures) (s : State) : State :=
  let s := silentGrants (driversDue s)
  let e := evalPorts s
  let s := furrowReport (takeFigures fig e.1)
  let mode := grpMode s
  let s := superAdopt s
  let was := (List.range 6).filter (fun p => inService s p)
  let s := (List.range 6).foldl (fun s p => recoveryStep p s) s
  let s := leftPorts was (makeMoves e.2 s)
  let s := superBegin (agePorts s)
  let s := regroup (decide (mode ≠ grpMode s)) s
  let s := (List.range 6).foldl (fun s p => setF (pf p) 0x403 23 21 (groupOf s p) s) s
  let s := govern s
  let s := routeFull (recomputeCap s)
  let s := opensEnd (setLk (fun l => { l with cacheSaid := false }) s)
  let s := masterPulse (testsBegin s)
  let s := (List.range 6).foldl (fun s g => sendBeacon g s) s
  (List.range 6).foldl (fun s g => rearm g s) s

/-- A superframe begins (02 R52): slot 0 of the even cycle in progress. -/
def execSuperframeStart (fig : SfFigures) (s : State) : Host.Outcome State Fault Refusal :=
  .next (if s.phase ≠ .running ∨ s.clk.c.isNone ∨ !s.clk.lockSeen ∨ s.clk.cycle.toNat % 2 = 1
      ∨ (s.clk.sfCount ≠ 0 ∧ s.clk.sfCycle = s.clk.cycle) then s
    else superframeOpens fig s)

end Sys2Proof.Machine
end

