-- ==== Sys2Proof/Machine/Cloche.lean ====
section
/-!
DEFINITION. The Cloche (11): jobs and their scheduling, engines, random sources, key-encryption keys and the commands of
the chapter.
-/
namespace Sys2Proof.Machine

/-- Replace a core's record. -/
def coreOf (s : State) (n : Nat) : CoreSt := vAt s.core n
def setCore (n : Nat) (f : CoreSt → CoreSt) (s : State) : State := { s with core := vSet s.core n (f (vAt s.core n)) }

/-- First Trellis address of a core's window and its size (16 R442). -/
def winBase (s : State) (n : Nat) : Nat := partBase s 7 + 65536 * objF s (0x70 + n) 0xC01 31 27
def winSize (s : State) (n : Nat) : Nat := 65536 * min 20 (max 1 (objF s (0x70 + n) 0xC01 26 22))

/-- A range of Trellis addresses lies inside a core's window and partition 7 (R319, 16 R450). -/
def inWindow (s : State) (n a len : Nat) : Bool :=
  decide (winBase s n ≤ a) && decide (a + len ≤ winBase s n + winSize s n) && decide (a + len ≤ trSize)

-- Jobs.

/-- The fields of a job descriptor (R319). -/
structure JobSpec where
  op : Nat
  cut : Bool
  slot : Nat
  adLen : Nat
  dataLen : Nat
  tagLen : Nat
  nonce : Bytes
deriving DecidableEq, Repr

def specOf (d : Bytes) : JobSpec :=
  ⟨byteAt d 0, nbit (byteAt d 1) 0, beAt d 2 2 % 4096, beAt d 16 2, beAt d 18 2, byteAt d 20, slice d 24 13⟩

/-- OP is one of the six. -/
def JobSpec.opOk (j : JobSpec) : Bool := decide (1 ≤ j.op ∧ j.op ≤ 6)
/-- The mode: 1 CCM, 2 GCM, 3 CMAC; a seal or generate; a tag follows the input. -/
def JobSpec.mode (j : JobSpec) : Nat := (j.op + 1) / 2
def JobSpec.seals (j : JobSpec) : Bool := j.op % 2 == 1
/-- Length of the output of a job without its tag. -/
def JobSpec.outLen (j : JobSpec) : Nat := if j.mode = 3 then 0 else j.dataLen

/-- The limits of R317. -/
def JobSpec.lensOk (j : JobSpec) : Bool :=
  if j.mode = 1 then decide (j.adLen ≤ 65279) && (j.tagLen == 4 || j.tagLen == 8 || j.tagLen == 16)
  else if j.mode = 2 then j.tagLen == 12 || j.tagLen == 16
  else j.adLen == 0 && decide (4 ≤ j.tagLen ∧ j.tagLen ≤ 16)

/-- The GCM invocation counter of a slot is reserved (R322). -/
def reserveGcm (n : Nat) (s : State) : State × Option Nat :=
  let c := beAt (keyCtr s n) 0 8
  if nbit (kFlags s n) 1 ∨ 2 ^ 64 - 1 ≤ c then (setKFlag n 1 true s, none)
  else (countUse n false (setKeyCtr n (beBytes 8 (c + 1) ++ [0, 0]) s), some c)

/-- A job samples its key and, for a seal, reserves its counter (R318, R319, R322): its key and nonce, or the status of
its refusal. `who` is the ALLOW bit of the requester. -/
def sampleJob (j : JobSpec) (who : Nat) (s : State) : State × (W16 ⊕ (Bytes × Bytes)) :=
  let n := j.slot
  if kClass s n = 0 then (s, .inl stNoResource)
  else if kClass s n ≠ 3 ∨ !nbit (kAllow s n) who ∨ kMode s n ≠ j.mode then (s, .inl stNotInState)
  else
    let key := keyBytes s n
    if j.mode = 3 then (s, .inr (key, []))
    else if !j.seals then (s, .inr (key, if j.mode = 1 then j.nonce else slice j.nonce 0 12))
    else if j.mode = 1 then
      match reserveCtr n s with
      | (s, none) => (s, .inl stKeyExhausted)
      | (s, some c) => (s, .inr (key, linkNonce Config.eui.toNat c))
    else
      match reserveGcm n s with
      | (s, none) => (s, .inl stKeyExhausted)
      | (s, some c) => (s, .inr (key, kFixed s n ++ beBytes 8 c))

/-- What a job computes (R317): whether its tag holds, its output and its tag. -/
def runJob (j : JobSpec) (key nonce ad data tag : Bytes) : Bool × Bytes × Bytes :=
  match j.op with
  | 1 => let r := ccmSeal key nonce ad data j.tagLen; (true, r.1, r.2)
  | 2 => let r := ccmOpen key nonce ad data tag; (r.2, r.1, [])
  | 3 => let r := gcmSeal key nonce ad data j.tagLen; (true, r.1, r.2)
  | 4 => let r := gcmOpen key nonce ad data tag; (r.2, r.1, [])
  | 5 => (true, [], slice (cmac key data) 0 j.tagLen)
  | _ => (slice (cmac key data) 0 j.tagLen == tag, [], [])

/-- The outcome of a host job (R327): status and reply. -/
def hostOutcome (j : JobSpec) (p key nonce : Bytes) (s : State) : State × W16 × Bytes :=
  let data := slice p (40 + j.adLen) j.dataLen
  let r := runJob j key nonce (slice p 40 j.adLen) data (slice p (40 + j.adLen + j.dataLen) j.tagLen)
  if !r.1 then (authFail s, stAuthFail, [])
  else
    let s := if j.seals ∨ j.mode = 3 then s else countUse j.slot true s
    (s, stDone, if j.mode = 3 then r.2.2 else if j.seals then slice nonce 0 13 ++ [0, 0, 0] ++ r.2.1 ++ r.2.2 else r.2.1)

/-- A core job has ended: STATUS is written, then CJ_DONE is set (16 R450). -/
def coreDone (n a : Nat) (st : W16) (s : State) : State :=
  let s := memSetNat (a + 44) 2 st.toNat s
  if (coreOf s n).cj.contains a then setCore n (fun c => { c with cj := c.cj.erase a, cjDone := true }) s else s

/-- What a core job computes from the descriptor and the key it sampled (R319) and the Trellis. -/
def coreRun (r : EngRun) (s : State) : Bool × Bytes × Bytes :=
  let j := specOf r.desc
  let ia := beAt r.desc 8 4
  runJob j r.key r.nonce (memRead s (beAt r.desc 4 4) j.adLen) (memRead s ia j.dataLen) (memRead s (ia + j.dataLen) j.tagLen)

/-- The core job of a descriptor at address a runs to its end (R328): output, tag and NONCE, PROGRESS, STATUS. -/
def coreOutcome (n a : Nat) (run : EngRun) (s : State) : State :=
  let j := specOf run.desc
  let oa := beAt run.desc 12 4
  let nonce := run.nonce
  let r := coreRun run s
  if !r.1 then
    let s := authFail (memWrite oa (List.replicate j.outLen 0) s)
    coreDone n a stAuthFail (if j.cut then memSetNat (a + 40) 4 0xFFFFFFFF s else s)
  else
    let s := if j.seals ∨ j.mode = 3 then s else countUse j.slot true s
    let s := memWrite oa (r.2.1 ++ (if j.seals then r.2.2 else [])) s
    let s := if j.seals ∧ j.mode ≠ 3 then memWrite (a + 24) (slice nonce 0 13) s else s
    coreDone n a stDone (memSetNat (a + 40) 4 j.dataLen s)

/-- What refuses a core job before any further access (R319, 16 R450). -/
def coreRefused (s : State) (n a : Nat) : Option W16 :=
  let j := specOf (memRead s a 48)
  let tagIn := if j.seals then 0 else j.tagLen
  let tagOut := if j.seals then j.tagLen else 0
  if !j.opOk then some stBadOpcode
  else if !j.lensOk || !inWindow s n (memNat s (a + 4) 4) j.adLen || !inWindow s n (memNat s (a + 8) 4) (j.dataLen + tagIn)
      || !inWindow s n (memNat s (a + 12) 4) (j.outLen + tagOut) then some stBadLength
  else none

/-- The key slot of a downlink frame (08 R231). -/
def txKey (s : State) (f : TxFrame) : Option Nat :=
  match f.key with
  | some k => some k
  | none => if f.node = 4095 then netSlot s else some (nKey s f.node.toNat)

/-- A downlink frame is sealed with what its job sampled (08 R231, R253, R262). -/
def sealTx (id : Nat) (key nonce : Bytes) (s : State) : State :=
  match s.lk.tx.find? (fun f => f.id == id && decide (f.st = .sealing)) with
  | none => s
  | some f =>
    let n := f.node.toNat
    let all := n == 4095
    let mq := !all && nMapreq s n
    let hdr := linkHeader f.ty (!f.ack.isEmpty) mq 0 n (f.seq.getD 0) (if all then 1 else nHops s n) (beAt nonce 8 5)
    let r := ccmSeal key nonce (linkAd hdr f.ack) f.body 8
    let s := if mq then nSetMapreq n false s else s
    setTx id (fun t => { t with st := .ready, bytes := hdr ++ f.ack ++ r.1 ++ r.2 }) s

/-- A frame that cannot be sealed: one with a number waits, another is gone (R321, 08 R268). -/
def unsealable (id : Nat) (s : State) : State :=
  match s.lk.tx.find? (fun f => f.id == id) with
  | none => s
  | some f => if f.seq.isSome then requeueTx id s else dropTx f s

/-- Requesters of the round robin (R318): the host, and the cores together. -/
def jobWho : CJob → Nat
  | .core _ _ => 1
  | _ => 0

/-- The next job (R318): link frames in order, then host and cores in turn. -/
def pickJob (s : State) : Option CJob :=
  (nextLink s).orElse (fun _ =>
    (List.range 2).findSome? (fun i => s.clo.jobs.find? (fun j => jobWho j == (s.clo.lastReq + 1 + i) % 2)))

/-- The Cloche runs: READY, powered, the DRBG not stopped (R306, R312). -/
def clocheUp (s : State) : Bool := objF s 0x50 0x800 31 31 == 1 && !drbgDead s && !funcDown s 0x50

/-- A free engine takes the next job (R307, R318, R319). A refused job ends at once. An open and a join trial are jobs too: they
have commands of their own, and no job passes them. -/
def execClocheJobAssign (e : Fin 16) (s : State) : Host.Outcome State Fault Refusal :=
  .next (if !clocheUp s || !engFree s e.val then s
    else match s.clo.redo with
    | r :: rest => engTake e.val { r with start := now s } (setClo (fun c => { c with redo := rest }) s)
    | [] => match pickJob s with
      | none => s
      | some j =>
        let at_ := s
        let s := setClo (fun c => { c with lastReq := if isLinkJob j then c.lastReq else jobWho j }) (takeJob j s)
        match j with
        | .up => at_
        | .trial => at_
        | .link id =>
          (match (s.lk.tx.find? (fun f => f.id == id)).bind (txKey s) with
          | none => unsealable id s
          | some k =>
            if kClass s k ≠ 1 ∧ kClass s k ≠ 2 then unsealable id s
            else
              let key := keyBytes s k
              match reserveCtr k s with
              | (s, none) => unsealable id s
              | (s, some fc) => engLoad e.val j key (linkNonce Config.eui.toNat fc) [] s)
        | .host r =>
          (match sampleJob (specOf r.params) 1 s with
          | (s, .inl st) => sendReply 0x801 r st (beBytes 4 noField) s
          | (s, .inr (key, nonce)) => engLoad e.val j key nonce [] s)
        | .core n a =>
          (match coreRefused s n a with
          | some st => coreDone n a st s
          | none => match sampleJob (specOf (memRead s a 48)) 2 s with
            | (s, .inl st) => coreDone n a st s
            -- PROGRESS counts from zero (R328), STATUS says that the job runs
            | (s, .inr (key, nonce)) =>
              engLoad e.val j key nonce (memRead s a 48) (memSetNat (a + 44) 2 0xFFFF (memSetNat (a + 40) 4 0 s))))

/-- A job completes on its engine (R326 to R328). -/
def execClocheJobComplete (e : Fin 16) (s : State) : Host.Outcome State Fault Refusal :=
  .next (if !clocheUp s then s
    else match vAt s.clo.eng e.val with
    | none => s
    | some r =>
      let at_ := s
      let s := bumpF (0x40 + e.val) 0x808 23 0 1 (engRest e.val s)
      match r.job with
      -- a trial has its own end, and an open none of its own
      | .up => at_
      | .trial => at_
      | .link id => sealTx id r.key r.nonce s
      | .core n a => coreOutcome n a r s
      | .host q =>
        let o := hostOutcome (specOf q.params) q.params r.key r.nonce s
        sendReply 0x801 q o.2.1 (if o.2.1 = stDone then o.2.2 else beBytes 4 noField) o.1)

/-- Bytes of output that a cut-through job has written after some ticks on its engine (R305, R306, R328): whole steps of 256,
or all of them. The blocks follow two of overhead at the engine's rate. DESIGN CHOICE (log 169): no wait of the engine counts. -/
def cutBytes (j : JobSpec) (long : Bool) (ticks : Nat) : Nat :=
  let blocks := fabricClocks ticks / (if long then 224 else 160) - 2
  let bytes := 16 * blocks / (if j.mode = 1 then 2 else 1)
  if j.dataLen ≤ bytes then j.dataLen else bytes / 256 * 256

/-- A core job with CUT hands on what it has written (R328), and PROGRESS passes what an engine before it had reached (R329). -/
def cutStep (e : Nat) (s : State) : State :=
  match vAt s.clo.eng e with
  | none => s
  | some r =>
    match r.job with
    | .core _ a =>
      let j := specOf r.desc
      let n := cutBytes j (r.share.length == 32) (now s - r.start)
      if !j.cut ∨ j.mode = 3 ∨ n ≤ memNat s (a + 40) 4 then s
      else memSetNat (a + 40) 4 n (memWrite (beAt r.desc 12 4) ((coreRun r s).2.1.take n) s)
    | _ => s

/-- The cut-through jobs under way while no command comes; none moves while the Cloche is held. -/
def cutSteps (s : State) : State := if clocheUp s then (List.range 16).foldl (fun s e => cutStep e s) s else s

-- Engines.

/-- ENGINES of CLOCHE_STATUS. -/
def countEngines (s : State) : State :=
  setF 0x50 0x800 25 21 ((List.range 16).filter (fun e => engState s e != 4)).length s

/-- An engine retires (R307): its job goes, with what it sampled, to the next free engine. -/
def retireEngine (e err : Nat) (s : State) : State :=
  let run := vAt s.clo.eng e
  let s := setF (0x40 + e) 0x808 31 28 4 (setF (0x40 + e) 0x808 27 24 err s)
  let s := setClo (fun c => { c with
    eng := vSet c.eng e none, redo := c.redo ++ (match run with | some r => [r] | none => []) }) s
  raise (26 + e) (0x40 + e) .faultEngine (beBytes 1 (0x40 + e) ++ beBytes 1 err) (countEngines s)

/-- A share-parity error, or a failed known-answer test, of an engine (R307). -/
def execEngineFault (e : Fin 16) (kat : Bool) (s : State) : Host.Outcome State Fault Refusal :=
  .next (if engState s e.val = 4 ∨ funcDown s (0x40 + e.val) then s else retireEngine e.val (if kat then 2 else 1) s)

/-- The known-answer test that an idle engine runs (R307). -/
def execEngineIdleKat (e : Fin 16) (pass : Bool) (s : State) : Host.Outcome State Fault Refusal :=
  .next (if pass || !engFree s e.val then s else retireEngine e.val 2 s)

/-- Bits of CLOCHE_STATUS that show a source; write them. -/
def trngSt (s : State) (k : Nat) : Nat := if k = 0 then objF s 0x50 0x800 30 29 else objF s 0x50 0x800 28 27
def setTrng (k v : Nat) (s : State) : State := if k = 0 then setF 0x50 0x800 30 29 v s else setF 0x50 0x800 28 27 v s

/-- The source has failed within the last second (11 R309). -/
def trngAgain (s : State) (k : Nat) : Bool :=
  match vAt s.clo.trngAt k with | some u => decide (now s < u.toNat + 400000000) | none => false

/-- A source has failed a test (R309): 0 repetition count, 1 adaptive proportion, 2 start-up. It restarts, or is disabled where
it has failed within the last second. -/
def trngFails (src test : Nat) (s : State) : State :=
  if trngSt s src = 2 ∨ funcDown s 0x50 then s
  else
    let t := s.clk.tb
    let again := trngAgain s src
    let s := setClo (fun c => { c with trngAt := vSet c.trngAt src (some t) }) s
    raise 42 0x50 .trngFail (beBytes 1 src ++ beBytes 1 test) (setTrng src (if again then 2 else 1) s)

/-- Raw bits of a source fail a health test (R308, R309): a second failure within 1 s disables it. The bits begin at a
window of the adaptive proportion test; before CLOCHE_READY they are those of the start-up test. -/
def execTrngFail (src : Fin 2) (bits : List Bool) (s : State) : Host.Outcome State Fault Refusal :=
  .next (match healthTest bits with
    | none => s
    | some test => trngFails src.val (if objF s 0x50 0x800 31 31 = 1 then test else 2) s)

/-- The 768 raw bits that a source has delivered are all its own since its last failure, whose pending bits were discarded
(R309): at 2 Mbit/s they take 0.384 ms (R310). -/
def rawFresh (src : Nat) (s : State) : Bool :=
  match vAt s.clo.trngAt src with | some t => decide (t.toNat + us 384 ≤ now s) | none => true

/-- A source completes a reseed of the DRBG with 768 raw bits (R310, R311): it runs. Its bits pass the health tests on the way, or
the source fails (R308). -/
def execDrbgReseed (src : Fin 2) (raw : Bytes) (s : State) : Host.Outcome State Fault Refusal :=
  .next (if trngSt s src.val = 2 ∨ drbgDead s ∨ funcDown s 0x50 ∨ raw.length ≠ 96 ∨ !rawFresh src.val s then s
    else match healthTest (bitsOfBytes raw) with
      | some test => trngFails src.val test s
      | none => setTrng src.val 0 (setDrbg (drbgUpdate (drbgSeed raw) (drbgOf s)) 0 s))

/-- The engines' requests have brought the count since the last reseed to 2^22 (R311). -/
def execDrbgHalt (requests : Nat) (s : State) : Host.Outcome State Fault Refusal :=
  .next (drbgSpent (setClo (fun c => { c with drbgReq := c.drbgReq + requests }) s))

/-- The start-up test of a source at step 4 of a whole-device reset, over its 1024 samples (R308, R312): one that fails is
disabled (17 R520). -/
def startTest (src : Nat) (bits : List Bool) (s : State) : State :=
  if (healthTest bits).isSome then raise 42 0x50 .trngFail (beBytes 1 src ++ [2]) (setTrng src 2 s) else s

/-- The Cloche starts (R310, R312, R314): the DRBG is instantiated from 768 raw bits of a source that serves, and at a power-up the
store mask is drawn. False where the bits fail a health test, or no source delivers them. -/
def clocheStarts (src : Nat) (raw : Bytes) (s : State) : State × Bool :=
  if trngSt s src = 2 ∨ raw.length ≠ 96 ∨ !rawFresh src s then (s, false)
  else match healthTest (bitsOfBytes raw) with
    | some test => (trngFails src test s, false)
    | none =>
      let s := setTrng src 0 (setDrbg (drbgUpdate (drbgSeed raw) (0, 0)) 0 s)
      (if s.clo.drawMask then drawMask s else s, true)

/-- A job in progress is aborted with NO_RESOURCE (R333). -/
def abortRun (r : EngRun) (s : State) : State :=
  match r.job with
  | .link id => unsealable id s
  | .up => s
  | .trial => setLk (fun l => { l with trial := none }) s
  | .host q => sendReply 0x801 q stNoResource (beBytes 4 noField) s
  | .core n a => coreDone n a stNoResource s

/-- Every job in progress is aborted. -/
def abortRuns (s : State) : State :=
  let l := s.clo.redo ++ s.clo.eng.toList.filterMap id
  let s := l.foldl (fun s r => abortRun r s) (setClo (fun c => { c with redo := [] }) s)
  (List.range 16).foldl (fun s e => if (vAt s.clo.eng e).isSome then engRest e s else s) s

/-- The key-store wipe (R333). -/
def wipeKeys (s : State) : State :=
  let s := abortRuns s
  let s := setClo (fun c => { c with keys := [], ctrs := [], seals := [], opens := [], drawMask := true }) s
  -- a request that waited behind the trial is tried against the empty store
  let s := match s.lk.joins with
    | d :: rest => if s.lk.trial.isNone then startTrial d (setLk (fun l => { l with joins := rest }) s) else s
    | [] => s
  -- before CLOCHE_READY the DRBG has no seed; S is drawn then (R312)
  slotsUsed (if objF s 0x50 0x800 31 31 = 1 then drawMask s else s)

-- The key-encryption key.

/-- A generation can be used (R316). -/
def kekOk (s : State) (g : Nat) : Bool :=
  decide (1 ≤ g ∧ g ≤ s.fuse.kekGen) && !s.fuse.revoked.contains g && !s.fuse.svcGens.contains g

/-- The KEK of a generation. -/
def kekKey (s : State) (g : Nat) : Bytes := (s.fuse.kek.find? (fun e => e.1 == g)).elim [] (·.2)

/-- KEK_GEN and KEK_USABLE of CLOCHE_STATUS. -/
def kekStatus (s : State) : State :=
  setF 0x50 0x800 20 17 s.fuse.kekGen (setF 0x50 0x800 16 16 (b2n (kekOk s s.fuse.kekGen)) s)

/-- Key commands are accepted in FACTORY, PROVISIONED and FIELD (R316). -/
def keyLife (s : State) : Bool := decide (lifeCycle s ≤ 2)

-- Commands.

/-- CRYPT (R318, R327): at once where an engine is free and no job waits before it; else when its job is served. -/
def execCrypt (r : Req) (s : State) : Host.Outcome State Fault Refusal :=
  let j := specOf r.params
  let tagIn := if j.seals then 0 else j.tagLen
  .next (execReq 0x801 r (r.func == 0) (if r.params.length < 40 then some noField else none) (funcDown s 0x50)
    (fun s =>
      if !j.opOk then refuse stBadOpcode 0 s
      else if !j.lensOk ∨ r.params.length ≠ 40 + j.adLen + j.dataLen + tagIn then refuse stBadLength noField s
      else match (if clocheUp s ∧ s.clo.jobs.isEmpty ∧ s.clo.redo.isEmpty then freeEngine s else none) with
        | none => .hold (setClo (fun c => { c with jobs := c.jobs ++ [.host r] }) s)
        | some e => match sampleJob j 1 s with
          | (s, .inl st) => refuse st noField s
          | (s, .inr (key, nonce)) =>
            let s := (splitKey key (setClo (fun c => { c with lastReq := 0 }) s)).2
            let o := hostOutcome j r.params key nonce (bumpF (0x40 + e) 0x808 23 0 1 s)
            .reply o.2.1 (if o.2.1 = stDone then o.2.2 else beBytes 4 noField) o.1) s)

/-- Before CLOCHE_READY a command that needs an engine, the store mask or the DRBG waits (R312). -/
def whenReady (op : Nat) (r : Req) (body : State → Ans) (s : State) : Ans :=
  if objF s 0x50 0x800 31 31 = 0 then .hold (setClo (fun c => { c with waiting := c.waiting ++ [(op, r)] }) s) else body s

/-- What RNG_READ answers (R310): random bytes. -/
def rngAns (r : Req) (s : State) : Ans :=
  if drbgDead s then refuse stNoResource noField s
  else
    let d := drawBytes (nfield (beAt r.params 0 4) 31 21) s
    .reply stDone d.1 d.2

/-- RNG_READ (R310). -/
def execRngRead (r : Req) (s : State) : Host.Outcome State Fault Refusal :=
  let n := nfield (beAt r.params 0 4) 31 21
  .next (execReq 0x802 r (r.func == 0) (lenAnd r 4 (chk (decide (1 ≤ n)) 0)) (funcDown s 0x50) (whenReady 0x802 r (rngAns r)) s)

/-- KEK_LOAD (R316). -/
def execKekLoad (r : Req) (s : State) : Host.Outcome State Fault Refusal :=
  .next (execReq 0x803 r (r.func == 0) (lenIs r 32) (funcDown s 0x50)
    (fun s =>
      let lc := lifeCycle s
      let g := s.fuse.kekGen + 1
      if lc ≠ 0 ∧ lc ≠ 3 then refuse stNotInState noField s
      else if 15 < g then refuse stNoResource noField s
      else
        let s := { s with fuse := { s.fuse with
          kekGen := g, kek := s.fuse.kek ++ [(g, r.params)], svcGens := s.fuse.svcGens ++ (if lc = 3 then [g] else []) } }
        .reply stDone (beBytes 1 g ++ [0, 0, 0]) (kekStatus s)) s)

/-- The slot of a key command. -/
def reqSlot (r : Req) : Nat := nfield (beAt r.params 0 4) 31 20

/-- A record fits its slot (R315, R330): class, mode, size, the second slot of an AES-256 key, one slot for an EUI. -/
def keyFits (s : State) (n eui cls mode : Nat) (big : Bool) : Bool :=
  kClass s n != 4 && decide (1 ≤ cls ∧ cls ≤ 3) && (cls != 3 || decide (1 ≤ mode ∧ mode ≤ 3)) && (cls == 3 || !big)
    && (!big || (n % 2 == 0 && (kClass s (n + 1) == 0 || kClass s (n + 1) == 4)))
    && (cls != 1 || (usedSlots s).all (fun k => k == n || kClass s k != 1 || kEui s k != eui))

/-- Store a key (R313, R315): the binding of the slot stays. -/
def storeKey (n eui cls mode allow : Nat) (fixed key : Bytes) (big : Bool) (flags : Nat) (ctr : Bytes) (s : State) : State :=
  let x := fun (k : Bytes) => beBytes 16 (beAt k 0 16 ^^^ s.clo.mask.toNat)
  let bound := b2n (nbit (kFlags s n) 3)
  let wide := nbit (kFlags s n) 4
  let e := if cls = 1 then eui else if cls = 2 then Config.eui.toNat else 0
  let slot := x (slice key 0 16) ++ beBytes 8 e ++ beBytes 1 cls ++ beBytes 1 (if cls = 3 then mode else 0)
    ++ beBytes 1 (if cls = 3 then allow % 8 else 1) ++ beBytes 1 (flags % 8 + 8 * bound + 16 * b2n big)
    ++ (if cls = 3 ∧ mode = 2 then fixed else [0, 0, 0, 0])
  let s := setKeyCtr n ctr (setKeySlot n slot s)
  let s := if big then setKeyCtr (n + 1) ctr0 (setKeySlot (n + 1) (x (slice key 16 16) ++ List.replicate 8 0 ++ [4]
      ++ List.replicate 7 0) s)
    else if wide then setKeyCtr (n + 1) ctr0 (setKeySlot (n + 1) slot0 s) else s
  slotsUsed s

/-- The counters of a fresh key (R320, R322). -/
def freshCtr (cls mode : Nat) : Bytes :=
  if cls ≤ 2 ∨ mode = 1 then beBytes 5 1 ++ List.replicate 5 0
  else if mode = 2 then beBytes 8 1 ++ [0, 0] else ctr0

/-- What KEY_UNWRAP answers (R330). -/
def unwrapAns (r : Req) (s : State) : Ans :=
  let n := reqSlot r
  let g := s.fuse.kekGen
  if !keyLife s || !kekOk s g || kClass s n == 4 then refuse stNotInState noField s
  else
    let u := kwUnwrap (kekKey s g) (slice r.params 4 56)
    if !u.2 then refuse stAuthFail noField s
    else
      let d := u.1
      let eui := beAt d 0 8
      let cls := byteAt d 8
      let mode := byteAt d 9
      let big := byteAt d 11 == 1
      if !keyFits s n eui cls mode big || decide (1 < byteAt d 11) then refuse stNotInState noField s
      else .reply stDone [] (resetUse n (storeKey n eui cls mode (byteAt d 10) (slice d 12 4) (slice d 16 32) big 0
        (freshCtr cls mode) s))

/-- KEY_UNWRAP (R330). -/
def execKeyUnwrap (r : Req) (s : State) : Host.Outcome State Fault Refusal :=
  .next (execReq 0x810 r (r.func == 0x50) (lenIs r 60) (funcDown s 0x50) (whenReady 0x810 r (unwrapAns r)) s)

/-- What KEY_SAVE answers (R325, R331). -/
def saveAns (r : Req) (s : State) : Ans :=
  let n := reqSlot r
  let g := s.fuse.kekGen
  if !keyLife s || !kekOk s g || kClass s n == 4 then refuse stNotInState noField s
  else if kClass s n = 0 then refuse stNoResource noField s
  else
    let s := resetUse n (setKFlag n 2 false s)
    let e := keySlot s n
    let d := slice e 16 12 ++ slice e 28 4 ++ keyCtr s n ++ List.replicate 6 0 ++ slice (keyBytes s n) 0 32
    .reply stDone (beBytes 1 g ++ [1] ++ beBytes 2 n ++ [0, 0, 0, 0] ++ kwWrap (kekKey s g) d) s

/-- KEY_SAVE (R325, R331). -/
def execKeySave (r : Req) (s : State) : Host.Outcome State Fault Refusal :=
  .next (execReq 0x811 r (r.func == 0x50) (lenIs r 4) (funcDown s 0x50) (whenReady 0x811 r (saveAns r)) s)

/-- The counters of a restored key (R325): FC_TX or the invocation counter skips 2^20; the flag says it is exhausted. -/
def restoredCtr (cls mode : Nat) (c : Bytes) : Bytes × Bool :=
  if cls ≤ 2 ∨ mode = 1 then
    let v := beAt c 0 5 + 2 ^ 20
    (beBytes 5 (min v (2 ^ 40 - 1)) ++ slice c 5 5, decide (2 ^ 40 - 1 ≤ v))
  else if mode = 2 then
    let v := beAt c 0 8 + 2 ^ 20
    (beBytes 8 (min v (2 ^ 64 - 1)) ++ [0, 0], decide (2 ^ 64 - 1 ≤ v))
  else (ctr0, false)

/-- What KEY_RESTORE answers (R325, R331): a generation that is revoked or unused is AUTH_FAIL. -/
def restoreAns (r : Req) (s : State) : Ans :=
  let b := r.params
  let g := byteAt b 0
  let n := beAt b 2 2 % 4096
  if !keyLife s then refuse stNotInState noField s
  else if !kekOk s g then refuse stAuthFail noField s
  else
    let u := kwUnwrap (kekKey s g) (slice b 8 72)
    if !u.2 then refuse stAuthFail noField s
    else
      let d := u.1
      let eui := beAt d 0 8
      let cls := byteAt d 8
      let mode := byteAt d 9
      let flags := byteAt d 11
      let big := nbit flags 4
      let c := restoredCtr cls mode (slice d 16 10)
      if !keyFits s n eui cls mode big then refuse stNotInState noField s
      else .reply stDone [] (storeKey n eui cls mode (byteAt d 10) (slice d 12 4) (slice d 32 32) big
        (if c.2 then flags ||| 2 else flags) c.1 s)

/-- KEY_RESTORE (R325, R331). -/
def execKeyRestore (r : Req) (s : State) : Host.Outcome State Fault Refusal :=
  .next (execReq 0x812 r (r.func == 0x50) (lenIs r 80) (funcDown s 0x50) (whenReady 0x812 r (restoreAns r)) s)

/-- A command that waited for CLOCHE_READY is served (R312). -/
def serveWaiting (e : Nat × Req) (s : State) : State :=
  match (if e.1 = 0x802 then rngAns e.2 s else if e.1 = 0x810 then unwrapAns e.2 s
    else if e.1 = 0x811 then saveAns e.2 s else restoreAns e.2 s) with
  | .reply st p t => sendReply e.1 e.2 st p t
  | .hold t => t
  | .defer _ t => t

/-- CLOCHE_READY is raised (R312), and the commands that waited for it are served in order. -/
def clocheReady (s : State) : State :=
  let l := s.clo.waiting
  let s := raise 42 0x50 .clocheReady [] (slotsUsed (setF 0x50 0x800 31 31 1 (setClo (fun c => { c with waiting := [] }) s)))
  l.foldl (fun s e => serveWaiting e s) s

/-- The Cloche's start-up completes (R310, R312, R314), with the raw bits of the source that seeds the DRBG. -/
def execClocheReady (src : Fin 2) (raw : Bytes) (s : State) : Host.Outcome State Fault Refusal :=
  .next (if objF s 0x50 0x800 31 31 = 1 ∨ funcDown s 0x50 ∨ s.phase ≠ .running then s
    else
      let r := clocheStarts src.val raw s
      if r.2 then clocheReady r.1 else r.1)

/-- KEY_ERASE (R332). -/
def execKeyErase (r : Req) (s : State) : Host.Outcome State Fault Refusal :=
  let n := reqSlot r
  .next (execReq 0x813 r (r.func == 0x50) (lenIs r 4) (funcDown s 0x50)
    (fun s =>
      if !keyLife s || kClass s n == 4 then refuse stNotInState noField s
      else
        let wide := nbit (kFlags s n) 4
        let s := setKeyCtr n ctr0 (setKeySlot n slot0 s)
        let s := if wide then setKeyCtr (n + 1) ctr0 (setKeySlot (n + 1) slot0 s) else s
        .reply stDone [] (slotsUsed (resetUse n s))) s)

/-- KEY_INFO: attributes and counters, never the key (R313). -/
def execKeyInfo (r : Req) (s : State) : Host.Outcome State Fault Refusal :=
  let n := reqSlot r
  .next (execReq 0x814 r (r.func == 0x50) (lenIs r 4) (funcDown s 0x50)
    (fun s =>
      if kClass s n = 4 then refuse stNotInState noField s
      else .reply stDone (slice (keySlot s n) 16 16 ++ slice (keyCtr s n) 0 8) s) s)

/-- The FUNC of a request names an engine. -/
def engFunc (r : Req) : Bool := decide (0x40 ≤ r.func.toNat ∧ r.func.toNat ≤ 0x4F)

/-- CE_TEST: deferred; it waits for the engine's job. -/
def execCeTest (r : Req) (s : State) : Host.Outcome State Fault Refusal :=
  let e := r.func.toNat - 0x40
  .next (execReq 0x820 r (engFunc r) (lenIs r 0) (funcDown s r.func.toNat)
    (fun s =>
      let st := engState s e
      deferIf r [st] s (fun s => if (vAt s.clo.eng e).isNone then setF (0x40 + e) 0x808 31 28 3 s else s)) s)

/-- CE_TEST ends (R307): a retired engine stays retired; one that fails retires. -/
def execCeTestDone (e : Fin 16) (failCase : Fin 8) (s : State) : Host.Outcome State Fault Refusal :=
  let f := 0x40 + e.val
  .next (match findDeferred 0x820 f s with
    | none => s
    | some d =>
      if (vAt s.clo.eng e.val).isSome then s
      else
        let retired := decide (d.aux.headD 1 = 4) || engState s e.val == 4
        let s := setF f 0x808 31 28 (if retired then 4 else 1) s
        let s := if failCase.val ≠ 0 ∧ !retired then retireEngine e.val (if failCase.val = 7 then 1 else 2) s else s
        finish d stDone (beBytes 1 (if failCase.val = 0 then 0 else 1) ++ beBytes 1 failCase.val ++ [0, 0]) s)

end Sys2Proof.Machine
end

