-- ==== Sys2Proof/Machine/Backhaul.lean ====
section
/-!
DEFINITION. The backhaul (12): Virer frames on eight lanes, alignment, Grafts and their members, Graft packets, defects,
performance monitoring, and the commands of the chapter.
-/
namespace Sys2Proof.Machine

/-- Replace the backhaul's record, a lane's, a Graft's. -/
def setBh (f : BhSt → BhSt) (s : State) : State := { s with bh := f s.bh }
def laneRec (s : State) (l : Nat) : BhLane := vAt s.bh.lane l
def setLaneRec (l : Nat) (f : BhLane → BhLane) (s : State) : State :=
  setBh (fun b => { b with lane := vSet b.lane l (f (vAt b.lane l)) }) s
def graftOf (s : State) (g : Nat) : GraftSt := vAt s.bh.graft g
def setGraft (g : Nat) (f : GraftSt → GraftSt) (s : State) : State :=
  setBh (fun b => { b with graft := vSet b.graft g (f (vAt b.graft g)) }) s
def setMembers (f : BhMember → BhMember) (s : State) : State := setBh (fun b => { b with members := b.members.map f }) s

/-- FUNC of the port of lane 4 × port + lane. -/
def bhFunc (l : Nat) : Nat := 0x58 + l / 4

/-- Fields of BH_LANE_STATUS. -/
def laneF (s : State) (l hi lo : Nat) : Nat := objF s (bhFunc l) (0x904 + l % 4) hi lo
def setLaneF (l hi lo v : Nat) (s : State) : State := setF (bhFunc l) (0x904 + l % 4) hi lo v s

/-- The lane is enabled on a port that runs. -/
def laneOn (s : State) (l : Nat) : Bool :=
  objF s (bhFunc l) 0x900 (28 + l % 4) (28 + l % 4) == 1 && !funcDown s (bhFunc l) && decide (lifeCycle s ≠ 4)

/-- A lane defect is present: LOS, LOA or not ALIGNED, LOM, TIM (R347, R355). -/
def laneGood (s : State) (l : Nat) : Bool := laneF s l 31 30 == 2 && laneF s l 29 29 == 0 && laneF s l 27 26 == 0
def laneDefect (s : State) (l : Nat) : Bool := decide (laneF s l 29 26 ≠ 0)

/-- Fields of GRAFT_CFG. -/
def graftEn (s : State) (g : Nat) : Bool := objF s 0 (0x910 + g) 31 31 == 1
def graftAuto (s : State) (g : Nat) : Bool := objF s 0 (0x910 + g) 29 29 == 1
/-- MAX_SKEW in 0.1 ms of a GRAFT_CFG word. -/
def maxSkewOf (v : W32) : Nat := max 1 (fget v 28 21)
def maxSkew (s : State) (g : Nat) : Nat := maxSkewOf (getObj s 0 (0x910 + g))

/-- Members of a Graft. -/
def membersOf (s : State) (g : Nat) : List BhMember := s.bh.members.filter (fun m => m.gid == g)

/-- CTRL values of payload members (R345). -/
def isPay (v : Nat × Nat) : Bool := v.1 == 2 || v.1 == 3

/-- Members by SQ. -/
def insSq (f : BhMember → Nat) (m : BhMember) : List BhMember → List BhMember
  | [] => [m]
  | x :: t => if f m < f x then m :: x :: t else x :: insSq f m t
def bySq (f : BhMember → Nat) (l : List BhMember) : List BhMember := l.foldl (fun a m => insSq f m a) []

/-- Payload members in transmit, as they govern the payload, and in receive. -/
def txPay (s : State) (g : Nat) : List BhMember := bySq (fun m => m.eff.2) ((membersOf s g).filter (fun m => isPay m.eff))
def rxPay (s : State) (g : Nat) : List BhMember := bySq (fun m => m.rx.2) ((membersOf s g).filter (fun m => isPay m.rx))

/-- The reservation of a Graft in bits for a MAX_SKEW and a count of members (R351). -/
def skewBits (skew n : Nat) : Nat := skew * n * 5200

/-- Members that hold a reservation: payload and ADD. -/
def skewMembers (s : State) (g : Nat) : Nat :=
  ((membersOf s g).filter (fun m => m.ann.1 == 1 || isPay m.ann || m.rx.1 == 1 || isPay m.rx)).length

/-- Sum of the reservations, Graft g taken with another MAX_SKEW and count. -/
def skewSum (s : State) (g skew n : Nat) : Nat :=
  (List.range 16).foldl (fun a k => a + (if k = g then skewBits skew n else skewBits (maxSkew s k) (skewMembers s k))) 0

/-- The limit of R351 in bits. -/
def skewLimit (s : State) : Nat := 1000000 * skewBanks s

/-- USED of BH_SKEW follows the members; LIMIT follows SKEW_BANKS. -/
def skewStatus (s : State) : State :=
  let u := skewSum s 16 0 0
  setF 0 0x940 31 18 (u / 1000) (setF 0 0x940 17 4 (skewLimit s / 1000) s)

-- Frames.

/-- Bytes as a lane's balls carry them (R334): TX_INV or RX_INV inverts every bit. -/
def polarity (inv : Bool) (b : Bytes) : Bytes := if inv then b.map (~~~ ·) else b

/-- The alignment word. -/
def faw : Bytes := [0x3A, 0xC5, 0x1F, 0x6E, 0x9D, 0x20]

/-- One byte through the scrambler (R338): register x1 to x15 in bits 0 to 14. -/
def scramByte (x : Nat) (b : Nat) : Nat × Nat :=
  (List.range 8).foldl (fun (a : Nat × Nat) i =>
    let o := ((a.1 >>> 13) + (a.1 >>> 14)) % 2
    ((2 * a.1) % 32768 + o, 2 * a.2 + ((b >>> (7 - i)) + o) % 2)) (x, 0)

/-- The payload scrambler, which is its own inverse (R338). -/
def scramble (b : Bytes) : Bytes :=
  (b.foldl (fun (a : Nat × List Byte) x => let r := scramByte a.1 x.toNat; (r.1, BitVec.ofNat 8 r.2 :: a.2)) (32767, [])).2.reverse

/-- BIP-16 of a payload (R337). -/
def bip16 : Bytes → Nat
  | a :: b :: t => (256 * a.toNat + b.toNat) ^^^ bip16 t
  | _ => 0

/-- Bit positions that differ. -/
def diff16 (a b : Nat) : Nat := ((List.range 16).filter (fun i => nbit a i != nbit b i)).length

/-- PRBS-31 over n bytes from the first payload bit of a frame (BH_LANE_TEST). -/
def prbs31 (n : Nat) : Bytes :=
  ((List.range n).foldl (fun (a : Nat × List Byte) _ =>
    let r := (List.range 8).foldl (fun (c : Nat × Nat) _ =>
      let o := ((c.1 >>> 27) + (c.1 >>> 30)) % 2
      ((2 * c.1) % 2147483648 + o, 2 * c.2 + (1 - o))) (a.1, 0)
    (r.1, BitVec.ofNat 8 r.2 :: a.2)) (2147483647, [])).2.reverse

/-- The lane trace the Garurn sends (R339). -/
def laneTrace (s : State) (l : Nat) : Bytes :=
  let b := beBytes 8 Config.eui.toNat ++ beBytes 1 s.aon.addr.toNat ++ beBytes 1 l ++ List.replicate 5 0
  b ++ beBytes 1 (crc8 (bitsOfBytes b))

/-- A Graft control word (R344). -/
def ctrlWord (gid ctrl sq j mst : Nat) : Bytes :=
  let b := beBytes 1 (16 * gid + ctrl) ++ beBytes 1 (4 * sq) ++ beBytes 1 (32 * j) ++ beBytes 1 mst
  b ++ beBytes 1 (crc8 (bitsOfBytes b))

/-- MST of group j (R344): bit 7 − m for SQ 8j + m. -/
def mstByte (mst j : Nat) : Nat := (List.range 8).foldl (fun a m => 2 * a + b2n (nbit mst (8 * j + m))) 0

/-- The group a Graft sends next (R347). -/
def mstGroup (g : GraftSt) : Nat := g.fresh.headD g.turn

/-- A Graft packet with core header and FCS (R352). -/
def graftPacket (data : Bytes) : Bytes :=
  let pli := beBytes 2 (data.length + 4)
  pli ++ beBytes 2 (crcBits 16 0x1021 0 (bitsOfBytes pli)) ++ data ++ beBytes 4 (crc32 data)

/-- The oldest packet of a Graft in its transmit queue (R354). -/
def nextOut (s : State) (g : Nat) : Option Pkt :=
  (getQ s (6 + graftHome s g)).pkts.find? (fun p => !p.released && p.tag.toNat % 16 == g)

/-- n bytes of a Graft's stream: its packets in turn, idle packets in the gaps (R352). -/
def graftFill : Nat → Nat → Nat → State → State
  | 0, _, _, s => s
  | f + 1, n, g, s =>
    if n ≤ (graftOf s g).txBuf.length then s
    else match nextOut s g with
      | some p =>
        graftFill f n g (drainGraft (setGraft g (fun k => { k with txBuf := k.txBuf ++ graftPacket p.data })
          (qRelease (6 + graftHome s g) p.pos s)))
      | none => graftFill f n g (setGraft g (fun k => { k with txBuf := k.txBuf ++ [0, 0, 0, 0] }) s)

/-- The share of a frame of one Graft. -/
def graftShare (g : Nat) (s : State) : State × Bytes :=
  let n := 650 * (txPay s g).length
  let s := graftFill (n + 1) n g s
  (setGraft g (fun k => { k with txBuf := k.txBuf.drop n }) s, (graftOf s g).txBuf.take n)

/-- The 650 bytes of a slot (R345). -/
def slotBytes (s : State) (shares : List (Nat × Array Byte)) (l ts : Nat) : Bytes :=
  match s.bh.members.find? (fun m => m.lane == l && m.ts == ts && isPay m.eff) with
  | none => List.replicate 650 0
  | some m =>
    let k := (txPay s m.gid).length
    let a := (shares.find? (fun e => e.1 == m.gid)).elim #[] (·.2)
    (List.range 650).map (fun i => a.getD (i * k + m.eff.2) 0)

/-- One lane's frame (R335). -/
def laneFrame (s : State) (shares : List (Nat × Array Byte)) (l : Nat) : Bytes × Nat :=
  let x := laneRec s l
  let test := laneF s l 24 24 == 1
  let k := s.bh.mfi % 8
  let words := (List.range 6).flatMap (fun i =>
    match s.bh.members.find? (fun m => m.lane == l && m.ts == 6 * k + i && m.ann.1 != 0) with
    | some m => let g := graftOf s m.gid; ctrlWord m.gid m.ann.1 m.ann.2 (mstGroup g) (mstByte g.mst (mstGroup g))
    | none => ctrlWord 0 0 0 0 0)
  let pay := scramble (if test then prbs31 31200 else (List.range 48).flatMap (fun ts => slotBytes s shares l ts))
  let oh := faw ++ beBytes 2 (16 * s.bh.mfi + l) ++ beBytes 1 (128 * b2n (laneDefect s l) + 64 * b2n test)
    ++ beBytes 1 (if laneF s l 31 30 = 2 then x.rei else 0) ++ beBytes 2 x.txBip ++ words
    ++ slice (laneTrace s l) (s.bh.mfi % 16) 1 ++ List.replicate 7 0xAA
  (oh ++ pay, bip16 pay)

-- Member states.

/-- A member is OK (R347). -/
def memberGood (s : State) (m : BhMember) : Bool := laneGood s m.lane && decide (m.gce < 3) && !m.skew

/-- GRAFT_STATUS of a Graft. -/
def graftStatus (g : Nat) (s : State) : State :=
  let ms := membersOf s g
  let pend := ms.any (fun m => (m.ann.1 == 1 && !m.auto) || m.ann.1 == 5 || m.ann != m.prev || m.prev != m.eff)
  let st := if !graftEn s g then 0 else if !(graftOf s g).up then 1 else if pend then 3 else 2
  let far := ms.foldl (fun a m => if m.rx.1 = 0 then a else max a (m.delay.natAbs / 400)) 0
  setObj 0 (0x920 + g) (BitVec.ofNat 32 (st * 2 ^ 30 + (txPay s g).length * 2 ^ 24 + (rxPay s g).length * 2 ^ 18
    + min far 0x3FFFF)) s

/-- MST of a Graft follows its receive members; GRAFT_UP and GRAFT_DOWN (R347, R356). -/
def graftMst (g : Nat) (s : State) : State :=
  let ms := (membersOf s g).filter (fun m => m.rx.1 != 0)
  let old := graftOf s g
  let mst := ms.foldl (fun a m => if m.bad then a else a ||| 2 ^ m.rx.2) 0
  let moved := (List.range 6).filter (fun j => mstByte mst j != mstByte old.mst j && !old.fresh.contains j)
  let up := graftEn s g && ms.any (fun m => isPay m.rx && !m.bad)
  -- what a Graft lost while it was DOWN is one gap in its stream, and the release point is set again
  let gap := up && !old.up && old.next.isSome
  let s := if gap then setGraft g (fun k => { k with
    held := [], next := none, wait := 0, offs := [], stream := k.stream ++ List.replicate 650 none }) s else s
  let s := setGraft g (fun k => { k with
    mst := mst, fresh := k.fresh ++ moved, up := up, down := k.down || (graftEn s g && !up)
    mdef := k.mdef || ms.any (fun m => isPay m.rx && m.bad) }) s
  let h := graftHome s g
  let s := if up && !old.up then raise (43 + h) (0x58 + h) .graftUp (beBytes 1 g) s
    else if old.up && !up && graftEn s g then raise (43 + h) (0x58 + h) .graftDown (beBytes 1 g) s else s
  graftStatus g s

/-- Members gain and lose defects (R355, R356). -/
def checkMembers (s : State) : State :=
  let s := s.bh.members.foldl (fun t m =>
    let bad := !memberGood s m
    if bad && !m.bad && isPay m.rx then
      let t := raise (43 + m.lane / 4) (bhFunc m.lane) .faultBhMember (beBytes 1 m.gid ++ beBytes 1 m.rx.2 ++ beBytes 1 m.lane) t
      -- a Graft whose members all lie on one lane is outside the guarantee (01 R23, R28)
      if (membersOf s m.gid).all (fun x => decide (x.lane = m.lane)) then
        raise (43 + m.lane / 4) (bhFunc m.lane) .faultUnabsorbed (beBytes 1 (bhFunc m.lane)) t
      else t
    else t) s
  let s := setMembers (fun m => { m with bad := !memberGood s m }) s
  (List.range 16).foldl (fun s g => graftMst g s) s

/-- MEMBERS of every lane (BH_LANE_STATUS). -/
def laneMembers (s : State) : State :=
  (List.range 8).foldl (fun s l => setLaneF l 23 18 (s.bh.members.filter (fun m => m.lane == l)).length s) s

/-- The delay of a lane against another, in ticks (R350): frames of equal MFI are compared. -/
def laneDelay (a b : BhLane) : Int :=
  let d : Int := ((a.mfi : Int) - b.mfi + 6144) % 4096 - 2048
  (a.tb : Int) - b.tb - d * 40000

/-- The delays of a Graft's members (R350): a member beyond MAX_SKEW is held FAIL and reported once. -/
def graftDelays (g : Nat) (s : State) : State :=
  let pay := (rxPay s g).filter (fun m => laneGood s m.lane)
  let first := pay.foldl (fun (a : Option Nat) m => match a with
    | none => some m.lane
    | some b => if laneDelay (laneRec s m.lane) (laneRec s b) < 0 then some m.lane else some b) none
  match first with
  | none => s
  | some e =>
    let dOf := fun (m : BhMember) => laneDelay (laneRec s m.lane) (laneRec s e)
    let past := fun (m : BhMember) => decide (40000 * maxSkew s g < (dOf m).natAbs)
    let t := (membersOf s g).foldl (fun t m =>
      if laneGood s m.lane && m.rx.1 != 0 && past m && !m.skew then
        raise (43 + m.lane / 4) (bhFunc m.lane) .bhSkewExceeded (beBytes 1 g ++ beBytes 1 m.rx.2
          ++ beBytes 4 (toBits 32 (dOf m / 4))) t
      else t) s
    setMembers (fun m => if m.gid == g && laneGood s m.lane && m.rx.1 != 0 then { m with delay := dOf m, skew := past m }
      else m) t

-- Reception.

/-- FAW is found at a bit position in HUNT or PRESYNC (R340). -/
def execFawMatch (lane : Fin 8) (pos : Nat) (s : State) : Host.Outcome State Fault Refusal :=
  .next (let l := lane.val
    let x := laneRec s l
    let p := pos % 250000
    if !laneOn s l ∨ laneF s l 29 29 = 1 ∨ laneF s l 31 30 = 2 ∨ x.cands.any (fun c => c.pos == p) then s
    else
      let c : BhCand := ⟨p, 0, none, 0⟩
      let worst := x.cands.foldl (fun a c => min a c.conf) (x.cands.headD default).conf
      -- the newest of the candidates with the fewest confirmations gives way
      let keep := if x.cands.length < 8 then x.cands
        else match x.cands.reverse.find? (fun k => k.conf == worst) with
          | some k => x.cands.erase k
          | none => x.cands
      setLaneF l 31 30 1 (setLaneRec l (fun x => { x with cands := keep ++ [c] }) s))

/-- A lane reaches ALIGNED at a candidate (R341). -/
def laneAligned (l : Nat) (c : BhCand) (mfi bip : Nat) (s : State) : State :=
  let t := now s
  let s := setLaneF l 31 30 2 (setLaneF l 28 27 0 s)
  checkMembers (setLaneRec l (fun x => { x with
    pos := c.pos, agree := c.agree, errs := 0, mfi := mfi, bip := bip, bad := 0, good := 0, tb := t, part := []
    cands := x.cands.filter (fun k => k.pos != c.pos && k.conf == 2) }) s)

/-- A frame at a candidate's due position (R341). -/
def candFrame (l : Nat) (c : BhCand) (b : Bytes) (s : State) : State :=
  let mfi := beAt b 6 2 / 16
  let bip := bip16 (b.drop 50)
  let drop := fun s =>
    let s := setLaneRec l (fun x => { x with cands := x.cands.filter (fun k => k.pos != c.pos) }) s
    if laneF s l 31 30 = 1 ∧ (laneRec s l).cands.isEmpty then setLaneF l 31 30 0 s else s
  match c.last with
  | none =>
    setLaneRec l (fun x => { x with cands := x.cands.map (fun k => if k.pos == c.pos then { k with last := some (mfi, bip) } else k) }) s
  | some (m0, b0) =>
    let agree := 16 - diff16 (beAt b 10 2) b0
    if slice b 0 6 ≠ faw ∨ mfi ≠ (m0 + 1) % 4096 ∨ agree < 15 then drop s
    else
      let c' := { c with conf := c.conf + 1, last := some (mfi, bip), agree := agree }
      if c'.conf < 3 then
        setLaneRec l (fun x => { x with cands := x.cands.map (fun k => if k.pos == c.pos then c' else k) }) s
      else if laneF s l 31 30 ≠ 2 then laneAligned l c' mfi bip s
      else
        -- another candidate confirmed in the same frame
        let x := laneRec s l
        if x.agree < agree ∨ (x.agree = agree ∧ c'.pos < x.pos) then laneAligned l c' mfi bip s else drop s

/-- A control word of a frame received in the far end's control cycle c (R344, R346, R347). -/
def takeWord (l ts c : Nat) (w : Bytes) (s : State) : State :=
  let ok := crc8 (bitsOfBytes (slice w 0 4)) == byteAt w 4
  if !ok then setMembers (fun m => if m.lane == l && m.ts == ts then { m with gce := m.gce + 1 } else m) s
  else
    let gid := byteAt w 0 / 16
    let ctrl := byteAt w 0 % 16
    let sq := byteAt w 1 / 4
    let j := byteAt w 2 / 32
    let mst := byteAt w 3
    let s := setMembers (fun m => if m.lane == l && m.ts == ts then { m with
      gce := 0
      words := if m.gid == gid || ctrl == 0 then (c, ctrl, sq) :: m.words.filter (fun v => v.1 != c) else m.words } else m) s
    if ctrl = 0 ∨ !s.bh.members.any (fun m => m.lane == l && m.ts == ts && m.gid == gid) then s
    else
      let s := setMembers (fun m =>
        let q := if m.eff.1 = 0 ∨ m.eff.1 = 1 then m.ann.2 else m.eff.2
        if m.gid == gid && q / 8 == j then { m with farOk := nbit mst (7 - q % 8) } else m) s
      let pay := (membersOf s gid).filter (fun m => isPay m.eff)
      setGraft gid (fun k => { k with
        far := k.far || pay.any (fun m => !m.farOk), farAll := k.farAll || (!pay.isEmpty && pay.all (fun m => !m.farOk)) }) s

/-- The trace byte of a frame (R335, R355). -/
def takeTrace (l mfi : Nat) (b : Byte) (s : State) : State :=
  let i := mfi % 16
  let x := laneRec s l
  let part := if i = 0 then [b] else if x.part.length = i then x.part ++ [b] else []
  let s := setLaneRec l (fun x => { x with part := part }) s
  if part.length < 16 ∨ crc8 (bitsOfBytes (slice part 0 15)) ≠ byteAt part 15 then s
  else
    let same := part == x.learned
    let s := setLaneRec l (fun x => { x with
      trace := part, part := [], differ := if same then 0 else x.differ + 1, equal := if same then x.equal + 1 else 0 }) s
    let y := laneRec s l
    if objF s (bhFunc l) 0x900 19 19 = 0 ∨ y.learned.isEmpty then s
    else if 3 ≤ y.differ then setLaneF l 26 26 1 s
    else if 3 ≤ y.equal then setLaneF l 26 26 0 s else s

/-- A lane test compares the payload of a frame with the pattern sent (BH_LANE_TEST). -/
def takeTest (l : Nat) (pay : Bytes) (s : State) : State :=
  if laneF s l 24 24 = 0 then s
  else
    let wrong := (List.zipWith (fun a b => ((bitsOfBytes [a ^^^ b]).filter id).length) pay (prbs31 31200)).sum
    setLaneRec l (fun x => { x with testBits := x.testBits + 249600, testErrs := x.testErrs + wrong }) s

/-- The members of a lane take their slots of a frame, those in defect none (R345, R351, R356). -/
def takeSlots (l mfi : Nat) (pay : Array Byte) (s : State) : State :=
  let t := now s
  s.bh.members.foldl (fun s m =>
    if m.lane == l && !m.bad then
      let d := (List.range 650).map (fun i => pay.getD (650 * m.ts + i) 0)
      setGraft m.gid (fun g => { g with
        held := g.held.filter (fun e => e.mfi != mfi || e.lane != l || e.ts != m.ts) ++ [⟨mfi, l, m.ts, d, t, none⟩] }) s
    else s) s

/-- The adopted set of a Graft meets R345: payload members in sequence, EOS on the last, ADD members behind them. -/
def setOk (l : List (Nat × Nat)) : Bool :=
  let p := l.filter isPay
  let m := p.length
  (List.range m).all (fun q => p.any (fun v => v.2 == q)) && p.all (fun v => (v.1 == 3) == (v.2 + 1 == m))
    && l.all (fun v => v.1 != 1 || decide (m ≤ v.2))

/-- The value a member adopts at the start of the far end's cycle c: that of cycle c - 2, else of c - 1, else its last
(R346). -/
def adoptVal (c : Nat) (m : BhMember) : Nat × Nat :=
  match m.words.find? (fun w => w.1 == (c + 510) % 512) with
  | some w => w.2
  | none => match m.words.find? (fun w => w.1 == (c + 511) % 512) with
    | some w => w.2
    | none => m.rx

/-- Payload members and SQ of a slot under the set in force. -/
def placeNow (s : State) (g lane ts : Nat) : Option (Nat × Nat) :=
  ((rxPay s g).find? (fun m => m.lane == lane && m.ts == ts)).map (fun m => ((rxPay s g).length, m.rx.2))

/-- A Graft's buffers are discarded and its release point is set again (R351). -/
def realign (g : Nat) (s : State) : State :=
  setGraft g (fun k => { k with
    held := [], next := none, wait := 0, offs := [], stream := [], delin := .hunt, hec := 0, badSets := 0 }) s

/-- The receive side of a Graft at the start of the far end's cycle c (R346): the frames of the cycles before keep the set
that governed them, and the new set is adopted if it meets R345. -/
def rxCycle (g c : Nat) (s : State) : State :=
  let ms := membersOf s g
  let ok := setOk (ms.map (adoptVal c))
  let old := decide ((rxPay s g).length = 0)
  let s := setGraft g (fun k => { k with
    cyc := some c
    held := k.held.filterMap (fun e =>
      if e.place.isSome ∨ (c + 512 - e.mfi / 8 - 1) % 512 ≥ 255 then some e
      else (placeNow s g e.lane e.ts).map (fun p => { e with place := some p })) }) s
  let s := setMembers (fun m => if m.gid == g then { m with
    rx := if ok then adoptVal c m else m.rx, words := m.words.filter (fun w => decide ((w.1 + 513 - c) % 512 < 256)) } else m) s
  -- the first payload members of a Graft set the release point
  let s := if old && decide ((rxPay s g).length ≠ 0) then setGraft g (fun k => { k with next := none, wait := 0, offs := [] }) s
    else s
  if ok then setGraft g (fun k => { k with badSets := 0 }) s
  else
    let s := bumpF 0 (0x930 + g) 7 4 1 s
    let n := (graftOf s g).badSets + 1
    if 4 ≤ n then realign g s else setGraft g (fun k => { k with badSets := n }) s

/-- A Graft goes on to the control cycle that the slowest of its lanes without a defect has reached (R346, log 52). A lane
up to 64 cycles behind the cycle in force is waited for; any other jump starts anew at that cycle. -/
def rxAdvance (g : Nat) (s : State) : State :=
  match ((membersOf s g).filter (memberGood s)).map (fun m => (laneRec s m.lane).mfi / 8) with
  | [] => s
  | f :: cs =>
    match (graftOf s g).cyc with
    | none => rxCycle g (cs.foldl (fun a c => if (c + 512 - a) % 512 < 256 then a else c) f) s
    | some b =>
      let o := (f :: cs).foldl (fun a c => min a ((c + 768 - b) % 512)) 512
      if 192 ≤ o ∧ o ≤ 256 then s
      else if 256 < o ∧ o ≤ 320 then (List.range (o - 256)).foldl (fun s i => rxCycle g ((b + i + 1) % 512) s) s
      else rxCycle g ((b + o + 256) % 512) s

/-- A frame at the aligned position (R342, R343, R335, R355). -/
def alignedFrame (l : Nat) (b : Bytes) (s : State) : State :=
  let x := laneRec s l
  let errs := if slice b 0 6 = faw then 0 else x.errs + 1
  if 4 ≤ errs then
    checkMembers (setLaneF l 31 30 0 (setLaneF l 28 28 1 (setLaneRec l (fun x => { x with
      errs := 0, cands := [], rei := 0, defect := true }) s)))
  else
    let mfi := beAt b 6 2 / 16
    let right := decide (mfi = (x.mfi + 1) % 4096)
    let bad := if right then 0 else x.bad + 1
    let d := byteAt b 8
    let wrong := diff16 (beAt b 10 2) x.bip
    let t := now s
    let lom := if right then 0 else if 2 ≤ bad then 1 else laneF s l 27 27
    let s := setLaneF l 27 27 lom s
    let s := setLaneF l 25 25 (b2n (nbit d 7)) (setLaneF l 17 13 (min 16 (byteAt b 9)) s)
    let err := (decide (0 < wrong) && !nbit d 6) || laneDefect s l
    let s := setLaneRec l (fun x => { x with
      errs := errs, mfi := mfi, bad := bad, good := if right then x.good + 1 else 0, bip := bip16 (b.drop 50), tb := t
      rei := wrong, cands := [], esec := x.esec + b2n err, fsec := x.fsec + b2n (decide (0 < byteAt b 9) || nbit d 7)
      defect := x.defect || lom == 1 }) s
    let s := takeTrace l mfi ((slice b 42 1).headD 0) s
    if lom = 1 then checkMembers s
    else
      let s := (List.range 6).foldl (fun s i => takeWord l (6 * (mfi % 8) + i) (mfi / 8) (slice b (12 + 5 * i) 5) s) s
      let gs := ((s.bh.members.filter (fun m => m.lane == l)).map (·.gid)).eraseDups
      let s := gs.foldl (fun s g => rxAdvance g (graftDelays g s)) s
      let pay := scramble (b.drop 50)
      -- a defect found now is one of the bytes from the next frame on (R356)
      checkMembers (takeSlots l mfi pay.toArray (takeTest l pay s))

/-- A lane's frame at a due position, as its balls carry it: that of the alignment, or of a candidate (R334, R341 to R343). -/
def execVirerFrameReceive (lane : Fin 8) (pos : Nat) (bytes : Bytes) (s : State) : Host.Outcome State Fault Refusal :=
  .next (let l := lane.val
    let bytes := polarity (objF s (bhFunc l) 0x900 (20 + l % 4) (20 + l % 4) == 1) bytes
    let x := laneRec s l
    let p := pos % 250000
    -- the frame crosses through queue 0x50 + lane (02 R37)
    let y := if laneOn s l then qStream (0x50 + l) (words64 bytes) s else (s, [])
    let s := y.1
    if !laneOn s l ∨ laneF s l 29 29 = 1 ∨ bytes.length ≠ 31250 ∨ y.2.isEmpty then s
    else if laneF s l 31 30 = 2 ∧ p = x.pos then alignedFrame l bytes s
    else match x.cands.find? (fun c => c.pos == p) with
      | some c => candFrame l c bytes s
      | none => s)

/-- Loss of signal on a lane (R355). -/
def laneLos (l : Nat) (s : State) : State :=
  checkMembers (setLaneF l 31 29 1 (setLaneRec l (fun x => { x with cands := [], rei := 0, defect := true }) s))

/-- LANE_LOS. -/
def execLaneLos (lane : Fin 8) (s : State) : Host.Outcome State Fault Refusal :=
  .next (if laneOn s lane.val then laneLos lane.val s else s)

/-- The signal is back (R355): the lane enters HUNT. -/
def execLaneLosClear (lane : Fin 8) (s : State) : Host.Outcome State Fault Refusal :=
  .next (let l := lane.val
    if !laneOn s l then s
    else checkMembers (setLaneF l 31 29 0 (setLaneRec l (fun x => { x with cands := [], errs := 0 }) s)))

-- Skew buffer and packets.

/-- The slots of frame m that are held. -/
def heldOf (s : State) (g m : Nat) : List HeldFrame := (graftOf s g).held.filter (fun e => e.mfi == m)

/-- A member's share of frame m is there. -/
def heldBy (s : State) (g m : Nat) (x : BhMember) : Bool :=
  (heldOf s g m).any (fun e => e.lane == x.lane && e.ts == x.ts)

/-- Frame m has been delivered or lost by every payload member that governs it (R351): those of the set in force, unless a
later set is in force already. -/
def frameDone (s : State) (g m : Nat) : Bool :=
  (heldOf s g m).any (fun e => e.place.isSome)
    || (!(rxPay s g).isEmpty && (rxPay s g).any (fun x => !x.bad) && (rxPay s g).all (fun x =>
      x.bad || heldBy s g m x || decide (((laneRec s x.lane).mfi + 4096 - m) % 4096 < 2048)))

/-- The frame of a Graft to release next: after a start or a realignment the oldest one that all its payload members have
delivered (R351). -/
def frameReady (s : State) (g : Nat) : Option Nat :=
  match (graftOf s g).next with
  | some m => if frameDone s g m then some m else none
  | none => (((graftOf s g).held.map (·.mfi)).eraseDups).find? (fun m =>
      (rxPay s g).any (fun x => !x.bad) && (rxPay s g).all (fun x => x.bad || heldBy s g m x))

/-- The bytes of a payload frame from the slots of its members, in sequence order; none where a member's slot is lost
(12 R345, R356). -/
def frameBytes (s : State) (g m : Nat) : List (Option Byte) :=
  let l := (heldOf s g m).filterMap (fun e =>
    (match e.place with | some p => some p | none => placeNow s g e.lane e.ts).map (fun p => (p, e.data)))
  let n := match l with | e :: _ => e.1.1 | [] => (rxPay s g).length
  let parts := ((List.range n).map (fun q => (l.find? (fun e => e.1.2 == q)).map (fun e => e.2.toArray))).toArray
  (List.range (650 * n)).map (fun j => match parts.getD (j % n) none with
    | some a => a[j / n]?
    | none => none)

/-- The lanes that delivered frame m, with the TB of arrival. -/
def heldLanes (s : State) (g m : Nat) : List (Nat × Nat) :=
  (heldOf s g m).foldl (fun a e => if a.any (fun x => x.1 == e.lane) then a else a ++ [(e.lane, e.tb)]) []

/-- The TB at which frame m is due (R351): 10 µs after its last arrival and the wait that removals have left; where the
lanes have changed, no earlier for the lanes that stay than at the last release. A frame that is lost whole is due. -/
def frameDue (s : State) (g m : Nat) : Nat :=
  let l := heldLanes s g m
  let k := graftOf s g
  let t := l.foldl (fun a x => max a (x.2 + us 10)) 0
  if l.isEmpty then 0
  else if l.all (fun x => k.offs.any (fun o => o.1 == x.1)) && l.length == k.offs.length then t + k.wait
  else l.foldl (fun a x => match k.offs.find? (fun o => o.1 == x.1) with | some o => max a (x.2 + o.2) | none => a) t

/-- Frame m of a Graft is released: its bytes join the stream (R351). -/
def releaseFrame (g m : Nat) (s : State) : State :=
  let l := heldLanes s g m
  let due := frameDue s g m
  let out := frameBytes s g m
  setGraft g (fun k => { k with
    held := k.held.filter (fun e => e.mfi != m), next := some ((m + 1) % 4096), stream := k.stream ++ out
    wait := if l.isEmpty then k.wait else due - l.foldl (fun a x => max a (x.2 + us 10)) 0
    offs := if l.isEmpty then k.offs else l.map (fun x => (x.1, due - x.2)) }) s

/-- A frame of a Graft is released 10 µs after its last member's frame (R351). -/
def execGraftFrameRelease (gid : Fin 16) (s : State) : Host.Outcome State Fault Refusal :=
  .next (match frameReady s gid.val with
    | none => s
    | some m => if now s < frameDue s gid.val m then s else releaseFrame gid.val m s)

/-- A Graft realigns (R346, R351). -/
def execGraftRealign (gid : Fin 16) (s : State) : Host.Outcome State Fault Refusal := .next (realign gid.val s)

/-- The core header at the start of a stream: PLI where the cHEC passes. -/
def coreHeader (l : List (Option Byte)) : Option Nat :=
  match l with
  | some a :: some b :: some c :: some d :: _ =>
    if crcBits 16 0x1021 0 (bitsOfBytes [a, b]) = 256 * c.toNat + d.toNat then some (256 * a.toNat + b.toNat) else none
  | _ => none

/-- The link engine passes packets of a backhaul receive queue to the downlink of the addressed node (R354). -/
def passDown : Nat → Nat → State → State
  | 0, _, s => s
  | f + 1, q, s =>
    match (getQ s q).pkts.find? (fun p => !p.released) with
    | none => s
    | some p =>
      let r := downlinkData (beAt p.data 0 4 % 2 ^ 18) (p.data.drop 4) s
      if r.2 = some stNoResource then s
      else match qPop q r.1 with
        | some (_, t) => passDown f q t
        | none => r.1

/-- A delineated packet is checked and queued, or discarded (R353, R354). -/
def packetIn (g : Nat) (p : List (Option Byte)) (s : State) : State :=
  let b := p.filterMap id
  let n := b.length
  if n < p.length ∨ n < 8 ∨ crc32 (slice b 0 (n - 4)) ≠ beAt b (n - 4) 4 then
    setGraft g (fun k => { k with esec := k.esec + 1 }) (bumpF 0 (0x930 + g) 31 16 1 s)
  else
    let h := beAt b 0 4
    if h / 2 ^ 28 ≠ 1 ∨ (h / 4096) % 64 ≠ s.aon.addr.toNat then bumpF 0 (0x930 + g) 15 8 1 s
    else
      let q := 4 + graftHome s g
      passDown 64 q (qPush q (0x19 + graftHome s g) false g (slice b 0 (n - 4)) s).1

/-- Drop bytes at the head of a Graft's stream. -/
def eat (n g : Nat) (s : State) : State := setGraft g (fun k => { k with stream := k.stream.drop n }) s

/-- A header that fails in SYNC is counted; two in a row return the receiver to HUNT (R353). -/
def hecFail (g : Nat) (s : State) : State :=
  let two := (graftOf s g).hec + 1 = 2
  let s := setGraft g (fun k => { k with
    hsec := true, hec := if two then 0 else k.hec + 1, delin := if two then .hunt else .sync })
    (bumpF 0 (0x930 + g) 31 16 1 s)
  if two then bumpF 0 (0x930 + g) 3 0 1 s else s

/-- Delineation goes on until one packet has been taken or the stream ends (R353). -/
def delineate : Nat → Nat → State → State
  | 0, _, s => s
  | f + 1, g, s =>
    let k := graftOf s g
    let st := k.stream
    match k.delin with
    | .hunt =>
      if st.length < 4 then s
      else match coreHeader st with
        | some _ => delineate f g (setGraft g (fun k => { k with delin := .presync }) s)
        | none => delineate f g (eat 1 g s)
    | .presync =>
      let n := 4 + (coreHeader st).getD 0
      if st.length < n + 4 then s
      else if (coreHeader (st.drop n)).isSome then delineate f g (setGraft g (fun k => { k with delin := .sync, hec := 0 }) s)
      else delineate f g (bumpF 0 (0x930 + g) 3 0 1 (setGraft g (fun k => { k with delin := .hunt }) (eat 4 g s)))
    | .sync =>
      if st.length < 4 then s
      else match coreHeader st with
        | some 0 => delineate f g (eat 4 g (setGraft g (fun k => { k with hec := 0 }) s))
        | some n =>
          if st.length < 4 + n then s
          else packetIn g ((st.drop 4).take n) (eat (4 + n) g (setGraft g (fun k => { k with hec := 0 }) s))
        | none =>
          -- the length as received leads to the next header
          let n := ((st.headD none).elim 0 (fun b => 256 * b.toNat)) + ((st.drop 1).headD none).elim 0 (·.toNat)
          if k.hec = 1 then delineate f g (hecFail g (eat 4 g s))
          else if st.length < 4 + n then s else delineate f g (hecFail g (eat (4 + n) g s))

/-- A Graft packet is delineated, checked and queued, or discarded (R352 to R354). -/
def execGraftPacketReceive (gid : Fin 16) (s : State) : Host.Outcome State Fault Refusal :=
  .next (delineate (2 * (graftOf s gid.val).stream.length + 2) gid.val s)

-- Control cycles.

/-- Members announced in order: payload members with EOS on the last, then ADD members (R345). -/
def announce (pay adds : List BhMember) (s : State) : State :=
  let n := pay.length
  let key := fun (m : BhMember) => (m.lane, m.ts)
  setMembers (fun m =>
    match (pay.map key).idxOf? (key m) with
    | some i => { m with ann := (if i + 1 = n then 3 else 2, i), auto := false }
    | none => match (adds.map key).idxOf? (key m) with
      | some i => { m with ann := (1, n + i) }
      | none => m) s

/-- The transmit side of a Graft at the end of a cycle (R346, R348, R349). -/
def txCycle (g : Nat) (s : State) : State :=
  let ms := membersOf s g
  if ms.isEmpty then s
  else
    -- a change is under way unless every member but those in ADD has settled
    let done := fun (m : BhMember) => m.ann == m.prev && m.prev == m.eff
    let s := setMembers (fun m => if m.gid == g then { m with
      eff := m.prev, prev := m.ann, okRun := if m.ann.1 == 1 && m.farOk then m.okRun + 1 else 0 } else m) s
    let ms := membersOf s g
    let still := ms.all (fun m => m.ann.1 == 1 || done m)
    -- a removal for FAIL overtakes a pending add (R348), not a removal under way
    let room := ms.all (fun m => m.ann.1 != 5 || done m)
    let pay := bySq (fun m => m.ann.2) (ms.filter (fun m => isPay m.ann))
    let adds := bySq (fun m => m.ann.2) (ms.filter (fun m => m.ann.1 == 1))
    let out := pay.filter (fun m => !m.farOk || m.leave)
    let auto := graftAuto s g
    let same := fun (l : List BhMember) (m : BhMember) => l.any (fun x => x.lane == m.lane && x.ts == m.ts)
    if !(still || (room && out.any (fun m => !m.farOk))) then s
    else if !out.isEmpty then
      let s := setMembers (fun m => if m.gid == g && same out m then { m with
        ann := (5, m.ann.2), auto := auto && !m.leave, leave := m.leave || !auto } else m) s
      announce (pay.filter (fun m => !same out m)) (adds.filter (fun m => !m.leave)) s
    else
      -- removed members become IDLE or return as ADD; slots given up while in ADD become IDLE
      -- so do those that a port reset has left at IDLE, once their lane sends again (R357)
      let back := ms.filter (fun m => (m.ann.1 == 5 && !m.leave) || (m.ann.1 == 0 && m.auto && laneOn s m.lane))
      let s := setMembers (fun m => if m.gid == g && ((m.ann.1 == 5 && m.leave) || (m.ann.1 == 1 && m.leave)) then
        { m with ann := (0, 0) } else m) s
      let adds := adds.filter (fun m => !m.leave)
      let up := adds.filter (fun m => m.farOk && (!m.auto || decide (8 ≤ m.okRun)))
      let s := announce (pay ++ up) (adds.filter (fun m => !same up m) ++ back) s
      setBh (fun b => { b with members := b.members.filter (fun m =>
        !(m.gid == g && m.leave && m.ann == (0, 0) && m.prev == (0, 0) && m.eff == (0, 0) && m.rx.1 == 0)) }) s

/-- A disabled Graft has no member (GRAFT_CFG.EN). -/
def graftsOff (s : State) : State :=
  (List.range 16).foldl (fun s g =>
    if graftEn s g then s
    else
      let s := setBh (fun b => { b with members := b.members.filter (fun m => m.gid != g) }) s
      setGraft g (fun k => { k with mst := 0, fresh := [], up := false, txBuf := [], down := false, cyc := none }) (realign g s)) s

/-- A control cycle ends (R346 to R349): GRAFT_CFG takes effect, the transmit direction moves on. -/
def cycleEnds (s : State) : State :=
  let s := graftsOff (adoptBound .cycle (setBh (fun b => { b with cycleDue := false }) s))
  let s := checkMembers ((List.range 16).foldl (fun s g => txCycle g s) s)
  let s := passDown 64 4 (passDown 64 5 s)
  skewStatus (laneMembers s)

/-- The eighth frame of a control cycle has been sent (R336, R346). -/
def execControlCycleEnd (s : State) : Host.Outcome State Fault Refusal :=
  .next (if s.bh.cycleDue then cycleEnds s else s)

/-- Every enabled lane sends one frame (R334 to R345, R354). -/
def execVirerFrameTransmit (s : State) : Host.Outcome State Fault Refusal :=
  .next (if s.phase ≠ .running ∨ tapHold s then s
    else
      -- a control cycle that has ended without its command ends before the next frame (R336)
      let s := if s.bh.cycleDue then cycleEnds s else s
      let r := (List.range 16).foldl (fun (a : State × List (Nat × Array Byte)) g =>
        let x := graftShare g a.1
        (x.1, a.2 ++ [(g, x.2.toArray)])) (s, [])
      let s := r.1
      let k := s.bh.mfi % 8
      let sent := (List.range 16).filter (fun g => (membersOf s g).any (fun m => laneOn s m.lane && m.ts / 6 == k && m.ann.1 != 0))
      let t := (List.range 8).foldl (fun t l =>
        if laneOn s l then
          let f := laneFrame s r.2 l
          emit (.virerFrame l (polarity (objF s (bhFunc l) 0x900 (24 + l % 4) (24 + l % 4) == 1) f.1)) (qStream (0x58 + l / 4) (words64 f.1) (setLaneRec l (fun x => { x with txBip := f.2 }) t)).1
        else t) s
      let t := sent.foldl (fun t g => setGraft g (fun k => match k.fresh with
        | _ :: rest => { k with fresh := rest }
        | [] => { k with turn := (k.turn + 1) % 6 }) t) t
      setBh (fun b => { b with mfi := (b.mfi + 1) % 4096, cycleDue := (b.mfi + 1) % 8 == 0 }) t)

-- Performance monitoring.

/-- The address of a performance bin (R271, R359): 33 quarter-hour and 2 day records of each object in turn. -/
def binAddr (s : State) (obj day i : Nat) : Nat := partBase s 5 + 0x38000 + 16 * (35 * obj + 33 * day + i)

/-- Add to a counter of a record; whether it saturated. -/
def satAdd (n v k : Nat) : Nat × Bool := let m := 256 ^ n - 1; (min m (v + k), decide (m < v + k))

/-- Add a second to a bin (R358, R359). -/
def binAdd (a : Nat) (x : PmSec) (s : State) : State :=
  let f := fun (o n k : Nat) (e : State × Bool) =>
    let r := satAdd n (memNat e.1 (a + o) n) k
    (memSetNat (a + o) n r.1 e.1, e.2 || r.2)
  let e := if x.uas then f 8 2 1 (s, false)
    else f 4 4 (if x.ses then 0 else x.bbe) (f 2 2 (b2n x.ses) (f 0 2 (b2n x.es) (s, false)))
  let e := f 12 2 (b2n x.fses) (f 10 2 (b2n x.fes) e)
  if e.2 then memWrite (a + 14) [memByte e.1 (a + 14) ||| 4] e.1 else e.1

/-- A second of one object joins those held (R358): ten in a row decide unavailability; the eleventh is added. -/
def pmPush (obj : Nat) (x : PmSec) (s : State) : State :=
  let u := vAt s.bh.uas obj
  let l := { x with uas := u } :: vAt s.bh.secs obj
  let ten := l.take 10
  let flip := decide (ten.length = 10) && (if u then ten.all (fun e => !e.ses) else ten.all (fun e => e.ses))
  let l := if flip then ten.map (fun e => { e with uas := !u }) ++ l.drop 10 else l
  let s := setBh (fun b => { b with
    secs := vSet b.secs obj (l.take 10), uas := vSet b.uas obj (if flip then !u else u) }) s
  (l.drop 10).foldl (fun s e => binAdd (binAddr s obj 1 0) e (binAdd (binAddr s obj 0 0) e s)) s

/-- One second of a lane's performance (12 R358). -/
def lanePm (l : Nat) (s : State) : State :=
  let x := laneRec s l
  let e : PmSec := ⟨decide (0 < x.esec), decide (3000 ≤ x.esec) || x.defect, x.esec, decide (0 < x.fsec),
    decide (3000 ≤ x.fsec), false⟩
  let s := if laneOn s l then pmPush l e s else s
  let d := decide (laneF s l 29 27 ≠ 0)
  setLaneRec l (fun x => { x with esec := 0, fsec := 0, defect := d }) s

/-- One second of a Graft's performance (12 R358). -/
def graftPm (g : Nat) (s : State) : State :=
  let k := graftOf s g
  let e : PmSec := ⟨decide (0 < k.esec) || k.hsec || k.mdef, k.down, k.esec, k.far, k.farAll, false⟩
  let s := if graftEn s g then pmPush (8 + g) e s else s
  let pay := rxPay s g
  let tp := txPay s g
  setGraft g (fun k => { k with
    esec := 0, hsec := false, mdef := pay.any (fun m => m.bad), down := graftEn s g && !k.up
    far := tp.any (fun m => !m.farOk), farAll := !tp.isEmpty && tp.all (fun m => !m.farOk) }) s

/-- A second of TB ends (R358). -/
def execPmSecond (s : State) : Host.Outcome State Fault Refusal :=
  .next (if s.phase ≠ .running then s
    else
      let s := (List.range 8).foldl (fun s l => lanePm l s) s
      let s := (List.range 16).foldl (fun s g => graftPm g s) s
      setBh (fun b => { b with secs15 := b.secs15 + 1, secs24 := b.secs24 + 1 }) s)

/-- The record of a bin; one that had not yet run since the last clearing reads zero with FLAGS bit 0 (14 R414). -/
def binRecord (s : State) (obj day i : Nat) : Bytes :=
  if (if day = 0 then s.bh.closed15 else s.bh.closed24) < i then List.replicate 14 0 ++ [1, 0]
  else
    let b := (trReadData s (binAddr s obj day i) 16).1
    if i = 0 ∧ (if day = 0 then s.bh.step15 else s.bh.step24) then slice b 0 14 ++ [((slice b 14 1).headD 0) ||| 2, 0] else b

/-- The current bins of one kind close (R359); the next begin at TB `start`.
A bin that ran for its full time closes when its length and ten seconds more have ended since it began; by then ten seconds
of the next have ended. -/
def closeBins (day : Bool) (start : W64) (s : State) : State :=
  let full := if day then decide (86410 ≤ s.bh.secs24) else decide (910 ≤ s.bh.secs15)
  let st := if day then s.bh.step24 else s.bh.step15
  let d := b2n day
  let n := if day then 1 else 32
  let s := (List.range 24).foldl (fun s obj =>
    let s := memWrite (binAddr s obj d 0 + 14)
      [memByte s (binAddr s obj d 0 + 14) ||| BitVec.ofNat 8 (b2n (!full) + 2 * b2n st)] s
    let s := (List.range n).foldl (fun s i => memWrite (binAddr s obj d (n - i)) (memRead s (binAddr s obj d (n - i - 1)) 16) s) s
    memWrite (binAddr s obj d 0) (List.replicate 16 0) s) s
  setBh (fun b =>
    if day then { b with secs24 := min 10 b.secs24, step24 := false, closed24 := 1, start24 := start }
    else { b with secs15 := min 10 b.secs15, step15 := false, closed15 := min 32 (b.closed15 + 1), start15 := start }) s

/-- The last boundary of bins of a length in ticks, counted from the TB of BH_PM_ALIGN (R358, R359). -/
def binBoundary (s : State) (len : Nat) : W64 :=
  let d := (s.clk.tb - s.bh.align).toNat
  s.clk.tb - BitVec.ofNat 64 (d % len)

/-- A bin closes, 10 s after its end (R359). -/
def execPmBinClose (day : Bool) (s : State) : Host.Outcome State Fault Refusal :=
  .next (closeBins day (binBoundary s (400000000 * if day then 86400 else 900)) s)

-- Commands.

/-- Fields of GRAFT_ADD and GRAFT_REMOVE: GID, lane 4 × port + lane, first slot and count. -/
def graftArgs (r : Req) : Nat × Nat × Nat × Nat :=
  let v := beAt r.params 0 4
  (nfield v 31 28, nfield v 27 25, nfield v 24 19, nfield v 18 13)

/-- The slot range of the two commands is one. -/
def graftRange (r : Req) : Bool :=
  let (_, _, ts, n) := graftArgs r
  decide (1 ≤ n ∧ n ≤ 48 ∧ ts + n ≤ 48)

/-- A change of the Graft is pending (R348). -/
def graftPending (s : State) (g : Nat) : Bool :=
  (membersOf s g).any (fun m => (m.ann.1 == 1 && !m.auto) || m.ann.1 == 5 || m.ann != m.prev || m.prev != m.eff || m.leave)

/-- GRAFT_ADD (R348, R351): the slots become members in both directions. -/
def execGraftAdd (r : Req) (s : State) : Host.Outcome State Fault Refusal :=
  let (g, l, ts, n) := graftArgs r
  .next (execReq 0x901 r (r.func == 0) (lenAnd r 4 (chk (graftRange r) 0)) false
    (fun s =>
      let used := s.bh.members.any (fun m => m.lane == l && decide (ts ≤ m.ts ∧ m.ts < ts + n))
      let ms := membersOf s g
      if !graftEn s g || !laneOn s l || used then refuse stNotInState noField s
      else if graftPending s g then refuse stFunctionRunning noField s
      else if 48 < ms.length + n ∨ skewLimit s < skewSum s g (maxSkew s g) (skewMembers s g + n) then
        refuse stNoResource noField s
      else
        let top := ms.foldl (fun a m => if m.ann.1 = 1 ∨ isPay m.ann then max a (m.ann.2 + 1) else a) 0
        let new := (List.range n).map (fun i =>
          ({ gid := g, lane := l, ts := ts + i, ann := (1, top + i), prev := (0, 0), eff := (0, 0), farOk := false, okRun := 0
             auto := false, leave := false, rx := (0, 0), words := [], gce := 0, delay := 0, skew := false
             bad := true } : BhMember))
        .reply stAccepted [] (graftStatus g (skewStatus (laneMembers
          (setBh (fun b => { b with members := b.members ++ new }) s))))) s)

/-- GRAFT_REMOVE (R348): removed in the transmit direction. -/
def execGraftRemove (r : Req) (s : State) : Host.Outcome State Fault Refusal :=
  let (g, l, ts, n) := graftArgs r
  .next (execReq 0x902 r (r.func == 0) (lenAnd r 4 (chk (graftRange r) 0)) false
    (fun s =>
      let mine := fun (m : BhMember) => m.gid == g && m.lane == l && decide (ts ≤ m.ts ∧ m.ts < ts + n)
      if !graftEn s g || !(List.range n).all (fun i => s.bh.members.any (fun m => mine m && m.ts == ts + i && m.ann.1 != 0)) then
        refuse stNotInState noField s
      else if graftPending s g then refuse stFunctionRunning noField s
      else .reply stAccepted [] (graftStatus g (setMembers (fun m => if mine m then { m with leave := true } else m) s))) s)

/-- States of a member as GRAFT_READ gives them: 0 ADD, 1 NORM, 2 REMOVE, 3 FAIL. -/
def memberCode (ok : Bool) (ctrl : Nat) : Nat :=
  if ctrl = 5 ∨ ctrl = 0 then 2 else if !ok then 3 else if ctrl = 1 then 0 else 1

/-- GRAFT_READ. -/
def execGraftRead (r : Req) (s : State) : Host.Outcome State Fault Refusal :=
  let g := nfield (beAt r.params 0 4) 31 28
  .next (execReq 0x903 r (r.func == 0) (lenIs r 4) false
    (fun s =>
      let ms := membersOf s g
      .reply stDone (beBytes 1 ms.length ++ [0, 0, 0] ++ ms.flatMap (fun m =>
        beBytes 1 m.ann.2 ++ beBytes 1 (16 * memberCode (m.farOk || m.ann.1 == 1) m.ann.1 + memberCode (!m.bad) m.rx.1)
          ++ beBytes 2 (64 * m.lane + m.ts) ++ be16s (clampInt (-32768) 32767 (m.delay / 4000)))) s) s)

/-- BH_PM_READ (R359). -/
def execBhPmRead (r : Req) (s : State) : Host.Outcome State Fault Refusal :=
  let obj := byteAt r.params 0
  let day := byteAt r.params 1
  let i := byteAt r.params 2
  .next (execReq 0x910 r (r.func == 0)
    (lenAnd r 4 (firstBad (chk (decide (obj ≤ 23)) 0) (firstBad (chk (decide (day ≤ 1)) 1)
      (chk (decide (i ≤ (if day = 0 then 32 else 1))) 2)))) false
    (fun s => .reply stDone (binRecord s obj day i) s) s)

/-- BH_PM_ALIGN (R358): the current bins close as incomplete. -/
def execBhPmAlign (r : Req) (s : State) : Host.Outcome State Fault Refusal :=
  .next (execReq 0x911 r (r.func == 0) (lenIs r 8) false
    (fun s =>
      let s := setBh (fun b => { b with secs15 := 0, secs24 := 0, align := BitVec.ofNat 64 (beAt r.params 0 8) }) s
      let t := s.clk.tb
      .reply stDone [] (closeBins true t (closeBins false t s))) s)

/-- The FUNC names a backhaul port; the lane of a request. -/
def bhReq (r : Req) : Bool := r.func == 0x58 || r.func == 0x59
def reqLane (r : Req) : Nat := 4 * (r.func.toNat - 0x58) + byteAt r.params 0

/-- BH_TRACE_READ (R339). -/
def execBhTraceRead (r : Req) (s : State) : Host.Outcome State Fault Refusal :=
  .next (execReq 0x920 r (bhReq r) (lenAnd r 4 (chk (decide (byteAt r.params 0 ≤ 3)) 0)) (funcDown s r.func.toNat)
    (fun s =>
      let l := reqLane r
      if laneF s l 31 30 ≠ 2 then refuse stNotInState noField s
      else .reply stDone (slice (laneRec s l).trace 0 16 ++ slice (laneRec s l).learned 0 16) s) s)

/-- BH_TRACE_LEARN (R355). -/
def execBhTraceLearn (r : Req) (s : State) : Host.Outcome State Fault Refusal :=
  .next (execReq 0x921 r (bhReq r) (lenAnd r 4 (chk (decide (byteAt r.params 0 ≤ 3)) 0)) (funcDown s r.func.toNat)
    (fun s =>
      let l := reqLane r
      if laneF s l 31 30 ≠ 2 ∨ (laneRec s l).trace.isEmpty then refuse stNotInState noField s
      else .reply stDone [] (setLaneRec l (fun x => { x with learned := x.trace, differ := 0, equal := 0 }) s)) s)

/-- BH_LANE_TEST: deferred; an enabled lane that carries no member. -/
def execBhLaneTest (r : Req) (s : State) : Host.Outcome State Fault Refusal :=
  let d := byteAt r.params 1
  .next (execReq 0x930 r (bhReq r)
    (lenAnd r 4 (firstBad (chk (decide (byteAt r.params 0 ≤ 3)) 0) (chk (decide (1 ≤ d ∧ d ≤ 60)) 1)))
    (funcDown s r.func.toNat)
    (fun s =>
      let l := reqLane r
      if !laneOn s l || s.bh.members.any (fun m => m.lane == l) then refuse stNotInState noField s
      else deferIf r [l] s (fun s => setLaneF l 24 24 1 (setLaneRec l (fun x => { x with testBits := 0, testErrs := 0 }) s))) s)

/-- The result of a lane test: PASS with a bit error ratio below 10^−12 over 10^12 bits, or with no error in a shorter
one; a lane that has not aligned has compared nothing. -/
def laneTestReply (s : State) (l : Nat) : Bytes :=
  let x := laneRec s l
  let ok := if 10 ^ 12 ≤ x.testBits then decide (x.testErrs * 10 ^ 12 < x.testBits) else x.testErrs == 0
  let res := if x.testBits = 0 ∨ laneF s l 31 30 ≠ 2 then 2 else if ok then 0 else 1
  beBytes 1 res ++ [0, 0, 0] ++ beBytes 6 x.testBits ++ beBytes 4 (min x.testErrs 0xFFFFFFFF) ++ [0, 0]

/-- The lane test ends: PASS with a bit error ratio below 10^−12 over 10^12 bits, or with no error in a shorter one. -/
def execBhLaneTestDone (lane : Fin 8) (s : State) : Host.Outcome State Fault Refusal :=
  .next (match (findDeferred 0x930 (bhFunc lane.val) s).filter (fun d => d.aux.headD 8 == lane.val) with
    | none => s
    | some d =>
      finish d stDone (laneTestReply s lane.val)
        (setLaneF lane.val 24 24 0 s))

/-- A port's reset (R357): lanes enter HUNT with LOS until signal is seen; member states restart at IDLE, and with AUTO
set they come back. -/
def bhPortReset (port : Nat) (s : State) : State :=
  let s := (List.range 4).foldl (fun s i => setLaneRec (4 * port + i) (fun x => { x with
    cands := [], errs := 0, rei := 0, part := [], differ := 0, equal := 0, esec := 0, fsec := 0 }) s) s
  let on := fun (m : BhMember) => m.lane / 4 == port
  let s := setBh (fun b => { b with members := b.members.filter (fun m => !on m || graftAuto s m.gid) }) s
  let s := setMembers (fun m => if on m then { m with
    ann := (0, 0), prev := (0, 0), eff := (0, 0), farOk := false, okRun := 0, auto := true, leave := false
    rx := (0, 0), words := [], gce := 0, bad := true } else m) s
  let s := (List.range 16).foldl (fun s g =>
    let pay := bySq (fun m => m.ann.2) ((membersOf s g).filter (fun m => isPay m.ann))
    let adds := bySq (fun m => m.ann.2) ((membersOf s g).filter (fun m => m.ann.1 == 1))
    announce pay adds s) s
  skewStatus (laneMembers (checkMembers s))

end Sys2Proof.Machine
end

