-- ==== Sys2Proof/Machine/MeasSieve.lean ====
section
/-!
DEFINITION. The Sieve of a measurement slice (13 R361 to R364, R376): coarse and fine outputs of the modulator's samples, in
corrected codes with the TB they represent, the results of an interval, and the step detector (R381).
-/
namespace Sys2Proof.Machine

/-- Replace the measurement record; a slice's. -/
def setMeas (f : MeasSt → MeasSt) (s : State) : State := { s with meas := f s.meas }
def sliceOf (s : State) (k : Nat) : SliceSt := vAt s.meas.slice k
def setSlice (k : Nat) (f : SliceSt → SliceSt) (s : State) : State :=
  setMeas (fun m => { m with slice := vSet m.slice k (f (vAt m.slice k)) }) s

/-- Gain code of a MEAS_CH word; order N and decimation R (R362). -/
def chGain (w : W32) : Nat := min 4 (fget w 31 29)
def measOrder (w : W32) : Nat := min 5 (3 + fget w 28 27)
def measR (w : W32) : Nat := 16 * 2 ^ fget w 26 25

/-- Ticks between fine outputs (R362). -/
def fineTicks (w : W32) : Nat := 2048 * 2 ^ fget w 26 25

/-- Modulator samples before the first clean fine output has followed (R362). -/
def measSettle (w : W32) : Nat := (if fget w 28 27 = 0 then 26 else 28) * measR w

/-- The group delay that is removed from fine outputs, in ticks (R363): N(R − 1)/2 + 11.5R modulator periods. -/
def measDelay (w : W32) : Nat := 32 * measOrder w * (measR w - 1) + 736 * measR w

/-- An output of a slice: the TB it represents, its corrected code, SETTLE and OVER. -/
structure MeasOut where
  tb : Int
  x : Int
  settle : Bool
  ovr : Bool
deriving Inhabited

/-- A coarse output before correction: its number, the mean of the ±1 samples, SETTLE and OVER. -/
structure RawOut where
  j : Nat
  x : Rat
  settle : Bool
  ovr : Bool
deriving Inhabited

/-- The samples of slice k that a row brings, oldest first, from a multiple of 2R on, with the number of the first since the
synchronising reset: sample k is taken at TB T_r + 64k (R361). -/
def modIn (s : State) (k : Nat) (w : W32) (rx : ModRx) : Nat × ModRx :=
  let last := (now s - (sliceOf s k).resetTb) / 64
  let n := min rx.length (last + 1)
  let first := last + 1 - n
  let skip := (2 * measR w - first % (2 * measR w)) % (2 * measR w)
  (first + skip, (rx.take (n - skip)).reverse)

/-- The coarse outputs that a row's samples determine (07 R207): from sample 0 on all of them, else those whose whole
response lies in the samples. OVER marks every output that depends on a sample beyond ±1.05 FS (R362). -/
def rawOuts (s : State) (k : Nat) (w : W32) (rx : ModRx) : List RawOut :=
  let e := modIn s k w rx
  let r := measR w
  let o := measOrder w
  let l := (cicOut o r (e.2.map (fun b => if b.1 then (1 : Int) else -1))).zipIdx.map (fun v =>
    let from_ := r * (v.2 + 1) - (o * (r - 1) + 1)
    ({ j := e.1 / r + v.2, x := v.1 / (r : Rat) ^ o, settle := decide (e.1 / r + v.2 + 1 < o)
       ovr := ((e.2.drop from_).take (r * (v.2 + 1) - from_)).any (·.2) } : RawOut))
  if e.1 = 0 then l else l.drop (o + o % 2)

/-- The correction of a slice's offset and gain at the gain code in use (R376), in fine codes: +FS gives 8 000 000. -/
def corrected (s : State) (k : Nat) (w : W32) (x : Rat) : Rat :=
  let c := vAt (sliceOf s k).cal (chGain w)
  (x - c.1) * c.2

/-- Coarse outputs in codes (R362, R363): they saturate at ±32 767, and one code is 256 fine codes. -/
def measCoarse (s : State) (k : Nat) (w : W32) (rx : ModRx) : List MeasOut :=
  (rawOuts s k w rx).map (fun o =>
    { tb := (sliceOf s k).resetTb + 64 * (measR w * (o.j + 1) - 1 : Nat) - 32 * (measOrder w * (measR w - 1) : Nat)
      x := clampInt (-32767) 32767 (roundNear 362 (corrected s k w o.x / 256)), settle := o.settle, ovr := o.ovr })

/-- The TB of fine output i (R363). -/
def measFineTb (s : State) (k : Nat) (w : W32) (i : Nat) : Int :=
  (sliceOf s k).resetTb + 64 * (measR w * (2 * i + 2) - 1 : Nat) - measDelay w

/-- Fine outputs in codes (07 R207, R362, R363): they saturate at ±8 388 607; coarse outputs before number 0 are zero. -/
def measFine (s : State) (k : Nat) (w : W32) (rx : ModRx) : List MeasOut :=
  let c := rawOuts s k w rx
  let j0 := (c.head?.map (·.j)).getD 0
  (List.range (c.length / 2)).filterMap (fun h =>
    if j0 ≠ 0 ∧ h < 11 then none
    else
      let l := (List.range 24).map (fun t => if 2 * h + t < 22 then (⟨0, 0, false, false⟩ : RawOut) else c.getD (2 * h + t - 22) default)
      let i := j0 / 2 + h
      some { tb := measFineTb s k w i
             x := clampInt (-8388607) 8388607 (roundNear 362 (corrected s k w (firOut (measOrder w) (l.map (·.x)))))
             settle := decide (measR w * (2 * i + 2) < measSettle w), ovr := l.any (·.ovr) })

-- Intervals (R364).

/-- The period in use of the mains cycle in which an instant lies, in ticks (02 R46); before the first MAINS_LOCK the nominal
period of FREE (R364). -/
def periodAt (s : State) (t : Nat) : Rat :=
  if !s.clk.lockSeen then (nominalP (objF s 0x78 0xE05 17 17) : Rat) / 256
  else
    match ((List.range 16).map (fun k => cycleAfter s (-(k : Int)))).find? (fun e => decide (e.1 ≤ 256 * t)) with
    | some e => (e.2 : Rat) / 256
    | none => (s.clk.p : Rat) / 256

/-- The results of an interval before the correction of its class. -/
structure Interval where
  mean : Rat
  rms : Rat
  max : Int
  min : Int
  nfine : Nat
  overs : Nat

/-- The weight of a fine output in [a, b): the share of its span that lies inside. -/
def fineWeight (a b : Rat) (span : Nat) (o : MeasOut) : Rat := max 0 (min b (o.tb + span) - max a o.tb) / span

/-- The results over [a, b) (R364). -/
def intervalOf (a b : Rat) (span : Nat) (fine coarse : List MeasOut) : Interval :=
  let l := (fine.map (fun o => (fineWeight a b span o, o))).filter (fun e => decide (0 < e.1))
  let w := rSum (l.map (·.1))
  let c := (coarse.filter (fun o => decide (a ≤ o.tb) && decide ((o.tb : Rat) < b))).map (·.x)
  -- an interval that holds no output has no stated figures (log 142)
  { mean := if w = 0 then Config.figure 364 [a.floor] else rSum (l.map (fun e => e.1 * e.2.x)) / w
    rms := if w = 0 then Config.figure 3640 [a.floor] else sqrtQ (rSum (l.map (fun e => e.1 * (e.2.x * e.2.x : Int))) / w)
    max := if c.isEmpty then Config.figure 3641 [a.floor] else c.foldl max (c.headD 0)
    min := if c.isEmpty then Config.figure 3642 [a.floor] else c.foldl min (c.headD 0)
    nfine := l.length, overs := (l.filter (fun e => e.2.ovr)).length }

/-- The last fine output with a weight in an interval up to b has been computed. -/
def reaches (b : Rat) (span : Nat) (fine : List MeasOut) : Bool :=
  match fine.getLast? with | some o => decide (b ≤ o.tb + span) | none => false

-- Load steps (R381).

/-- What the step detector declares: the direction, the change in RMS of x in coarse codes, the stamp and the end of the pair
of windows. -/
structure StepFound where
  rise : Bool
  change : Nat
  stamp : Nat
  till : Rat

/-- The step detector of slice k (R381), over two windows of 1/16 of a period that end with the newest coarse output. -/
def stepFound (s : State) (k : Nat) (w : W32) (rx : ModRx) : Option StepFound :=
  let half := fget w 26 25 = 0
  let l := (rawOuts s k w rx).zip (measCoarse s k w rx)
  let c := (if half then l.filter (fun e => e.1.j % 2 = 1) else l).map (·.2)
  let span : Nat := 64 * measR w * (if half then 2 else 1)
  match c.getLast? with
  | none => none
  | some o =>
    let p := periodAt s o.tb.toNat
    let e : Rat := o.tb + span
    let lag := (roundNear 381 (p / span)).toNat
    let win := fun (a b : Rat) => (c.zipIdx).filter (fun v => decide (a ≤ v.1.tb) && decide ((v.1.tb : Rat) < b))
    let back := fun (v : MeasOut × Nat) => c.getD (v.2 - lag) default
    let dOf := fun (v : MeasOut × Nat) => v.1.x - (back v).x
    let w1 := win (e - p / 8) (e - p / 16)
    let w2 := win (e - p / 16) e
    let pair := w1 ++ w2
    let known := pair.all (fun v => decide (lag ≤ v.2) && !(back v).settle)
    let thr : Rat := (max 1 (fget w 22 15)) * 31250 / 1024
    let big := fun (l : List (MeasOut × Nat)) => !l.isEmpty && decide (thr * thr ≤ rMean (l.map (fun v => ((dOf v * dOf v : Int) : Rat))))
    let rmsOf := fun (l : List MeasOut) => sqrtQ (rMean (l.map (fun o => ((o.x * o.x : Int) : Rat))))
    let x1 := rmsOf (pair.map (·.1))
    let x0 := rmsOf (pair.map back)
    if !known || !big w1 || !big w2 || decide (e - p / 8 < (sliceOf s k).quiet) then none
    else
      let first := (pair.find? (fun v => decide (thr ≤ ((dOf v).natAbs : Rat)))).getD default
      some ⟨decide (x0 < x1), (clampInt 0 0xFFFF (roundAny 382 (if x0 < x1 then x1 - x0 else x0 - x1))).toNat, first.1.tb.toNat, e + p⟩

end Sys2Proof.Machine
end

