-- ==== Sys2Proof/Machine/Measure.lean ====
section
/-!
DEFINITION. Mains measurement (13): the sequencer and its table, slices, changes while a slice converts, triggers,
calibration and rotation, crossings, load steps, results, and the commands of the chapter.
-/
namespace Sys2Proof.Machine

/-- The subsystem runs. -/
def measUp (s : State) : Bool := !funcDown s 0x60 && decide (s.phase = .running)

/-- MEAS_CTRL.RUN and TRIG_EN; the sequencer's table entry i in force. -/
def measRun (s : State) : Bool := objF s 0x60 0xA00 31 31 == 1
def trigEn (s : State) : Bool := objF s 0x60 0xA00 23 23 == 1
def seqEnt (s : State) (i : Nat) : W32 := getObj s 0x60 (0xA40 + i)

/-- Fields of an entry. -/
def eCh (w : W32) : Nat := fget w 31 27
def eLog (w : W32) : Nat := fget w 26 24
def eRepeat (w : W32) : Nat := fget w 23 16
def eMode (w : W32) : Nat := fget w 7 6
def eTrig (w : W32) : Bool := fget w 4 4 == 1
def eLast (w : W32) : Bool := fget w 3 3 == 1
def eEn (w : W32) : Bool := fget w 2 2 == 1
def eCont (w : W32) : Bool := eEn w && eRepeat w == 0

/-- Two settings that need no synchronising reset (R366): channel, gain code, R and N. -/
def sameSet (a b : Nat × W32) : Bool :=
  a.1 == b.1 && chGain a.2 == chGain b.2 && fget a.2 26 25 == fget b.2 26 25 && min 2 (fget a.2 28 27) == min 2 (fget b.2 28 27)

/-- The physical slice of a logical one (MEAS_MAP); 15 for none. -/
def mapOf (s : State) (l : Nat) : Nat := objF s 0x60 0xA03 (4 * l + 3) (4 * l)

/-- The logical slice that a physical one serves. -/
def logOf (s : State) (k : Nat) : Option Nat := (List.range 8).find? (fun l => mapOf s l == k)

/-- The spare; 15 for none. -/
def spareSlice (s : State) : Nat := objF s 0x60 0xA01 31 28

/-- A slice is retired. -/
def sliceFailed (s : State) (k : Nat) : Bool := objF s 0x60 0xA01 (19 + k) (19 + k) == 1

-- Results.

/-- The mains cycle count at an instant (R383). -/
def cycleAt (s : State) (t : Nat) : Nat :=
  let back := fun (c : Nat) (n : Nat) => n + (if s.clk.p = 0 then 0 else cdiv (c - 256 * t) s.clk.p)
  match s.clk.c with
  | none => s.clk.cycle.toNat
  | some c =>
    let n := if c ≤ 256 * t then 0
      else match s.clk.hist.findIdx? (fun h => decide (h.1 ≤ 256 * t)) with
        | some i => i + 1
        | none => back ((s.clk.hist.getLastD (c, 0)).1) s.clk.hist.length
    (s.clk.cycle - BitVec.ofNat 32 n).toNat

/-- The result writer forms a record and offers it to the result queue (R383): RSEQ counts it, stored or not. -/
def resultWrite (ty k ch gain entry tags tb : Nat) (data : Bytes) (s : State) : State :=
  let b := beBytes 2 s.meas.rseq.toNat ++ beBytes 1 (16 * ty + k) ++ beBytes 1 (8 * ch + gain) ++ beBytes 1 entry
    ++ beBytes 1 tags ++ beBytes 2 (cycleAt s tb) ++ beBytes 8 tb ++ slice data 0 16
  let s := setMeas (fun m => { m with
    rseq := m.rseq + 1, last := if ty = 0 then smPut (fun _ => []) ch b m.last else m.last }) s
  (qWord 0x69 (beNat b) s).1

/-- A record of slice k reaches the result writer through the slice's crossing queue 0x60 + k (02 R37, R383), its 16 bytes of
data in two words; a record lost there shows in that queue's DROPS alone. -/
def result (ty k ch gain entry tags tb : Nat) (data : Bytes) (s : State) : State :=
  let x := qStream (0x60 + k) (words64 (slice data 0 16)) s
  if x.2.isEmpty then x.1
  else resultWrite ty k ch gain entry tags tb (x.2.flatMap (beBytes 8)) x.1

/-- Mains tracking stands outside LOCKED, SLEW and CHAIN (HOLD). -/
def tracksOut (s : State) : Bool := !(s.clk.track == .locked || s.clk.track == .slew || s.clk.track == .chain)

/-- The RMS of an interval after an offset in fine codes is taken out (R379). -/
def rmsLess (d : Interval) (o : Rat) : Rat := sqrtQ (d.rms * d.rms - 2 * o * d.mean + o * o)

/-- A metrology result (R379): MEAN, RMS, MAX and MIN with the channel's coefficients. -/
def metrology (w : W32) (d : Interval) : Rat × Rat × Rat × Rat :=
  let g : Rat := fget w 31 14 / 2 ^ 17
  let o : Rat := 16 * signedOf 10 (fget w 9 0)
  (g * (d.mean - o), g * rmsLess d o, g * (d.max - o / 256), g * (d.min - o / 256))

/-- Tracking has stood outside LOCKED, SLEW and CHAIN since the interval of slice k began (HOLD). -/
def heldOver (s : State) (k : Nat) : Bool :=
  (sliceOf s k).hold || tracksOut s || (match s.clk.outTb with | some t => decide ((sliceOf s k).start ≤ t) | none => false)

/-- TAGS of a result of a slice. -/
def measTags (s : State) (k : Nat) (w : W32) (settle ovr cut uncal : Bool) : Nat :=
  let x := sliceOf s k
  128 * b2n settle + 64 * b2n ovr + 32 * b2n (heldOver s k) + 16 * b2n cut + 8 * b2n uncal
    + 4 * b2n x.trig + 2 * fget w 5 5

/-- The coefficients of the channel are in force for a gain code (R379); a metrology result without them carries UNCAL. -/
def calGood (s : State) (ch : Nat) (cfg : W32) : Bool :=
  let cal := getObj s 0x60 (0xA20 + ch)
  fget cal 10 10 == 1 && fget cal 13 11 == chGain cfg

/-- An n-byte field of a record. A figure beyond its range has no stated result (log 142). -/
def figBytes (n : Nat) (signed : Bool) (rule : Nat) (v : Int) : Bytes :=
  let fits : Bool := if signed then decide (-(2 ^ (8 * n - 1)) ≤ v ∧ v < 2 ^ (8 * n - 1)) else decide (0 ≤ v ∧ v < 2 ^ (8 * n))
  beBytes n (toBits (8 * n) (if fits then v else Config.figure rule [v, n]))

/-- The CYCLE record of an interval that began at TB a (R364, R379, R383). -/
def cycleRecord (k i : Nat) (w : W32) (cut : Bool) (a : Rat) (d : Interval) (s : State) : State :=
  let ch := eCh w
  let cfg := ((sliceOf s k).set.getD (ch, 0)).2
  let metro := fget w 5 5 == 1
  let good := calGood s ch cfg
  let r := if metro && good then metrology (getObj s 0x60 (0xA20 + ch)) d else (d.mean, d.rms, (d.max : Rat), (d.min : Rat))
  result 0 k ch (chGain cfg) i (measTags s k w false (decide (0 < d.overs)) cut (metro && !good)) (roundAny 3831 a).toNat
    (figBytes 3 true 379 (roundAny 364 r.1) ++ figBytes 3 false 3791 (roundAny 364 r.2.1)
      ++ figBytes 2 true 3792 (roundAny 364 r.2.2.1) ++ figBytes 2 true 3793 (roundAny 364 r.2.2.2)
      ++ beBytes 2 d.nfine ++ beBytes 2 d.overs ++ [0, 0]) s

/-- The WAVE records of fine outputs, five to a record (R366, R367, R383); a run that is cut marks its last. -/
def waveRecords (k i : Nat) (w : W32) (cut : Bool) (outs : List MeasOut) (s : State) : State :=
  let ch := eCh w
  let cfg := ((sliceOf s k).set.getD (ch, 0)).2
  let uncal := fget w 5 5 == 1 && !calGood s ch cfg
  let n := cdiv outs.length 5
  (List.range n).foldl (fun s j =>
    let v := (outs.drop (5 * j)).take 5
    let data := slice (v.flatMap (fun o => beBytes 3 (toBits 24 o.x))) 0 15 ++ beBytes 1 v.length
    result 1 k ch (chGain cfg) i (measTags s k w (v.any (·.settle)) (v.any (·.ovr)) (cut && j + 1 == n) uncal)
      ((v.headD default).tb).toNat data s) s

-- The sequencer.

/-- Loop entries (R365): in use, not TRIG_ONLY, at or below the first with LAST. -/
def loopEntries (s : State) : List Nat :=
  let last := ((List.range 64).find? (fun i => eLast (seqEnt s i))).getD 63
  (List.range 64).filter (fun i => decide (i ≤ last) && eEn (seqEnt s i) && !eTrig (seqEnt s i))

/-- Entries of a triggered run (R372). -/
def trigEntries (s : State) : List (Nat × W32) :=
  (List.range 64).filterMap (fun i => let w := seqEnt s i; if eEn w && eTrig w then some (i, w) else none)

/-- A continuous entry runs already. -/
def contRuns (s : State) (i : Nat) : Bool :=
  (List.range 9).any (fun k => let x := sliceOf s k; !x.stop && !x.ending && (match x.entry with
    | some (j, w) => j == i && eCont w | none => false))

/-- The slice of an entry is free (R365). -/
def sliceFree (s : State) (w : W32) : Bool :=
  let k := mapOf s (eLog w)
  k != 15 && (sliceOf s k).entry.isNone && !(sliceOf s k).calib

/-- The sequencer passes over an entry (R367, R378). -/
def passedOver (s : State) (i : Nat) : Bool :=
  let w := seqEnt s i
  mapOf s (eLog w) == 15 || (eCont w && contRuns s i) || s.meas.due.contains i

/-- The spare takes the setting of slice k: its input switches, and t_AS later its Sieve resets (R366, R377). -/
def spareFollows (k : Nat) (s : State) : State :=
  let p := spareSlice s
  let t := now s + 8192
  if p = 15 then s else setSlice p (fun y => { y with set := (sliceOf s k).set, resetTb := t }) s

/-- Step 1 of R366 on slice k: switch where the setting differs, else go straight to DELAY, which starts now. A spare that is
to relieve the slice is set up again (R377). -/
def startOn (k : Nat) (w : W32) (s : State) : State :=
  let ch := eCh w
  let s := adopt 0x60 (0xA08 + ch) s
  let new := (ch, getObj s 0x60 (0xA08 + ch))
  let same : Bool := match (sliceOf s k).set with | some o => sameSet o new | none => false
  let out := tracksOut s
  let ph : MeasPh := if !same then .switching else if eCont w && eMode w == 3 then .run else .delay
  let s := setSlice k (fun x => { x with
    ph := ph, set := some new, hold := out, cut := false, stop := false, ending := false, start := now s }) s
  if !same && s.meas.rot == some k then spareFollows k s else s

/-- An entry issues on its slice (R366). -/
def issueEntry (i : Nat) (w : W32) (trig : Bool) (s : State) : State :=
  let k := mapOf s (eLog w)
  let n := if eMode w = 3 then 1 else eRepeat w
  startOn k w (setSlice k (fun x => { x with entry := some (i, w), trig := trig, left := n }) s)

/-- The first entry that fails the checks of R368, over a table as it would be. -/
def seqBad (s : State) (t : Nat → W32) : Option Nat :=
  (List.range 64).find? (fun i =>
    let w := t i
    eEn w && (decide (23 < eCh w) || (eCont w && eTrig w) || mapOf s (eLog w) == 15
      || (List.range 64).any (fun j => j != i && eEn (t j) && eLog (t j) == eLog w && (eCont w || eCont (t j))
        && (decide (j < i) || !eCont w || eCont (t j)))))

/-- A continuous entry of the old table ends (R368, R370): at the next phase-0x4000 instant, or at once before the first
MAINS_LOCK. -/
def endCont (k : Nat) (s : State) : State :=
  if s.clk.lockSeen then setSlice k (fun x => { x with ending := true }) s
  else if (sliceOf s k).ph = .run then setSlice k (fun x => { x with cut := true, stop := true }) s
  else setSlice k (fun x => { x with entry := none, ph := .idle }) s

/-- Channels that mains tracking uses and no continuous entry converts (R380). -/
def unserved (s : State) : List Nat :=
  ([refCh s] ++ (if altEn s then [altCh s] else [])).filter (fun c =>
    !(List.range 64).any (fun i => eCont (seqEnt s i) && eCh (seqEnt s i) == c))

/-- A loop start (R368): a written table is checked and adopted, or rejected. -/
def loopStart (s : State) : State :=
  let s := setMeas (fun m => { m with next := 0, loopNew := false }) (bumpF 0x60 0xA02 31 16 1 s)
  if !s.meas.dirty then s
  else
    -- an entry written in this very clock waits for the next loop start (14 R408)
    let s := setMeas (fun m => { m with dirty := (List.range 64).any (fun i => (lateOld s 0x60 (0xA40 + i)).isSome) }) s
    match seqBad s (fun i => (dueVal s 0x60 (0xA40 + i)).getD (seqEnt s i)) with
    | some i => raise 55 0x60 .measSeqReject (beBytes 1 i) (bumpF 0x60 0xA02 11 8 1 s)
    | none =>
      let old := (List.range 64).map (seqEnt s)
      let s := adoptBound .measLoop s
      let moved := fun i => decide (seqEnt s i ≠ old.getD i 0)
      let s := (List.range 9).foldl (fun s k => match (sliceOf s k).entry with
        | some (i, w) => if eCont w && (moved i || decide (seqEnt s i ≠ w)) then endCont k s else s
        | none => s) s
      let due := (List.range 64).filter (fun i => eCont (seqEnt s i) && !contRuns s i)
      let s := setMeas (fun m => { m with due := due }) s
      inTurn 55 (fun c s => raise 55 0x60 .measRefUnserved (beBytes 1 c) s) (unserved s) s

/-- TRIG_BUSY, TRIG_PEND and NEXT. -/
def seqStatus (s : State) : State :=
  let l := loopEntries s
  let n := ((l.find? (fun i => decide (s.meas.next ≤ i))).getD (l.headD 0))
  setF 0x60 0xA01 17 17 (b2n s.meas.run.isSome) (setF 0x60 0xA01 16 16 (b2n s.meas.pend) (setF 0x60 0xA01 15 10 n s))

/-- A triggered run has issued its last entry (R373, R374). -/
def runEnds (s : State) : State :=
  setMeas (fun m => { m with run := if m.pend && !(trigEntries s).isEmpty then some none else none, pend := false }) s

/-- The next entry of a triggered run (R373). -/
def issueRun (l : List (Nat × W32)) (s : State) : State :=
  let l := l.dropWhile (fun e => mapOf s (eLog e.2) == 15)
  match l with
  | [] => runEnds s
  | (i, w) :: rest =>
    if sliceFree s w then
      let s := issueEntry i w true (setMeas (fun m => { m with run := some (some rest) }) s)
      if rest.isEmpty then runEnds s else s
    else setMeas (fun m => { m with run := if (match m.run with | some (some _) => true | _ => false) then some (some l)
        else m.run }) s

/-- The next loop entry (R365); a new loop begins where none is left. -/
def issueLoop (s : State) : State :=
  let rest := fun s : State => (loopEntries s).filter (fun i => decide (s.meas.next ≤ i) && !passedOver s i)
  let idleLoop := (loopEntries s).all (fun i => passedOver s i)
  let s := if s.meas.loopNew ∨ ((rest s).isEmpty ∧ (!idleLoop ∨ s.meas.dirty)) then loopStart s else s
  match s.meas.due.find? (fun i => sliceFree s (seqEnt s i)) with
  | some i => issueEntry i (seqEnt s i) false (setMeas (fun m => { m with due := m.due.erase i }) s)
  | none => match rest s with
    | [] => s
    | i :: _ =>
      if sliceFree s (seqEnt s i) then issueEntry i (seqEnt s i) false (setMeas (fun m => { m with next := i + 1 }) s) else s

/-- The sequencer issues what it can (R365, R368, R373): a continuous entry of a new table first, then the triggered run,
then the loop. -/
def execSeqEntryIssue (s : State) : Host.Outcome State Fault Refusal :=
  .next (if !measUp s || !measRun s || (List.range 9).all (fun k => (sliceOf s k).calib || sliceFailed s k) then s
    else seqStatus (match s.meas.due.find? (fun i => sliceFree s (seqEnt s i)) with
      | some i => issueEntry i (seqEnt s i) false (setMeas (fun m => { m with due := m.due.erase i }) s)
      | none => match s.meas.run with
        | some none => issueRun (trigEntries s) s
        | some (some l) => issueRun l s
        | none => issueLoop s))

/-- MEAS_CH word that slice k converts under; a continuous WAVE entry. -/
def sliceCfg (s : State) (k : Nat) : W32 := match (sliceOf s k).set with | some e => e.2 | none => 0
def contWave (s : State) (k : Nat) : Bool := match (sliceOf s k).entry with | some (_, w) => eCont w && eMode w == 3 | none => false

/-- The synchronising reset, 20.48 µs after the switch (R361, R366). A continuous WAVE entry delivers from its first fine
output on (R367). -/
def execSliceSyncReset (sl : Fin 9) (s : State) : Host.Outcome State Fault Refusal :=
  let k := sl.val
  .next (if (sliceOf s k).ph = .switching ∧ (sliceOf s k).start + 8192 ≤ now s then
      let s := setSlice k (fun x => { x with ph := .settling, resetTb := now s }) s
      setSlice k (fun x => { x with start := measFineTb s k (sliceCfg s k) 0 }) s
    else s)

/-- The TB of the first fine output without SETTLE of a slice (R362, R363). -/
def cleanTb (s : State) (k : Nat) : Int :=
  (sliceOf s k).resetTb + 64 * (measSettle (sliceCfg s k) - 1 : Nat) - measDelay (sliceCfg s k)

/-- That output has been computed. -/
def cleanNow (s : State) (k : Nat) : Bool := decide ((sliceOf s k).resetTb + 64 * (measSettle (sliceCfg s k) - 1) ≤ now s)

/-- The first fine output without SETTLE (R366, R367): DELAY starts at its TB; a continuous WAVE entry runs. -/
def execSliceSettled (sl : Fin 9) (s : State) : Host.Outcome State Fault Refusal :=
  let k := sl.val
  .next (if (sliceOf s k).ph = .settling ∧ cleanNow s k then
      if contWave s k then setSlice k (fun x => { x with ph := .run }) s
      else setSlice k (fun x => { x with ph := .delay, start := cleanTb s k }) s
    else s)

/-- How long an interval of an entry, or its WAVE run, lasts from TB a on (R364, R366). -/
def entrySpan (s : State) (w : W32) (a : Rat) : Rat :=
  (if eMode w = 0 then 1 else if eMode w = 1 then 2 else if eMode w = 2 then 10 else eRepeat w : Nat) * periodAt s a.floor.toNat

/-- DELAY ends: the first interval begins there (R366). -/
def execEntryDelayEnd (sl : Fin 9) (s : State) : Host.Outcome State Fault Refusal :=
  let k := sl.val
  let x := sliceOf s k
  let w := match x.entry with | some e => e.2 | none => 0
  let a := x.start + 40000 * fget w 15 8
  .next (if x.ph = .delay ∧ a ≤ now s then
      setSlice k (fun x => { x with ph := .run, hold := tracksOut s, start := a, till := a + entrySpan s w a }) s
    else s)

/-- A slice is free. -/
def freeSlice (k : Nat) (s : State) : State :=
  setSlice k (fun x => { x with entry := none, trig := false, ph := .idle, cut := false, stop := false, ending := false, left := 0 }) s

/-- The entry of a slice goes on after an interval (R366, R367, R370, R378): what was cut ends or starts again; else the next
interval begins where this one ended, unless it was the last. -/
def intervalNext (k : Nat) (w : W32) (s : State) : State :=
  let x := sliceOf s k
  if x.cut then (if x.stop then freeSlice k s else startOn k w s)
  else if eRepeat w ≠ 0 ∧ x.left ≤ 1 then freeSlice k s
  else setSlice k (fun x => { x with
    left := x.left - 1, hold := tracksOut s, start := x.till, till := x.till + entrySpan s w x.till }) s

/-- The fine outputs of a WAVE entry that become records now: those of a run once it has ended or is cut, else whole records
of what a continuous entry has delivered (R366, R367). -/
def waveReady (s : State) (k : Nat) (w : W32) (fine : List MeasOut) : List MeasOut :=
  let x := sliceOf s k
  let l := fine.filter (fun o => decide (x.start ≤ o.tb) && (eCont w || decide ((o.tb : Rat) < x.till)))
  if x.cut then l
  else if eCont w then l.take (l.length / 5 * 5)
  else if reaches x.till (fineTicks (sliceCfg s k)) fine then l else []

/-- MEAS_INTERVAL_END (R364, R366 to R368, R370, R378): the record of an interval is written when its last fine output with a
weight has been computed, or when it is cut, over the outputs it holds; WAVE records as their outputs are there. -/
def execMeasIntervalEnd (sl : Fin 9) (rx : ModRx) (s : State) : Host.Outcome State Fault Refusal :=
  .next (let k := sl.val
    let x := sliceOf s k
    match x.entry with
    | none => s
    | some (i, w) =>
      if x.ph ≠ .run ∧ !(contWave s k && x.ph == .settling) then s
      else
        let cfg := sliceCfg s k
        let span := fineTicks cfg
        let fine := measFine s k cfg rx
        if eMode w = 3 then
          let l := waveReady s k w fine
          if l.isEmpty ∧ !x.cut then s
          else
            let s := waveRecords k i w x.cut l s
            if eCont w ∧ !x.cut then
              setSlice k (fun x => { x with hold := tracksOut s, start := x.start + span * l.length }) s
            else intervalNext k w s
        else if !x.cut ∧ !reaches x.till span fine then s
        else intervalNext k w (cycleRecord k i w x.cut x.start (intervalOf x.start x.till span fine (measCoarse s k cfg rx)) s))

/-- A changed MEAS_CH reaches a continuous entry on slice k (R370): the interval in progress ends with CUT. -/
def changeNow (k : Nat) (w : W32) (s : State) : State :=
  if (sliceOf s k).ph = .run then setSlice k (fun x => { x with cut := true }) s else startOn k w s

/-- The phase-0x4000 instant (R368, R370): a continuous entry ends, or takes a MEAS_CH that it does not run under yet. -/
def execPhase4000Instant (s : State) : Host.Outcome State Fault Refusal :=
  .next (if !measUp s || !s.clk.lockSeen then s
    else (List.range 9).foldl (fun s k =>
      let x := sliceOf s k
      match x.entry with
      | some (_, w) =>
        if !eCont w then s
        else if x.ending then
          (if x.ph = .run then setSlice k (fun x => { x with cut := true, stop := true, ending := false }) s else freeSlice k s)
        else if (getShadow s 0x60 (0xA08 + eCh w)).isSome || decide (x.set ≠ some (eCh w, getObj s 0x60 (0xA08 + eCh w))) then
          changeNow k w s
        else s
      | none => s) s)

-- Triggers.

/-- A trigger (R372 to R374), and whether it was accepted. -/
def trigger (source : Nat) (s : State) : State × Bool :=
  if s.meas.pend then
    let s := bumpF 0x60 0xA02 15 12 1 s
    (raise 55 0x60 .measTrigLost (beBytes 1 (objF s 0x60 0xA02 15 12)) s, false)
  else
    let busy := s.meas.run.isSome
    let q := s.meas.trigSeq + 1
    let any := !(trigEntries s).isEmpty
    let s := setMeas (fun m => { m with
      trigSeq := q, pend := busy, run := if busy then m.run else if any then some none else none }) s
    (seqStatus (resultWrite 4 15 0 0 0 4 (now s) (beBytes 2 q.toNat ++ beBytes 1 source ++ beBytes 1 (b2n busy)
      ++ List.replicate 12 0) s), true)

/-- The armed instant falls due (R372). -/
def execTriggerArmedInstant (s : State) : Host.Outcome State Fault Refusal :=
  .next (match s.meas.trigAt with
    | none => s
    | some t =>
      if now s < t.toNat then s
      else
        let s := setMeas (fun m => { m with trigAt := none }) s
        if measUp s && trigEn s && measRun s then (trigger 1 s).1 else s)

/-- What a declared load step does (R381, R382, R372): the event, the STEP record, the trigger, and one period without steps. -/
def stepDeclared (k i : Nat) (w cfg : W32) (d : StepFound) (s : State) : State :=
  let ch := eCh w
  let dir := b2n (!d.rise)
  let s := setSlice k (fun x => { x with quiet := d.till }) s
  let s := raise (56 + k) 0x60 .measLoadStep (beBytes 1 ch ++ beBytes 1 dir ++ beBytes 2 d.change ++ beBytes 8 d.stamp)
    (bumpF 0x60 0xA02 7 0 1 s)
  let s := if objF s 0x60 0xA00 29 29 = 1 then
      result 3 k ch (chGain cfg) i (measTags s k w false false false false) d.stamp
        (beBytes 1 dir ++ beBytes 2 d.change ++ beBytes 2 (phaseAt s d.stamp) ++ List.replicate 11 0) s
    else s
  if fget cfg 23 23 = 1 && trigEn s && measRun s then (trigger 2 s).1 else s

/-- LOAD_STEP_DETECT (R381, R382): on a channel with STEP_EN that a continuous entry converts. -/
def execLoadStepDetect (sl : Fin 9) (rx : ModRx) (s : State) : Host.Outcome State Fault Refusal :=
  .next (let k := sl.val
    let x := sliceOf s k
    match x.entry, stepFound s k (sliceCfg s k) rx with
    | some (i, w), some d =>
      if !measUp s || !eCont w || !(x.ph == .run || x.ph == .delay || x.ph == .settling) || fget (sliceCfg s k) 24 24 == 0 then s
      else stepDeclared k i w (sliceCfg s k) d s
    | _, _ => s)

-- Calibration and rotation.

/-- ROTATING of MEAS_STATUS. -/
def rotStatus (s : State) : State :=
  setF 0x60 0xA01 18 18 (b2n (s.meas.rot.isSome || (List.range 9).any (fun k => (sliceOf s k).calib))) s

/-- The active slice whose calibration is the oldest, the first in logical order of those alike (13 R377). -/
def oldestSlice (s : State) : Option Nat :=
  let act := (List.range 8).filterMap (fun l => if mapOf s l = 15 then none else some (mapOf s l))
  act.foldl (fun (a : Option Nat) k => match a with
    | none => some k
    | some b => if (sliceOf s k).calTb.toNat < (sliceOf s b).calTb.toNat then some k else some b) none

/-- A rotation begins (R377): the active slice whose calibration is the oldest is to be relieved. -/
def execSliceRotation (s : State) : Host.Outcome State Fault Refusal :=
  .next (if !measUp s || objF s 0x60 0xA00 28 28 == 0 || spareSlice s == 15 || objF s 0x60 0xA01 18 18 == 1
        || objF s 0x60 0xA01 9 9 == 1 then s
    else
      let s := rotStatus (setMeas (fun m => { m with rot := oldestSlice s }) s)
      match s.meas.rot with | some k => spareFollows k s | none => s)

/-- The logical slice l is served by physical slice k. -/
def setMap (l k : Nat) (s : State) : State := setF 0x60 0xA03 (4 * l + 3) (4 * l) k s

/-- The spare may take slice k's place (R377): its setting is k's, its outputs are clean from the start of the interval in
progress on (log 129), and for a continuous entry its one-cycle store is full. -/
def spareReady (s : State) (k : Nat) : Bool :=
  let p := spareSlice s
  let x := sliceOf s k
  let same := match x.set, (sliceOf s p).set with | some a, some b => sameSet a b | none, _ => true | _, _ => false
  let cont := match x.entry with | some (_, w) => eCont w | none => false
  x.set.isNone || (same && cleanNow s p && (x.ph == .idle || (x.ph == .run && decide ((cleanTb s p : Rat) ≤ x.start)))
    && (!cont || decide ((cleanTb s p : Rat) + periodAt s (now s) ≤ now s)))

/-- The exchange at a result boundary (R377): the spare goes on with the entry; the relieved slice calibrates. -/
def execRotationExchange (s : State) : Host.Outcome State Fault Refusal :=
  .next (match s.meas.rot with
    | none => s
    | some k =>
      let p := spareSlice s
      match logOf s k with
      | none => s
      | some l =>
        if p = 15 ∨ (sliceOf s k).cut ∨ !spareReady s k then s
        else
          let x := sliceOf s k
          let s := setSlice p (fun y => { x with calib := false, calTb := y.calTb, cal := y.cal, resetTb := y.resetTb }) s
          let s := setSlice k (fun y => { y with
            entry := none, trig := false, ph := .idle, set := none, ending := false, cut := false, stop := false, calib := true }) s
          rotStatus (setF 0x60 0xA01 31 28 15 (setMap l p (setMeas (fun m => { m with rot := none, relieved := some k }) s))))

/-- A slice is retired (R378): the spare takes its entry over; the interval in progress is written with CUT. -/
def retireSlice (k reason : Nat) (s : State) : State :=
  if sliceFailed s k then s
  else
    let s := raise (56 + k) 0x60 .measSliceFail (beBytes 1 k ++ beBytes 1 reason) (setF 0x60 0xA01 (19 + k) (19 + k) 1 s)
    let s := setMeas (fun m => { m with rot := none, relieved := if m.relieved = some k then none else m.relieved }) s
    let s := setSlice k (fun x => { x with calib := false }) s
    if spareSlice s = k then rotStatus (setF 0x60 0xA01 31 28 15 s)
    else match logOf s k with
      | none => rotStatus s
      | some l =>
        let p := spareSlice s
        let x := sliceOf s k
        let s := setF 0x60 0xA01 31 28 15 (setMap l p s)
        -- what the retired slice holds is written with CUT, then nothing more
        let s := if x.ph = .run then setSlice k (fun x => { x with cut := true, stop := true, ending := false }) s else freeSlice k s
        rotStatus (match x.entry with
          | none => s
          | some (_, w) =>
            if p = 15 then s
            else if eMode w = 3 ∧ eRepeat w ≠ 0 ∧ x.ph = .run then s
            else
              let left := if x.ph = .run ∧ eRepeat w ≠ 0 then x.left - 1 else x.left
              if eRepeat w ≠ 0 ∧ left = 0 then s
              else startOn p w (setSlice p (fun y => { y with
                entry := x.entry, trig := x.trig, left := left, set := none }) s))

/-- A slice fails (R378): 0 offset, 1 gain, 2 stuck output. -/
def execSliceRetire (sl : Fin 9) (reason : Fin 3) (s : State) : Host.Outcome State Fault Refusal :=
  .next (if measUp s then retireSlice sl.val reason.val s else s)

/-- Offset and scale of a gain code from the means of the modulator's ±1 output at zero, +0.9 FS and −0.9 FS (R375, R376). -/
def calOf (m : Rat × Rat × Rat) : Rat × Rat := (m.1, if m.2.1 = m.2.2 then 0 else 14400000 / (m.2.1 - m.2.2))

/-- A slice has calibrated (R375 to R378): its correction; an offset beyond ±2 % FS or a gain error beyond ±2 % retires it. The
gain that the error is counted from is the slice's own (log 130). -/
def execSliceCalibrationDone (sl : Fin 9) (refs : Vector (Rat × Rat × Rat) 5) (gainBad : Bool) (s : State) :
    Host.Outcome State Fault Refusal :=
  .next (let k := sl.val
    if !(sliceOf s k).calib ∨ !measUp s then s
    else
      let t := s.clk.tb
      let c := refs.map calOf
      let s := setSlice k (fun x => { x with calib := false, calTb := t, cal := c }) s
      if c.toList.any (fun e => decide (160000 < e.1 * e.2) || decide (e.1 * e.2 < -160000)) then retireSlice k 0 s
      else if gainBad then retireSlice k 1 s
      else if s.meas.relieved = some k then
        rotStatus (setF 0x60 0xA01 31 28 k (setMeas (fun m => { m with relieved := none }) s))
      else rotStatus s)

/-- The subsystem starts after a reset of FUNC 0x60 or a power-up of PD_MEAS (R375): all slices calibrate. -/
def measBegin (s : State) : State :=
  let z := (List.range 9).foldl (fun s k => setSlice k (fun x => { x with
    entry := none, trig := false, ph := .idle, set := none, left := 0, hold := false, ending := false, cut := false
    stop := false, calib := !sliceFailed s k }) s) s
  rotStatus (seqStatus (setMeas (fun m => { m with
    next := 0, loopNew := true, due := [], run := none, pend := false, trigAt := none, last := [], cross := [], rot := none
    relieved := none }) z))

-- Crossings.

/-- The slice whose continuous entry supplies the crossings of a channel (R380): the entry with the lowest index. -/
def crossSlice (s : State) (ch : Nat) : Option (Nat × Nat) :=
  ((List.range 9).filterMap (fun k => let x := sliceOf s k
    match x.entry with
    | some (i, w) => if eCont w && eCh w == ch && (x.ph == .run || x.ph == .delay || x.ph == .settling) then some (i, k) else none
    | none => none)).foldl (fun (a : Option (Nat × Nat)) e => match a with
      | none => some e
      | some b => if e.1 < b.1 then some e else some b) none

/-- A CROSS record, and the time of the capture (R380). -/
def crossRecord (ch i k stamp : Nat) (s : State) : State :=
  let prev := smGet (fun _ => 0) s.meas.cross ch
  let s := setMeas (fun m => { m with cross := smPut (fun _ => 0) ch stamp m.cross }) s
  if objF s 0x60 0xA00 30 30 = 0 then s
  else
    let w := seqEnt s i
    result 2 k ch (chGain ((sliceOf s k).set.getD (ch, 0)).2) i (measTags s k w false false false false) stamp
      ((if prev = 0 then beBytes 4 (toBits 32 (Config.figure 380 [stamp])) else figBytes 4 false 3801 (stamp - prev)) ++ List.replicate 12 0) s

/-- The corrected coarse outputs without SETTLE of a slice, each with its TB (R369, R380). -/
def crossOuts (s : State) (k : Nat) (rx : ModRx) : List (Nat × Int) :=
  ((measCoarse s k (sliceCfg s k) rx).filter (fun o => !o.settle)).map (fun o => (o.tb.toNat, o.x))

/-- MAINS_CROSSING_CAPTURE (02 R43, R44, R380): a crossing in the coarse outputs of a channel of mains tracking, from the
running continuous entry that supplies it. -/
def execMainsCrossingCapture (ch : Fin 24) (rx : ModRx) (s : State) : Host.Outcome State Fault Refusal :=
  .next (if !measUp s ∨ !(ch.val = refCh s ∨ ((altEn s || s.clk.onAlt) ∧ ch.val = altCh s)) then s
    else match crossSlice s ch.val with
      | none => s
      | some (i, k) => match crossingIn (hyst s) (crossOuts s k rx) with
        | some stamp => captureClock ch.val stamp (crossRecord ch.val i k stamp s)
        | none => s)

-- Commands and forwarding.

/-- n records leave the result queue, oldest first. -/
def popResults : Nat → State → State × List Bytes
  | 0, s => (s, [])
  | n + 1, s =>
    if qLevel (qSize 0x69) (getQ s 0x69) = 0 then (s, [])
    else
      let r := qRead1 0x69 s
      let t := popResults n r.1
      (t.1, beBytes 32 r.2.toNat :: t.2)

/-- Some core takes the records (16 R451). -/
def measFwd (s : State) : List Nat := (List.range 4).filter (fun n => objF s (0x70 + n) 0xC02 19 19 == 1)

/-- Records gathered for a core leave as one packet (16 R447). -/
def sendMeas (n : Nat) (s : State) : State :=
  let l := (coreOf s n).meas.take 16
  if l.isEmpty then s
  else
    let r := qPush (0x10 + n) 0x16 false 4 l.flatten s
    let t := s.clk.tb
    let s := setCore n (fun c => { c with meas := c.meas.drop 16, measTb := t }) r.1
    if r.2 = .stored then s else bumpF (0x70 + n) 0xC04 15 4 1 s

/-- The management controller moves the records to the cores that ask for them (16 R447, R451): a packet leaves at 16
records, or 1 ms after its first. -/
def execMeasForward (s : State) : Host.Outcome State Fault Refusal :=
  .next (let fw := measFwd s
    if fw.isEmpty ∨ s.pw.mcDown then s
    else
      let r := popResults 512 s
      let t := r.1.clk.tb
      fw.foldl (fun s n =>
        let s := setCore n (fun c => { c with meas := c.meas ++ r.2, measTb := if c.meas.isEmpty then t else c.measTb }) s
        let full := (coreOf s n).meas.length / 16
        let s := (List.range full).foldl (fun s _ => sendMeas n s) s
        let c := coreOf s n
        if !c.meas.isEmpty ∧ c.measTb.toNat + 400000 ≤ now s then sendMeas n s else s) r.1)

/-- MEAS_READ (R383): none while a core takes the records (16 R451). -/
def execMeasRead (r : Req) (s : State) : Host.Outcome State Fault Refusal :=
  let n := byteAt r.params 0
  .next (execReq 0xA01 r (r.func == 0x60) (lenAnd r 4 (chk (decide (1 ≤ n ∧ n ≤ 64)) 0)) (funcDown s 0x60)
    (fun s =>
      if !(measFwd s).isEmpty then .reply stDone [] s
      else
        let p := popResults n s
        .reply stDone p.2.flatten p.1) s)

/-- MEAS_TRIGGER (R372, R374). -/
def execMeasTrigger (r : Req) (s : State) : Host.Outcome State Fault Refusal :=
  .next (execReq 0xA02 r (r.func == 0x60) (lenIs r 0) (funcDown s 0x60)
    (fun s =>
      if !(trigEn s && measRun s) then refuse stNotInState noField s
      else
        let t := trigger 0 s
        if t.2 then .reply stAccepted [] t.1 else refuse stNoResource noField t.1) s)

/-- MEAS_TRIG_AT (R372): it replaces an armed instant; one already passed fires at once. -/
def execMeasTrigAt (r : Req) (s : State) : Host.Outcome State Fault Refusal :=
  .next (execReq 0xA03 r (r.func == 0x60) (lenIs r 8) (funcDown s 0x60)
    (fun s =>
      let t := beAt r.params 0 8
      if !(trigEn s && measRun s) then refuse stNotInState noField s
      else if t ≤ now s then .reply stAccepted [] (trigger 1 (setMeas (fun m => { m with trigAt := none }) s)).1
      else .reply stAccepted [] (setMeas (fun m => { m with trigAt := some (BitVec.ofNat 64 t) }) s)) s)

/-- The spare converts channel ch for a number of cycles from its first clean output on (R379, log 129). -/
def syscalStarts (ch cycles : Nat) (s : State) : State :=
  let p := spareSlice s
  let w := getObj s 0x60 (0xA08 + ch)
  let s := setSlice p (fun y => { y with set := some (ch, w), resetTb := now s + 8192 }) s
  let a := cleanTb s p
  setF 0x60 0xA01 9 9 1 (setSlice p (fun y => { y with start := a, till := a + cycles * periodAt s (now s) }) s)

/-- MEAS_SYSCAL (R379): deferred, on the spare slice. -/
def execMeasSyscal (r : Req) (s : State) : Host.Outcome State Fault Refusal :=
  let p := r.params
  .next (execReq 0xA04 r (r.func == 0x60)
    (lenAnd r 8 (firstBad (chk (decide (byteAt p 0 ≤ 23)) 0) (firstBad (chk (decide (byteAt p 1 ≤ 1)) 1)
      (chk (decide (1 ≤ byteAt p 2)) 2)))) (funcDown s 0x60)
    (fun s =>
      if objF s 0x60 0xA01 18 18 = 1 ∨ objF s 0x60 0xA01 9 9 = 1 then refuse stFunctionRunning noField s
      else if spareSlice s = 15 then refuse stNoResource noField s
      else deferIf r [byteAt p 0, byteAt p 1, byteAt p 2, beAt p 5 3] s (syscalStarts (byteAt p 0) (byteAt p 2))) s)

/-- The answer of MEAS_SYSCAL: mean, RMS and the object's new value. -/
def syscalAnswer (d : Deferred) (st : W16) (id : Nat) (r : Interval) (s : State) : State :=
  finish d st (if st = stDone then beBytes 4 (toBits 32 (roundAny 379 r.mean)) ++ beBytes 4 (toBits 32 (roundAny 379 r.rms))
    ++ beBytes 4 (getObj s 0x60 id).toNat else beBytes 4 noField) (setF 0x60 0xA01 9 9 0 s)

/-- What MEAS_SYSCAL stores for channel ch (R379): the offset step OFS, the gain step GAIN; out of range the object is left as
it was. -/
def syscalStore (ch step target : Nat) (r : Interval) (s : State) : State × W16 :=
  let id := 0xA20 + ch
  let gc := chGain (getObj s 0x60 (0xA08 + ch))
  if step = 0 then
    if 8176 < r.mean ∨ r.mean < -8176 then (s, stCalRange)
    else (setF 0x60 id 13 11 gc (setF 0x60 id 9 0 (toBits 10 (roundAny 3791 (r.mean / 16))) s), stDone)
  else
    let a := rmsLess r (16 * signedOf 10 (objF s 0x60 id 9 0))
    if a ≤ 0 ∨ 4 * (target : Rat) < 3 * a ∨ 5 * a < 4 * (target : Rat) then (s, stCalRange)
    else (setF 0x60 id 10 10 1 (setF 0x60 id 13 11 gc
      (setF 0x60 id 31 14 (toBits 18 (roundAny 3790 (2 ^ 17 * target / a))) s)), stDone)

/-- MEAS_SYSCAL_DONE (R379): the cycles asked for have been measured on the spare; one that has been lost ends the command. -/
def execMeasSyscalDone (rx : ModRx) (s : State) : Host.Outcome State Fault Refusal :=
  .next (match findDeferred 0xA04 0x60 s with
    | none => s
    | some d =>
      let p := spareSlice s
      let ch := d.aux.getD 0 0
      if p = 15 then finish d stNoResource (beBytes 4 noField) (setF 0x60 0xA01 9 9 0 s)
      else
        let x := sliceOf s p
        let w := sliceCfg s p
        let fine := measFine s p w rx
        if !reaches x.till (fineTicks w) fine then s
        else
          let r := intervalOf x.start x.till (fineTicks w) fine (measCoarse s p w rx)
          let t := syscalStore ch (d.aux.getD 1 0) (d.aux.getD 3 0) r s
          syscalAnswer d t.2 (0xA20 + ch) r t.1)

/-- MEAS_LAST: the last CYCLE record of a channel. -/
def execMeasLast (r : Req) (s : State) : Host.Outcome State Fault Refusal :=
  let ch := byteAt r.params 0
  .next (execReq 0xA05 r (r.func == 0x60) (lenAnd r 4 (chk (decide (ch ≤ 23)) 0)) (funcDown s 0x60)
    (fun s =>
      let b := smGet (fun _ => []) s.meas.last ch
      if b.isEmpty then refuse stNoResource noField s else .reply stDone b s) s)

end Sys2Proof.Machine
end

