-- ==== Sys2Proof/Machine/Serial.lean ====
section
/-!
DEFINITION. The serial ports (15): the console receiver and its flow control, lines and frames of Caseri, and the chain
with its messages, forwarding, address assignment and wake.
-/
namespace Sys2Proof.Machine

/-- Replace the console record; the chain record. -/
def setCon (f : ConSt → ConSt) (s : State) : State := { s with con := f s.con }
def setChain (f : ChainSt → ChainSt) (s : State) : State := { s with chain := f s.chain }

/-- The console runs, its ball not taken by the boundary register (19 R498); it is declared stuck (R422). -/
def conUp (s : State) : Bool := !funcDown s 0x68 && !tapHold s && decide (s.phase = .running)
def conStuckNow (s : State) : Bool := objF s 0x68 0xB01 28 28 == 1

/-- The console has a binary frame open; the frame closes (CON_STATUS.FRAME). -/
def frameShut (s : State) : State :=
  setF 0x68 0xB01 27 27 0 (setCon (fun c => { c with frame := none, frameEsc := false, frameBad := false }) s)

/-- Any partial line or open frame is discarded (R422, R427). -/
def lineDrop (s : State) : State :=
  setCon (fun c => { c with line := [], lineBad := false, lineLong := false, lastCr := false, block := [] }) s

-- What Caseri does with the characters of a block (R427, R430).

/-- Echo (R427). -/
def conEcho (b : Bytes) (s : State) : State := if objF s 0x68 0xB00 22 22 = 1 then conSend b s else s

/-- One character inside an open frame (R430). -/
def frameChar (x : Byte) (bad : Bool) (f : Bytes) (s : State) : State :=
  let s := if bad then setCon (fun c => { c with frameBad := true }) s else s
  if s.con.frameEsc then setCon (fun c => { c with frame := some (f ++ [x ^^^ 0x20]), frameEsc := false }) s
  else if x = 0x04 then
    let ok := !s.con.frameBad
    let s := frameShut s
    if ok then setCon (fun c => { c with frames := c.frames ++ [f] }) s else s
  else if x = 0x10 then setCon (fun c => { c with frameEsc := true }) s
  else setCon (fun c => { c with frame := some (f ++ [x]) }) s

/-- A line ends (R427). -/
def lineEnd (s : State) : State :=
  let e := (s.con.line, s.con.lineLong, s.con.lineBad)
  conEcho crlf (setCon (fun c => { c with lines := c.lines ++ [e], line := [], lineBad := false, lineLong := false }) s)

/-- One character of a text line (R427). -/
def lineChar (x : Byte) (bad : Bool) (s : State) : State :=
  let cr := s.con.lastCr
  let s := setCon (fun c => { c with lastCr := false }) s
  let s := if bad then setCon (fun c => { c with lineBad := true }) s else s
  if x = 0x0D ∧ !bad then setCon (fun c => { c with lastCr := true }) (lineEnd s)
  else if x = 0x0A ∧ !bad then (if cr then s else lineEnd s)
  else if (x = 0x08 ∨ x = 0x7F) ∧ !bad then
    if s.con.line.isEmpty then s
    else conEcho [0x08, 0x20, 0x08] (setCon (fun c => { c with line := c.line.dropLast }) s)
  else if 255 ≤ s.con.line.length then setCon (fun c => { c with lineLong := true }) s
  else conEcho [x] (setCon (fun c => { c with line := c.line ++ [x] }) s)

/-- One character with its error mark reaches Caseri; `fresh`: it arrived after idle (R430). -/
def caseriChar (fresh : Bool) (c : BitVec 9) (s : State) : State :=
  let x := c.truncate 8
  let bad := c.getLsbD 8
  match s.con.frame with
  | some f => frameChar x bad f s
  | none =>
    if x = 0x01 ∧ !bad ∧ (fresh ∨ s.con.line.isEmpty) then
      setF 0x68 0xB01 27 27 1
        (setCon (fun c => { c with frame := some [], frameEsc := false, frameBad := false, lastCr := false }) s)
    else lineChar x bad s

/-- The block is handed to Caseri (R424). -/
def handBlock (s : State) : State :=
  let b := s.con.block
  let fresh := s.con.blockIdle
  let s := setCon (fun c => { c with block := [], blockIdle := false }) s
  match b with
  | [] => s
  | h :: t => t.foldl (fun s c => caseriChar false c s) (caseriChar fresh h s)

/-- The service DMA puts one character into the line buffer (R424). -/
def collect (c : BitVec 9) (s : State) : State :=
  let x := c.truncate 8
  let fresh := decide (x = 0x01) && s.con.afterIdle && s.con.frame.isNone
  let s := if fresh then handBlock s else s
  let s := setCon (fun k => { k with block := k.block ++ [c], blockIdle := if k.block.isEmpty then fresh else k.blockIdle }) s
  if x = 0x0D ∨ x = 0x0A ∨ x = 0x04 ∨ 64 ≤ s.con.block.length then handBlock s else s

/-- Caseri takes no further block: a line or frame waits, or the writer waits on queue 0x73 (R424, R425). -/
def caseriBusy (s : State) : Bool :=
  !accepting s || !s.con.lines.isEmpty || !s.con.frames.isEmpty || !s.con.wait.isEmpty

/-- The level of queue 0x72. -/
def conLevel (s : State) : Nat := qLevel 512 (getQ s 0x72)

/-- The held character moves into queue 0x72 where there is room (R423). -/
def holdMove (s : State) : State :=
  match s.con.hold with
  | none => s
  | some c =>
    if conLevel s < 512 && !(getQ s 0x72).heldR291 then
      setCon (fun k => { k with hold := none }) (qWord 0x72 c.toNat s).1
    else s

/-- XOFF at 384 characters, XON at 128, ahead of queued output (R425). -/
def flowOut (s : State) : State :=
  if objF s 0x68 0xB00 23 23 = 0 then s
  else if 384 ≤ conLevel s ∧ objF s 0x68 0xB01 29 29 = 0 then emit (.conText [0x13]) (setF 0x68 0xB01 29 29 1 s)
  else if conLevel s ≤ 128 ∧ objF s 0x68 0xB01 29 29 = 1 then emit (.conText [0x11]) (setF 0x68 0xB01 29 29 0 s)
  else s

/-- The service DMA moves characters from queue 0x72 while Caseri takes blocks (R424). -/
def conDrain (s : State) : State :=
  let s := (List.range (conLevel s + 1)).foldl (fun s _ =>
    if caseriBusy s || conLevel s == 0 then s
    else
      let r := qRead1 0x72 s
      collect (r.2.truncate 9) (holdMove r.1)) s
  flowOut s

/-- The transmitter resumes after an XOFF (R425). -/
def conResume (s : State) : State :=
  let q := (getQ s 0x73).words
  let s := (List.range q.length).foldl (fun s _ => (qRead1 0x73 s).1) s
  let text := q.map (fun w => w.truncate 8) ++ s.con.wait
  let s := setF 0x68 0xB01 30 30 0 (setCon (fun c => { c with wait := [] }) s)
  conDrain (if text.isEmpty then s else emit (.conText text) s)

/-- A character with its mark is stored: the holding register, then queue 0x72 (R423). -/
def conStore (c : BitVec 9) (s : State) : State :=
  let s := match s.con.hold with
    | none => s
    | some _ =>
      let q := getQ s 0x72
      bumpF 0x68 0xB02 31 24 1 (setF 0x68 0xB01 26 26 1 (setQ 0x72 { q with drops := min (q.drops + 1) 0xFFFF } s))
  conDrain (flowOut (holdMove (setCon (fun k => { k with hold := some c }) s)))

/-- The majority of the three samples of a bit (R420, R431). -/
def maj3 (v : BitVec 3) : Bool := decide (2 ≤ b2n v[0] + b2n v[1] + b2n v[2])

/-- Bit i of a sampled character; a line not sampled is high. -/
def bitAt (v : CharSamples) (i : Nat) : Bool := maj3 (v.getD i 7)

/-- The data bits of a sampled character, the least significant first; its parity bit, present under PARITY 1 and 2; its
first stop bit (R419, R420). -/
def conDataBits (cfg : W32) : Nat := if fget cfg 27 27 = 1 then 7 else 8
def conParity (cfg : W32) : Bool := fget cfg 26 25 == 1 || fget cfg 26 25 == 2
def conData (cfg : W32) (v : CharSamples) : Nat :=
  (List.range (conDataBits cfg)).foldl (fun a i => a + 2 ^ i * b2n (bitAt v (i + 1))) 0
def conStop (cfg : W32) (v : CharSamples) : Bool := bitAt v (1 + conDataBits cfg + b2n (conParity cfg))

/-- A start bit whose majority is high is rejected (R420). -/
def conStarts (v : CharSamples) : Bool := !bitAt v 0

/-- A break: data bits, parity and first stop bit all low (R420). -/
def conIsBreak (cfg : W32) (v : CharSamples) : Bool :=
  conStarts v && (List.range (1 + conDataBits cfg + b2n (conParity cfg))).all (fun i => !bitAt v (i + 1))

/-- The parity bit disagrees with PARITY: 1 even, 2 odd (R420). -/
def conParityBad (cfg : W32) (v : CharSamples) : Bool :=
  let ones := ((List.range (conDataBits cfg + 1)).filter (fun i => bitAt v (i + 1))).length
  conParity cfg && decide (ones % 2 + 1 ≠ fget cfg 26 25)

/-- A sampled character as the receiver classifies it (R420): none for a rejected start bit and for a break. -/
def conChar (cfg : W32) (v : CharSamples) : Option ConChar :=
  if !conStarts v || conIsBreak cfg v then none
  else some ⟨BitVec.ofNat 8 (conData cfg v),
    (v.take (2 + conDataBits cfg + b2n (conParity cfg))).any (fun x => x != 0 && x != 7), conParityBad cfg v, !conStop cfg v⟩

/-- A received character (R420, R423, R425). -/
def conTake (c : ConChar) (s : State) : State :=
  let x := c.data
  let par := c.parityErr
  let s := setCon (fun k => { k with afterIdle := objF s 0x68 0xB01 31 31 == 1 }) s
  let s := setF 0x68 0xB01 31 31 0 s
  let s := if c.noise then bumpF 0x68 0xB02 15 8 1 s else s
  let s := if par then bumpF 0x68 0xB02 7 4 1 s else s
  let s := if c.framingErr then bumpF 0x68 0xB02 23 16 1 s else s
  let flow := objF s 0x68 0xB00 23 23 == 1
  if flow && x == 0x13 then setF 0x68 0xB01 30 30 1 s
  else if flow && x == 0x11 then conResume s
  else conStore (BitVec.ofNat 9 (x.toNat + 256 * b2n (c.noise || par || c.framingErr))) s

/-- CON_CHAR_RECEIVE (R420). -/
def execConCharReceive (v : CharSamples) (s : State) : Host.Outcome State Fault Refusal :=
  .next (if !conUp s || conStuckNow s then s
    else match conChar s.con.cfgRx v with
      | none => s
      | some c => conTake c s)

/-- CON_BREAK (R420, R427): the line is low, so it is not idle. -/
def execConBreak (v : CharSamples) (s : State) : Host.Outcome State Fault Refusal :=
  .next (if !conUp s || conStuckNow s || !conIsBreak s.con.cfgRx v then s
    else
      let s := setF 0x68 0xB01 31 31 0 (bumpF 0x68 0xB02 3 0 1 s)
      if s.con.frame.isSome then s else lineDrop s)

/-- CON_IDLE (R421). -/
def execConIdle (s : State) : Host.Outcome State Fault Refusal :=
  .next (if !conUp s || conStuckNow s then s else setF 0x68 0xB01 31 31 1 s)

/-- CON_RX_TIMEOUT (R424): at least one character collected. -/
def execConRxTimeout (s : State) : Host.Outcome State Fault Refusal :=
  .next (if !conUp s || conStuckNow s || objF s 0x68 0xB01 31 31 == 0 || s.con.block.isEmpty then s
    else conDrain (handBlock s))

/-- XOFF_TIMEOUT (R425): as though an XON had been received. -/
def execXoffTimeout (s : State) : Host.Outcome State Fault Refusal :=
  .next (if !conUp s || objF s 0x68 0xB01 30 30 == 0 then s else conResume s)

/-- CON_STUCK (R422, R439). -/
def execConStuck (s : State) : Host.Outcome State Fault Refusal :=
  .next (if !conUp s || conStuckNow s then s
    else raise 65 0x68 .lineStuck [0, 0]
      (frameShut (lineDrop (setF 0x68 0xB01 31 31 0 (setF 0x68 0xB01 28 28 1 s)))))

/-- CON_STUCK_CLEAR (R422). -/
def execConStuckClear (s : State) : Host.Outcome State Fault Refusal :=
  .next (if !conUp s || !conStuckNow s then s
    else raise 65 0x68 .lineStuck [0, 1] (setF 0x68 0xB01 28 28 0 s))

/-- CON_CFG_SWITCH (R426): the direction takes the written value; it is in force once both have. -/
def execConCfgSwitch (tx : Bool) (s : State) : Host.Outcome State Fault Refusal :=
  .next (if !conUp s || s.con.cfgWait then s
    else
      let v := nextObj s 0x68 0xB00
      let s := setCon (fun c => if tx then { c with cfgTx := v } else { c with cfgRx := v }) s
      if s.con.cfgTx = v ∧ s.con.cfgRx = v then adopt 0x68 0xB00 s else s)

-- Caseri (R427 to R430).

/-- The words that HELP lists (R429, and the field words of the other chapters). -/
def helpWords : List String :=
  ["PR", "PW", "PM", "PING", "EVT", "CON?", "CHAIN?", "ASSIGN", "WAKE", "HELP", "ID?", "MAINS?", "HL?", "PORT?", "SOUND",
   "ADMIT", "REMOVE", "BBTX", "BBRX", "NOISE", "DEC?", "CODEC", "NB?", "NBRX", "NBTX", "LINK?", "NODE", "PORTLINK", "TRELLIS?",
   "BANKTEST", "Q?", "CLOCHE?", "CETEST", "BH?", "BHTEST", "BHTRACE", "GRAFT?", "MEAS?", "MEASMAP", "APP?", "PWR?", "THERM?", "LC?", "RESET", "RELEASE", "SERVICE", "METER", "TEST", "LOCATE", "LEDTEST"]

/-- The prefix `@aa ` and the rest of the line (R429): DEST of the requests. -/
def linePrefix (l : Bytes) : Option (Nat × Bytes) :=
  match l with
  | 0x40 :: t =>
    let d := t.takeWhile (· ≠ 0x20)
    match decNum d with
    | some a => if 1 ≤ a ∧ a ≤ 62 ∧ d.length < t.length then some (a, t.drop d.length) else none
    | none => none
  | _ => some (0x80, l)

/-- V of the last record issued, for EVT (14 R417). -/
def lastV (s : State) : Nat := s.aon.epoch.toNat * 2 ^ 32 + lastEsn s

/-- Caseri sends one request of a line, with the next of its TAGs (R428). -/
def askOne (dest : Nat) (words : List Bytes) (q : WordReq) (s : State) : State :=
  let tag := s.con.tag
  let s := setCon (fun c => { c with
    tag := if tag = 0xFFFF then 0xF000 else tag + 1
    asked := c.asked.filter (fun e => e.1 != tag) ++ [(tag, words)] }) s
  receiveCmd .console (cmdPacket q.1 tag.toNat dest q.2.1 0 0 q.2.2) s

/-- What Caseri does with one line (R427 to R429). -/
def caseriText (l : Bytes) (s : State) : State :=
  match linePrefix (l.map upByte) with
  | none => conPrompt (conSend (ascii "ERR SYNTAX" ++ crlf) s)
  | some (dest, rest) =>
    let ws := tokens rest
    if ws = [ascii "HELP"] then conPrompt (conSend (helpWords.flatMap (fun w => ascii w ++ crlf)) s)
    else
      match wordReqs (lastV s) ws with
      | none => conPrompt (conSend (ascii "ERR SYNTAX" ++ crlf) s)
      | some [] => conPrompt s
      | some qs => qs.foldl (fun s q => askOne dest ws q s) s

/-- CASERI_LINE (R427, R428). -/
def execCaseriLine (s : State) : Host.Outcome State Fault Refusal :=
  .next (if !conUp s || !accepting s || !s.con.wait.isEmpty then s
    else match s.con.lines with
      | [] => s
      | (l, long, bad) :: t =>
        let s := setCon (fun c => { c with lines := t }) s
        conDrain (if long then conPrompt (conSend (ascii "ERR LONG" ++ crlf) s)
          else if bad then conPrompt (conSend (ascii "ERR CHAR" ++ crlf) s)
          else caseriText l s))

/-- CASERI_FRAME (R430): step 1 of 14 R387 discards what is no command packet. -/
def execCaseriFrame (s : State) : Host.Outcome State Fault Refusal :=
  .next (if !conUp s || !accepting s || !s.con.wait.isEmpty then s
    else match s.con.frames with
      | [] => s
      | f :: t =>
        let s := setCon (fun c => { c with frames := t }) s
        conDrain (if byteAt f 0 = 0x6B then receiveCmd .console f s else s))

/-- CASERI_FRAME_GAP (R430). -/
def execCaseriFrameGap (s : State) : Host.Outcome State Fault Refusal :=
  .next (if !conUp s then s
    else
      let s := handBlock s
      conDrain (if s.con.frame.isSome then frameShut s else s))

-- The chain (R431 to R439).

/-- The byte of a chain character, most significant bit first; a start bit that is high or a stop bit that is low is a
framing error (R431, R433). -/
def chainByte (v : CharSamples) : Byte := BitVec.ofNat 8 ((List.range 8).foldl (fun a i => 2 * a + b2n (bitAt v (i + 1))) 0)
def chainFraming (v : CharSamples) : Bool := bitAt v 0 || !bitAt v 9

/-- The characters of a message as queues 0x70 and 0x71 hold them: bit 8 marks the first (R432). -/
def chainWords (m : Bytes) : List Nat := match m with
  | [] => []
  | h :: t => (256 + h.toNat) :: t.map (·.toNat)

/-- The chain port runs; its line is declared stuck. -/
def chainUp (s : State) : Bool := !funcDown s 0x69 && !tapHold s && decide (s.phase = .running)
def chainStuckNow (s : State) : Bool := objF s 0x69 0xB09 23 23 == 1

/-- A message with the sender's present address (R432). -/
def withSrc (s : State) (m : Bytes) : Bytes :=
  let b := slice m 0 1 ++ beBytes 1 s.aon.addr.toNat ++ slice m 2 (m.length - 4)
  b ++ beBytes 2 (crc16 b)

/-- TYPE and DEST of a message; its body. -/
def msgType (m : Bytes) : Nat := byteAt m 0 / 64
def msgDest (m : Bytes) : Nat := byteAt m 0 % 64
def msgBody (m : Bytes) : Bytes := slice m 4 (beAt m 2 2)

/-- The chain address changes (R439); CHAIN_ENO follows it (R435). -/
def newAddress (a : BitVec 6) (reason : Nat) (s : State) : State :=
  let old := s.aon.addr
  raise 66 0x69 .chainAddress (beBytes 1 a.toNat ++ beBytes 1 old.toNat ++ beBytes 1 reason)
    { s with aon := { s.aon with addr := a } }

/-- START at every device, the originator included (R436 step 1). -/
def assignStarts (s : State) : State :=
  newAddress 0 1 (setF 0x69 0xB09 22 22 1 (setChain (fun c => { c with packetsOff := true }) s))

/-- An ASSIGN body: OP, ADDR and what follows. -/
def assignBody (op addr : Nat) (rest : Bytes) : Bytes := beBytes 1 op ++ beBytes 1 addr ++ rest

/-- An OFFER of address n: the token holder takes it and sends ACK (R436 step 3). -/
def assignOffered (n : BitVec 6) (s : State) : State :=
  if s.chain.eni && s.aon.addr == 0 && decide (1 ≤ n.toNat ∧ n.toNat ≤ 62) then
    let s := newAddress n 0 s
    chainSend 1 63 (assignBody 2 n.toNat (beBytes 8 Config.eui.toNat)) s
  else s

/-- The originator ends its run: END with the number of devices assigned (R436 step 5). -/
def assignEnds (r : AssignRun) (s : State) : State :=
  setChain (fun c => { c with run := some { r with tries := 0 } }) (chainSend 1 63 (assignBody 3 r.recs.length []) s)

/-- An ACK at a device; the originator records it and goes on to the next address (R436 step 4). -/
def assignAcked (n : BitVec 6) (eui : W64) (s : State) : State :=
  match s.chain.run with
  | none => s
  | some r =>
    if r.ended ∨ r.tries = 0 ∨ n.toNat ≠ r.n then s
    else
      let r := { r with recs := r.recs ++ [(n.toNat, eui)], n := r.n + 1, tries := 1 }
      if r.n = 63 then assignEnds r s
      else setChain (fun c => { c with run := some r }) (chainSend 1 63 (assignBody 1 r.n []) s)

/-- END at every device, the originator included (R436 step 5). -/
def assignOver (s : State) : State :=
  setF 0x69 0xB09 22 22 0 (setChain (fun c => { c with
    packetsOff := false, run := c.run.map (fun r => { r with ended := true }) }) s)

/-- A forwarded request has left: its 100 ms begin (14 R395). -/
def forwardLeft (pkt : Bytes) (s : State) : State :=
  let hit := fun (f : Forward) => f.op.toNat == beAt pkt 2 2 && f.req.tag.toNat == beAt pkt 4 2
    && f.req.dest.toNat == byteAt pkt 6 && f.req.func.toNat == byteAt pkt 7 && f.req.crc.toNat == beAt pkt (pkt.length - 4) 4
  { s with cmd := { s.cmd with fwd := s.cmd.fwd.map (fun f => if hit f then { f with sent := some s.clk.tb } else f) } }

/-- What follows the end of a message that this device sent. -/
def messageSent (m : Bytes) (s : State) : State :=
  let b := msgBody m
  let op := byteAt b 0
  if msgType m = 2 then (if nbit (beAt b 2 2) 15 then s else forwardLeft b s)
  else if msgType m = 3 then setChain (fun c => { c with wake := c.wake.map (fun w => (w.1, true)) }) s
  else if msgType m = 1 then
    if op = 0 then
      match s.chain.run with
      | none => s
      | some r =>
        setChain (fun c => { c with run := some { r with tries := 1 } }) (chainSend 1 63 (assignBody 1 r.n []) (assignStarts s))
    else if op = 1 then assignOffered (BitVec.ofNat 6 (byteAt b 1)) s
    else if op = 2 then assignAcked (BitVec.ofNat 6 (byteAt b 1)) (BitVec.ofNat 64 (beAt b 2 8)) s
    else if op = 3 then assignOver s
    else s
  else s

/-- A message begun and neither lost nor aborted has ended (R431). -/
def chainSettle (s : State) : State :=
  match s.chain.sending with
  | none => s
  | some m =>
    messageSent m (emit (.chainMsg m) (bumpF 0x69 0xB0A 7 0 1
      (setChain (fun c => { c with sending := none, justSent := true }) s)))

/-- What passes with one tick on an empty queue. -/
def idleStep (s : State) : State := cutSteps (chainSettle (idle s))

/-- A time is past, or none is set. -/
def timePast (s : State) (t : Option W64) : Bool := match t with | none => true | some x => decide (x.toNat ≤ now s)

/-- The device may begin a message (R434, R438, R439). -/
def mayBegin (s : State) : Bool :=
  chainUp s && !chainStuckNow s && timePast s s.chain.holdTb && timePast s s.chain.syncHold
    && !(match s.chain.wake with | some (_, true) => true | _ => false)

/-- The first message that may be sent, and the rest: no PACKET during an assignment run (R436). -/
def takeMsg (off : Bool) : List Bytes → Option (Bytes × List Bytes)
  | [] => none
  | m :: t => if off && msgType m == 2 then (takeMsg off t).map (fun r => (r.1, m :: r.2)) else some (m, t)

/-- CHAIN_TX_START (R431), with the level on CHAIN_ENI: one idle of 12 bit times; a device that has just sent lets one
pass. -/
def execChainTxStart (eni : Bool) (s : State) : Host.Outcome State Fault Refusal :=
  .next (
    let s := setChain (fun c => { c with eni := eni }) (chainSettle s)
    if !mayBegin s then s
    else if s.chain.justSent then setChain (fun c => { c with justSent := false }) s
    else match takeMsg s.chain.packetsOff s.chain.txq with
      | none => s
      | some (m, rest) =>
        -- its characters pass through queue 0x71 (02 R37)
        let m' := withSrc s m
        setChain (fun c => { c with sending := some m', txq := rest }) (qStream 0x71 (chainWords m') s).1)

/-- The message begun goes back to the head of the queue. -/
def chainRetract (s : State) : State :=
  setChain (fun c => { c with sending := none, txq := c.sending.toList ++ c.txq }) s

/-- CHAIN_ARBITRATION_LOST (R432). -/
def execChainArbitrationLost (s : State) : Host.Outcome State Fault Refusal :=
  .next (if s.chain.sending.isNone then s else bumpF 0x69 0xB0A 31 24 1 (chainRetract s))

/-- CHAIN_MESSAGE_ABORT (R432): a later mismatch, or the driver watchdog. -/
def execChainMessageAbort (s : State) : Host.Outcome State Fault Refusal :=
  .next (if !chainUp s then s else bumpF 0x69 0xB0A 15 8 1 (chainRetract s))

/-- CHAIN_STUCK (R439). -/
def execChainStuck (s : State) : Host.Outcome State Fault Refusal :=
  .next (
    let s := chainSettle s
    if !chainUp s || chainStuckNow s then s else raise 66 0x69 .lineStuck [1, 0] (setF 0x69 0xB09 23 23 1 s))

/-- CHAIN_STUCK_CLEAR (R439). -/
def execChainStuckClear (s : State) : Host.Outcome State Fault Refusal :=
  .next (if !chainUp s || !chainStuckNow s then s else raise 66 0x69 .lineStuck [1, 1] (setF 0x69 0xB09 23 23 0 s))

/-- A target's reply is relayed unchanged to the source of the request; IN_PROGRESS ends the wait of 100 ms only (14
R395). -/
def replyRelayed (pkt : Bytes) (s : State) : State :=
  if byteAt pkt 1 ≠ 0x43 then s
  else
  let op := beAt pkt 2 2 % 32768
  let hit := fun (f : Forward) => f.op.toNat == op && f.req.tag.toNat == beAt pkt 4 2
    && f.req.dest.toNat % 64 == byteAt pkt 6 % 64 && f.req.func.toNat == byteAt pkt 7
  match s.cmd.fwd.find? hit with
  | none => s
  | some f =>
    let st := beAt pkt 10 2
    let rest := if st = stInProgress.toNat then s.cmd.fwd.map (fun g => if g = f then { g with sent := none } else g)
      else s.cmd.fwd.filter (fun g => decide (g ≠ f))
    deliver f.req.src f.req.tag.toNat f.req.func.toNat st (slice pkt 16 (beAt pkt 8 2)) pkt
      { s with cmd := { s.cmd with fwd := rest } }

/-- Another device's event record leaves on this device's event link unchanged (14 R416). -/
def eventRelayed (pkt : Bytes) (s : State) : State :=
  match eventLink s with
  | some l => hostSend l (eventDst s).1 (eventDst s).2 pkt s
  | none => s

/-- A command packet that arrives in a PACKET message (14 R387, R393): step 1 to 4 for replies and events. -/
def chainPacket (src : Nat) (pkt : Bytes) (s : State) : State :=
  if byteAt pkt 0 ≠ 0x6B then s
  else if nbit (beAt pkt 2 2) 15 then
    let len := beAt pkt 8 2
    if byteAt pkt 1 ≠ 0x43 ∨ len > 2048 ∨ pkt.length < 20 + len ∨ beAt pkt (16 + len) 4 ≠ crc32c (pkt.take (16 + len)) then
      receiveCmd (.chain (BitVec.ofNat 6 src)) pkt s
    else if beAt pkt 2 2 = 0x8E00 then eventRelayed pkt s
    else replyRelayed pkt s
  else receiveCmd (.chain (BitVec.ofNat 6 src)) pkt s

/-- WAKE_NOTICE: no message begins for HOLD ms (R438). -/
def wakeNoticed (s : State) : State :=
  let hold := max 9 (objF s 0x69 0xB08 23 16)
  setChain (fun c => { c with holdTb := some (s.clk.tb + BitVec.ofNat 64 (400000 * hold)) }) s

/-- A message that has passed the checks of R433, by TYPE. -/
def dispatchMsg (m : Bytes) (s : State) : State :=
  let b := msgBody m
  let a := BitVec.ofNat 6 (byteAt b 1)
  if msgType m = 0 then syncAnnounced (BitVec.ofNat 64 (beAt b 0 8)) (BitVec.ofNat 32 (beAt b 8 4)) (BitVec.ofNat 16 (beAt b 12 2)) s
  else if msgType m = 1 then
    if byteAt b 0 = 0 then assignStarts s
    else if byteAt b 0 = 1 then assignOffered a s
    else if byteAt b 0 = 2 then assignAcked a (BitVec.ofNat 64 (beAt b 2 8)) s
    else if byteAt b 0 = 3 then assignOver s
    else s
  else if msgType m = 2 then
    if msgDest m = 63 ∨ (msgDest m = s.aon.addr.toNat ∧ s.aon.addr ≠ 0) then chainPacket (byteAt m 1 % 64) b s else s
  else wakeNoticed s

/-- CHAIN_MESSAGE_RECEIVE (R431, R433), with the level on CHAIN_ENI. -/
def execChainMessageReceive (chars : List CharSamples) (eni : Bool) (s : State) : Host.Outcome State Fault Refusal :=
  .next (
    let s := chainSettle s
    if !chainUp s then s
    else
      let s := setChain (fun c => { c with justSent := false, eni := eni }) s
      -- the characters arrive through queue 0x70 (02 R37)
      let x := qStream 0x70 (chainWords (chars.map chainByte)) s
      let bytes := x.2.map (BitVec.ofNat 8)
      let s := x.1
      let len := beAt bytes 2 2
      let ok := !chars.any chainFraming && decide (len ≤ 2068) && decide (bytes.length = 6 + len)
        && beAt bytes (4 + len) 2 == crc16 (bytes.take (4 + len))
      if ok then dispatchMsg bytes s else bumpF 0x69 0xB0A 23 16 1 s)

/-- ASSIGN_START (R436). -/
def execAssignStart (s : State) : Host.Outcome State Fault Refusal :=
  .next (let s := chainSettle s
    if chainUp s then assignStarts s else s)

/-- ASSIGN_OFFER (R436), with the level on CHAIN_ENI. -/
def execAssignOffer (n : BitVec 6) (eni : Bool) (s : State) : Host.Outcome State Fault Refusal :=
  .next (let s := chainSettle s
    if chainUp s then assignOffered n (setChain (fun c => { c with eni := eni }) s) else s)

/-- ASSIGN_ACK (R436). -/
def execAssignAck (n : BitVec 6) (eui : W64) (s : State) : Host.Outcome State Fault Refusal :=
  .next (let s := chainSettle s
    if chainUp s then assignAcked n eui s else s)

/-- ASSIGN_OFFER_TIMEOUT (R436 steps 4 and 5). -/
def execAssignOfferTimeout (s : State) : Host.Outcome State Fault Refusal :=
  .next (let s := chainSettle s
    match s.chain.run with
    | none => s
    | some r =>
      if r.ended ∨ r.tries = 0 then s
      else if r.tries = 1 then
        setChain (fun c => { c with run := some { r with tries := 2 } }) (chainSend 1 63 (assignBody 1 r.n []) s)
      else assignEnds r s)

/-- ASSIGN_END (R436). -/
def execAssignEnd (s : State) : Host.Outcome State Fault Refusal :=
  .next (let s := chainSettle s
    if chainUp s then assignOver s else s)

/-- ASSIGN_RESUME_TIMEOUT (R436). -/
def execAssignResumeTimeout (s : State) : Host.Outcome State Fault Refusal :=
  .next (if chainUp s then setF 0x69 0xB09 22 22 0 (setChain (fun c => { c with packetsOff := false }) s) else s)

/-- WAKE_NOTICE (R438). -/
def execWakeNotice (s : State) : Host.Outcome State Fault Refusal :=
  .next (let s := chainSettle s
    if chainUp s then wakeNoticed s else s)

/-- FORWARD_TIMEOUT (14 R395): DEST of the reply is the target's address. -/
def execForwardTimeout (idx : Fin 8) (s : State) : Host.Outcome State Fault Refusal :=
  .next (let s := chainSettle s
    match s.cmd.fwd[idx.val]? with
    | none => s
    | some f =>
      if f.sent.isNone then s
      else
        let d := beBytes 4 noField
        let pkt := cmdPacket (f.op.toNat ||| 0x8000) f.req.tag.toNat (f.req.dest.toNat % 64) f.req.func.toNat
          stTimeout.toNat (lastEsn s) d
        deliver f.req.src f.req.tag.toNat f.req.func.toNat stTimeout.toNat d pkt
          { s with cmd := { s.cmd with fwd := s.cmd.fwd.eraseIdx idx.val } })

/-- COMMAND_FORWARD (14 R393, R395): a request from a host link or the console for another chain address. -/
def execCommandForward (opcode : W16) (r : Req) (s : State) : Host.Outcome State Fault Refusal :=
  .next (
    let pkt := cmdPacket opcode.toNat r.tag.toNat r.dest.toNat r.func.toNat 0 0 r.params
    let r := { r with crc := BitVec.ofNat 32 (beAt pkt (pkt.length - 4) 4) }
    if destRule s.aon.addr.toNat r.dest.toNat (viaChain r) = .forward then forwardReq opcode.toNat r pkt s else s)

/-- FORWARDED_REPLY (14 R395). -/
def execForwardedReply (packet : Bytes) (s : State) : Host.Outcome State Fault Refusal :=
  .next (let s := chainSettle s
    if chainUp s then replyRelayed packet s else s)

/-- CHAIN_ASSIGN (R436). -/
def execChainAssign (r : Req) (s : State) : Host.Outcome State Fault Refusal :=
  .next (execReq 0xB01 r (r.func == 0x69) (lenIs r 0) (funcDown s 0x69) (fun s =>
    if chainStuckNow s then refuse stNotInState noField s
    else if objF s 0x69 0xB09 22 22 = 1 ∨ s.chain.run.isSome then refuse stFunctionRunning noField s
    else deferIf r [] s (fun s =>
      setChain (fun c => { c with run := some ⟨1, 0, [], false⟩ }) (chainSend 1 63 (assignBody 0 0 []) s))) s)

/-- CHAIN_ASSIGN_DONE (R436): the run has ended and the reply follows. -/
def execChainAssignDone (s : State) : Host.Outcome State Fault Refusal :=
  .next (let s := chainSettle s
    match s.chain.run with
    | none => s
    | some r =>
      if !r.ended then s
      else
        let s := setChain (fun c => { c with run := none }) s
        match findDeferred 0xB01 0x69 s with
        | none => s
        | some d =>
          finish d stDone (beBytes 1 r.recs.length ++ [0, 0, 0]
            ++ r.recs.flatMap (fun e => beBytes 1 e.1 ++ [0] ++ beBytes 8 e.2.toNat)) s)

/-- CHAIN_WAKE (R438). -/
def execChainWake (r : Req) (s : State) : Host.Outcome State Fault Refusal :=
  let a := byteAt r.params 0
  .next (execReq 0xB02 r (r.func == 0x69) (lenAnd r 4 (chk (decide (1 ≤ a ∧ a ≤ 62)) 0)) (funcDown s 0x69) (fun s =>
    if chainStuckNow s || s.aon.addr == 0 then refuse stNotInState noField s
    else deferIf r [] s (fun s => setChain (fun c => { c with wake := some (a, false) }) (chainSend 3 a [] s))) s)

/-- CHAIN_WAKE_SENT (R438): the two characters have left, 100 µs after the notice. -/
def execChainWakeSent (s : State) : Host.Outcome State Fault Refusal :=
  .next (let s := chainSettle s
    match s.chain.wake with
    | some (a, true) =>
      let s := emit (.wakeChars a) (setChain (fun c => { c with wake := none }) s)
      match findDeferred 0xB02 0x69 s with
      | none => s
      | some d => finish d stDone [] s
    | _ => s)

end Sys2Proof.Machine
end

