-- ==== Sys2Proof/Machine/Cores.lean ====
section
/-!
DEFINITION. The application cores as the block sees them (16): starts, images, stops, faults, the core-local registers,
packets to and from the cores, and the rebuild of a substituted bank (01 R26).
-/
namespace Sys2Proof.Machine

/-- FUNC of core n; its APP_STATUS.STATE. -/
def acf (n : Nat) : Nat := 0x70 + n
def coreState (s : State) (n : Nat) : Nat := objF s (acf n) 0xC03 31 28
def setCoreState (n v : Nat) (s : State) : State := setF (acf n) 0xC03 31 28 v s

/-- The core executes. -/
def coreRuns (s : State) (n : Nat) : Bool := coreState s n == 3 && !funcDown s (acf n)

/-- APP_BOOT fields. -/
def bootSrc (s : State) (n : Nat) : Nat := objF s (acf n) 0xC00 31 30
def bootAuth (s : State) (n : Nat) : Bool := objF s (acf n) 0xC00 29 29 == 1
def bootOfs (s : State) (n : Nat) : Nat := objF s (acf n) 0xC00 16 9

/-- CLOCHE_STATUS.READY. -/
def clocheIsReady (s : State) : Bool := objF s 0x50 0x800 31 31 == 1

/-- APP_FAULT with its cause (R452): APP_STATUS.CAUSE and FAULTS. -/
def appFault (n cause : Nat) (mepc mtval : W32) (s : State) : State :=
  raise (67 + n) (acf n) .appFault (beBytes 1 n ++ beBytes 1 cause ++ beBytes 4 mepc.toNat ++ beBytes 4 mtval.toNat)
    (bumpF (acf n) 0xC04 3 0 1 (setF (acf n) 0xC03 27 24 cause s))

/-- A fault of a start (causes 4 and 5) names the registers of the last trap. -/
def startFault (n cause : Nat) (s : State) : State := appFault n cause (coreOf s n).mepc (coreOf s n).mtval s

-- Stops (R453).

/-- The open outbound packet is aborted (R448, R453, 10 R293). -/
def outAbort (n : Nat) (s : State) : State :=
  if (coreOf s n).out.isNone then s
  else setQ (0x14 + n) (qAbort (getQ s (0x14 + n))) (setCore n (fun c => { c with out := none }) s)

/-- The core's jobs that no engine has taken are withdrawn with STATUS NO_RESOURCE (R453). -/
def withdrawJobs (n : Nat) (s : State) : State :=
  let mine := fun (j : CJob) => match j with | .core m _ => m == n | _ => false
  let l := s.clo.jobs.filter mine
  let s := setClo (fun c => { c with jobs := c.jobs.filter (fun j => !mine j) }) s
  l.foldl (fun s j => match j with | .core _ a => memSetNat (a + 44) 2 stNoResource.toNat s | _ => s) s

/-- Bytes of the window of core n that no running core's window covers become zero (R453). -/
def wipeWindow (n : Nat) (s : State) : State :=
  let lo := winBase s n
  let hi := min trSize (lo + winSize s n)
  let others := (List.range 4).filter (fun m => m != n && coreRuns s m)
  let keep := fun a => others.any (fun m => decide (winBase s m ≤ a) && decide (a < winBase s m + winSize s m))
  { s with
    mem := s.mem.filter (fun e => !(decide (lo ≤ e.1) && decide (e.1 < hi)) || keep e.1)
    poison := s.poison.filter (fun w => !(decide (lo ≤ 8 * w) && decide (8 * w < hi)) || keep (8 * w)) }

/-- A core is halted: the steps of R453 but for its queues, whose frames wait through a reload (01 R27, R447), and the
wipe of its window. -/
def haltCore (n : Nat) (s : State) : State :=
  let s := outAbort n (setCoreState n 0 s)
  let s := withdrawJobs n s
  setCore n (fun c => { c with
    scratch := [], resv := none, icache := [], msip := false, mtip := false, cjDone := false, wdog := 0, cj := [], meas := [], starting := none }) s

/-- A core stops (R453). -/
def stopCore (n : Nat) (wipe : Bool) (s : State) : State :=
  let s := qEmpty (0x14 + n) false true (qEmpty (0x10 + n) false false (haltCore n s))
  if wipe then wipeWindow n s else s

-- Images (R443 to R446).

/-- What the check of an image concludes (R443): passed; the state counts an AUTH_FAIL of its CMAC. -/
def checkImage (n : Nat) (s : State) : State × Bool :=
  let b := winBase s n
  let d := trReadData s b 64
  let h := d.1
  let len := beAt h 12 4
  let entry := beAt h 16 4
  let p := trReadData s (b + 64) len
  let head := !d.2 && slice h 0 8 == ascii "MLGAPP01" && byteAt h 8 == 0x43 && nbit (byteAt h 9) n && len % 4 == 0
    && decide (len + 80 ≤ winSize s n) && decide (64 ≤ entry ∧ entry < 64 + len)
  if !head then (s, false)
  else if p.2 || beAt h 20 4 != crc32c p.1 then (s, false)
  else if !bootAuth s n then (s, true)
  else if byteAt h 24 ≠ 1 then (s, false)
  else
    let tag := memRead s (b + 64 + len) 16
    let j : JobSpec := ⟨6, false, objF s (acf n) 0xC00 28 17, 0, 64 + len, 16, []⟩
    if !clocheIsReady s then (s, false)
    else match sampleJob j 1 s with
      | (s, .inl _) => (s, false)
      | (s, .inr (key, _)) => if (runJob j key [] [] (h ++ p.1) tag).1 then (s, true) else (authFail s, false)

/-- A core may start (R446, R454): stopped, powered, not RETIRED, and CLOCHE_READY raised where AUTH asks for it. -/
def mayStart (s : State) (n : Nat) : Bool :=
  (coreState s n == 0 || coreState s n == 4) && !funcDown s (acf n) && decide (s.phase = .running)
    && decide (lifeCycle s ≠ 4) && (!bootAuth s n || clocheIsReady s)

/-- CORE_START (R446), by the boot source. -/
def execCoreStart (n : Fin 4) (s : State) : Host.Outcome State Fault Refusal :=
  let k := n.val
  .next (if !(coreOf s k).due || !mayStart s k then s
    else
      let s := setCore k (fun c => { c with due := false }) s
      if bootSrc s k = 1 then setCoreState k 1 (setCore k (fun c => { c with starting := some true }) s)
      else if bootSrc s k = 2 then raise (67 + k) (acf k) .appReloadRequest (beBytes 1 (2 ^ k)) (setCoreState k 0 s)
      else setCoreState k 0 s)

/-- The pending APP_START of a core is answered. -/
def startAnswer (n : Nat) (st : W16) (s : State) : State :=
  match findDeferred 0xC02 (acf n) s with
  | none => s
  | some d => finish d st (if st = stDone then [] else beBytes 4 noField) s

/-- Cores that load from flash, in core order. -/
def loading (s : State) : List Nat := (List.range 4).filter (fun n => coreState s n == 1 && (coreOf s n).starting == some true)

/-- FLASH_BOOT (R444, R445): the image at one FLASH_OFS, the first in core order, reaches the window of every core that
loads it. The kind of read that SFDP selects changes the time only. -/
def execFlashBoot (ofs : Byte) (answers : Bool) (_sfdp : Bool) (image : Bytes) (s : State) :
    Host.Outcome State Fault Refusal :=
  .next (match loading s with
    | [] => s
    | n :: t =>
      if bootOfs s n ≠ ofs.toNat then s
      else
        let l := n :: t.filter (fun m => bootOfs s m == ofs.toNat)
        if answers then
          l.foldl (fun s m => setCoreState m 2 (trWrite (winBase s m) (image.take (winSize s m)) s)) s
        else
          l.foldl (fun s m =>
            startAnswer m stNotInState (startFault m 5 (setCoreState m 0 (setCore m (fun c => { c with starting := none }) s)))) s)

/-- A core is released (R446): pc at ENTRY, APP_STARTED. -/
def releaseCore (n : Nat) (s : State) : State :=
  let src := if (coreOf s n).starting = some true then 1 else 2
  let entry := memNat s (winBase s n + 16) 4
  let pc := BitVec.ofNat 32 (0x40000000 + (winBase s n - partBase s 7) + entry)
  let t := s.clk.tb
  let s := setCore n (fun c => { c with
    pc := pc, mepc := 0, mtval := 0, wdog := t, mtimecmp := 0, intEn := 0, starting := none, scratch := [], resv := none, icache := [] }) s
  raise (67 + n) (acf n) .appStarted (beBytes 1 n ++ beBytes 1 src ++ memRead s (winBase s n + 28) 4) (setCoreState n 3 s)

/-- IMAGE_CHECK_VERDICT (R443). -/
def execImageCheckVerdict (n : Fin 4) (s : State) : Host.Outcome State Fault Refusal :=
  let k := n.val
  .next (if coreState s k ≠ 2 ∨ funcDown s (acf k) then s
    else
      let r := checkImage k s
      if r.2 then startAnswer k stDone (releaseCore k r.1)
      else startAnswer k stAuthFail (startFault k 4 (setCoreState k 4 (setCore k (fun c => { c with starting := none }) r.1))))

-- Faults, watchdog, timer (R440, R452).

/-- CORE_WATCHDOG_EXPIRE (R452): the core stops; AUTO_RESTART asks for a reload. -/
def execCoreWatchdogExpire (n : Fin 4) (mepc mtval : W32) (s : State) : Host.Outcome State Fault Refusal :=
  let k := n.val
  .next (if !coreRuns s k ∨ objF s (acf k) 0xC02 31 24 = 0 ∨ now s < (coreOf s k).wdog.toNat + 400000 * objF s (acf k) 0xC02 31 24 then s
    else
      let s := haltCore k (appFault k 2 mepc mtval s)
      if objF s (acf k) 0xC02 23 23 = 1 then bumpF (acf k) 0xC03 23 16 1 (setCore k (fun c => { c with due := true }) s)
      else s)

/-- An access fault of a running core, for a poisoned word or an address outside its map (R442, R452). -/
def coreFaults (n : Nat) (poisoned : Bool) (mepc mtval : W32) (s : State) : State :=
  appFault n (if poisoned then 1 else 3) mepc mtval (setCore n (fun c => { c with mepc := mepc, mtval := mtval }) s)

/-- CORE_ACCESS_FAULT (R442, R452): an ordinary trap; the core goes on in its handler. -/
def execCoreAccessFault (n : Fin 4) (poisoned : Bool) (mepc mtval : W32) (s : State) : Host.Outcome State Fault Refusal :=
  .next (if coreRuns s n.val then coreFaults n.val poisoned mepc mtval s else s)

/-- CORE_TIMER_INTERRUPT (core-local registers): MTIP is pending while TB ≥ MTIMECMP. -/
def execCoreTimerInterrupt (n : Fin 4) (s : State) : Host.Outcome State Fault Refusal :=
  .next (if !coreRuns s n.val ∨ now s < (coreOf s n.val).mtimecmp.toNat then s
    else setCore n.val (fun c => { c with mtip := true }) s)

-- Commands (16, commands).

/-- FUNC of the request is a core's; its number. -/
def coreFunc (r : Req) : Bool := decide (0x70 ≤ r.func.toNat ∧ r.func.toNat ≤ 0x73)
def coreNo (r : Req) : Nat := r.func.toNat - 0x70

/-- The window lies within partition 7 (R442). -/
def windowOk (s : State) (n : Nat) : Bool := decide (winBase s n + winSize s n ≤ trSize)

/-- APP_LOAD (R446). -/
def execAppLoad (r : Req) (s : State) : Host.Outcome State Fault Refusal :=
  let n := coreNo r
  let len := r.params.length - 4
  .next (execReq 0xC01 r (coreFunc r)
    (if r.params.length < 8 ∨ 2044 < len ∨ len % 4 ≠ 0 then some noField else none) (funcDown s r.func.toNat)
    (fun s =>
      let o := beAt r.params 0 4
      if !coreStopped s n then refuse stFunctionRunning noField s
      else if !inWindow s n (winBase s n + o) len then refuse stBadLength 0 s
      else .reply stDone [] (trWrite (winBase s n + o) (r.params.drop 4) s)) s)

/-- APP_START (R443, R446, R454). -/
def execAppStart (r : Req) (s : State) : Host.Outcome State Fault Refusal :=
  let n := coreNo r
  let flash := nbit (beAt r.params 0 4) 31
  .next (execReq 0xC02 r (coreFunc r) (lenIs r 4) (funcDown s r.func.toNat) (fun s =>
    if !coreStopped s n then refuse stFunctionRunning noField s
    else if !windowOk s n || !mayStart s n then refuse stNotInState noField s
    else deferIf r [] s (fun s =>
      setCoreState n (if flash then 1 else 2) (setCore n (fun c => { c with starting := some flash, due := false }) s))) s)

/-- APP_STOP (R453): the steps complete with APP_STOP_DONE. -/
def execAppStop (r : Req) (s : State) : Host.Outcome State Fault Refusal :=
  .next (execReq 0xC03 r (coreFunc r) (lenIs r 4) (funcDown s r.func.toNat) (fun s =>
    deferIf r [b2n (nbit (beAt r.params 0 4) 31)] s id) s)

/-- APP_STOP_DONE (R453). -/
def execAppStopDone (n : Fin 4) (s : State) : Host.Outcome State Fault Refusal :=
  .next (match findDeferred 0xC03 (acf n.val) s with
    | none => s
    | some d => finish d stDone [] (stopCore n.val (d.aux.headD 0 == 1) s))

-- Core-local registers. A core that does not run writes none.

/-- INT_CLR: bit 3 clears CJ_DONE, bit 1 clears IN_WM with the queue's UP notice. -/
def execIntClrWrite (n : Fin 4) (v : W32) (s : State) : Host.Outcome State Fault Refusal :=
  let k := n.val
  .next (if !coreRuns s k then s
    else
      let s := if v.getLsbD 3 then setCore k (fun c => { c with cjDone := false }) s else s
      if v.getLsbD 1 then setQ (0x10 + k) { getQ s (0x10 + k) with up := false } s else s)

/-- IN_POP: the packet at IN_HEAD is freed (R447). -/
def execInPopWrite (n : Fin 4) (s : State) : Host.Outcome State Fault Refusal :=
  .next (if !coreRuns s n.val then s
    else match qPop (0x10 + n.val) s with
      | some (_, t) => t
      | none => s)

/-- OUT_REQ (R448): a second one aborts the open packet. -/
def execOutReqWrite (n : Fin 4) (v : W32) (s : State) : Host.Outcome State Fault Refusal :=
  .next (if !coreRuns s n.val then s
    else setCore n.val (fun c => { c with out := some (v.truncate 8, fget v 31 16) }) (outAbort n.val s))

/-- The credits for the open packet are held: OUT_ADDR is not 0, OUT_READY. -/
def outReady (s : State) (n : Nat) : Bool :=
  match (coreOf s n).out with
  | none => false
  | some (_, bytes) => decide (qUsed 2048 (getQ s (0x14 + n)) + pktUnits bytes ≤ 2048) && !(getQ s (0x14 + n)).heldR291

/-- INT_PEND of a core (core-local registers). -/
def intPend (s : State) (n : Nat) : Nat :=
  b2n (decide ((getQ s (0x10 + n)).pkts ≠ [])) + 2 * b2n (getQ s (0x10 + n)).up + 4 * b2n (outReady s n)
    + 8 * b2n (coreOf s n).cjDone

/-- Opcode classes that a core may not send (R449). -/
def coreBarred (op : Nat) : Bool := op / 256 = 2 || op / 256 = 3 || op / 256 = 0xC || op / 256 = 0xD

/-- A request of a core (R449), behind steps 2 to 5 of 14 R387. -/
def coreRequest (n : Fin 4) (pkt : Bytes) (s : State) : State :=
  let op := beAt pkt 2 2
  let len := beAt pkt 8 2
  let wellFormed := byteAt pkt 1 == 0x43 && decide (len ≤ 2048 ∧ 20 + len ≤ pkt.length)
    && beAt pkt (16 + len) 4 == crc32c (pkt.take (16 + len)) && beAt pkt 4 2 != 0 && !nbit op 15
  let no := fun st => answer (.core n) op (beAt pkt 4 2) (byteAt pkt 7) st (beBytes 4 noField) s
  if byteAt pkt 0 ≠ 0x6B then s
  else if wellFormed ∧ destRule s.aon.addr.toNat (byteAt pkt 6) false ≠ .here then no stBadDest
  else if wellFormed ∧ (coreBarred op ∨ objF s (acf n.val) 0xC02 18 18 = 0) then no stNotInState
  else receiveCmd (.core n) pkt s

/-- The link engine takes an outbound packet (R448). -/
def takeOutbound (n : Fin 4) (tag : Byte) (data : Bytes) (s : State) : State :=
  if tag = 1 then
    let sa := beAt data 0 4
    let r := downlinkData (sa % 2 ^ 18) (data.drop 4) s
    match r.2 with
    | none => r.1
    | some st => (qPush (0x10 + n.val) 0x16 false 2 (dataPacket 3 0 (ownDest s) 0 st.toNat sa []) r.1).1
  else if tag = 2 then coreRequest n data s
  else s

/-- OUT_COMMIT (R448, 10 R292): `payload` is what the core wrote at OUT_ADDR. -/
def execOutCommitWrite (n : Fin 4) (payload : Bytes) (s : State) : Host.Outcome State Fault Refusal :=
  let k := n.val
  .next (match (coreOf s k).out with
    | none => s
    | some (tag, bytes) =>
      if !coreRuns s k || !outReady s k then s
      else
        let s := setCore k (fun c => { c with out := none }) s
        let s := (qPush (0x14 + k) (0x1D + k) false tag.toNat (slice payload 0 bytes) s).1
        match qPop (0x14 + k) s with
        | none => s
        | some (p, s) => takeOutbound n p.tag p.data s)

/-- OUT_ABORT (R448). -/
def execOutAbortWrite (n : Fin 4) (s : State) : Host.Outcome State Fault Refusal :=
  .next (if coreRuns s n.val then outAbort n.val s else s)

/-- CJ_SUBMIT (R450): a descriptor in the window, aligned to 8 bytes; a 17th is refused in its STATUS. -/
def execCjSubmitWrite (n : Fin 4) (addr : W32) (s : State) : Host.Outcome State Fault Refusal :=
  let k := n.val
  let a := partBase s 7 + (addr.toNat - 0x40000000)
  .next (if !coreRuns s k ∨ addr.toNat < 0x40000000 ∨ addr.toNat % 8 ≠ 0 ∨ !inWindow s k a 48 then s
    else if 16 ≤ (coreOf s k).cj.length then
      setCore k (fun c => { c with cjDone := true }) (memSetNat (a + 44) 2 stNoResource.toNat s)
    else setClo (fun c => { c with jobs := c.jobs ++ [.core k a] }) (setCore k (fun c => { c with cj := c.cj ++ [a] }) s))

/-- MBOX: MSIP on the cores named. -/
def execMboxWrite (n : Fin 4) (v : W32) (s : State) : Host.Outcome State Fault Refusal :=
  .next (if !coreRuns s n.val then s
    else (List.range 4).foldl (fun s m => if v.getLsbD m then setCore m (fun c => { c with msip := true }) s else s) s)

/-- MBOX_CLR: this core's MSIP. -/
def execMboxClrWrite (n : Fin 4) (s : State) : Host.Outcome State Fault Refusal :=
  .next (if !coreRuns s n.val then s else setCore n.val (fun c => { c with msip := false }) s)

/-- WDOG_KICK: the watchdog starts again. -/
def execWdogKickWrite (n : Fin 4) (s : State) : Host.Outcome State Fault Refusal :=
  .next (if !coreRuns s n.val then s else
    let t := s.clk.tb
    setCore n.val (fun c => { c with wdog := t }) s)

-- The rebuild of a substituted bank (01 R26).

/-- The codeword is in the decoder's memory: its soft values, if only some, or its run. -/
def cwHeld (f : RxFrame) (w : DecCw) : Bool :=
  match w.ph with
  | .filling => !f.soft.isEmpty
  | .converged | .failed => false
  | _ => true

/-- Codewords held in the decoder's memory fail (01 R26, 09 R278), by frame and index; their L-units rest. -/
def failCws (pick : RxFrame → Nat → DecCw → Bool) (s : State) : State :=
  s.dec.frames.foldl (fun s f =>
    let hit := fun (e : DecCw × Nat) => cwHeld f e.1 && pick f e.2 e.1
    let l := f.cws.zipIdx
    if l.any hit then
      let s := (l.filter hit).foldl (fun s e => match e.1.ph with
        | .running c | .reprieved c => restUnit c s
        | _ => s) s
      leaveDue (maybeEnd { f with cws := l.map (fun e => if hit e then { e.1 with ph := .failed } else e.1) } s)
    else s) s

/-- Every codeword in the decoder's memory fails (01 R26). -/
def codewordsFail (s : State) : State := failCws (fun _ _ _ => true) s

/-- The rebuild of a bank at a logical position (01 R26, 09 R282). -/
def rebuildBank (r i : Nat) (mirror : Bool) (s : State) : State :=
  match (List.range 8).find? (fun p => (partBanks s p).contains (r, i)) with
  | none => s
  | some p =>
    if p = 3 then
      if mirror then
        { s with poison := s.poison.filter (fun w => !((place s (8 * w)).1 == r && (place s (8 * w)).2.1 == i)) }
      else raise (71 + r) (0x7C + r) .faultUnabsorbed (beBytes 1 (0x7C + r)) (bankLost r i s)
    else
      let s := bankLost r i s
      if p ≤ 1 then codewordsFail s
      else if p = 2 then
        (List.range 512).foldl (fun s k => if memByte s (0x480000 + 1024 * k + 1013) = 0 then s else slotInvalid (0x480000 + 1024 * k) s) s
      else if p = 4 then inTurn 76 (fun q s => queueReset q 2 3 0 0 s) packetQids s
      else if p = 6 then (List.range 16).foldl (fun s g => realign g s) s
      else if p = 7 then coresDue ((List.range 4).foldl (fun s n => haltCore n s) s)
      else { s with bb := { s.bb with snrCap := none } }

/-- BANK_REBUILD_DONE (01 R26); a wipe in the region pauses the rebuild (09 R285). -/
def execBankRebuildDone (r : Fin 4) (s : State) : Host.Outcome State Fault Refusal :=
  .next (match (regOf s r.val).rebuild with
    | none => s
    | some i => if wipeOn s r.val then s else rebuildBank r.val i.1.val i.2
        (setF (0x7C + r.val) 0xF08 6 6 0 (setReg r.val (fun g => { g with rebuild := none }) s)))

end Sys2Proof.Machine
end

