-- ==== Sys2Proof/Machine/Fabric.lean ====
section
/-!
DEFINITION. The Trellis as its clients meet it (09 R269 to R278, R283 to R287): accesses with what ECC reports of each word, what a
poisoned word does to the client that reads it, accesses held and served in order, and the commands that read or wipe it.
-/
namespace Sys2Proof.Machine

-- What a client does with a poisoned word (R278).

/-- What a poisoned word that a client reads concerns, by partition: the L-unit whose slice holds it, the codeword of a Furrow area,
the tone-map slot, the word of the node table, the packet queue, the Graft. -/
def poisonConcern (s : State) (w : Nat) : Option (Nat × Nat) :=
  let a := 8 * w
  match partOf s a with
  | 0 => (s.cl.slices.find? (fun e => decide (e.2.1 ≤ a) && decide (a < e.2.1 + e.2.2))).map (fun e => (0, e.1))
  | 1 => some (1, w)
  | 2 => some (2, (a - 0x480000) / 1024)
  | 3 => some (3, w)
  | 4 => (queueAt a).map (fun q => (4, q))
  | 6 => some (6, Config.skewGraft a % 16)
  | _ => none

/-- The codeword that a word of the Furrow holds: frame and index, among those whose reservation lies in the port's area. -/
def furrowCw (s : State) (w : Nat) : Option (Nat × Nat) :=
  let p := (8 * w - 0x300000) / 0x40000
  ((s.dec.frames.filter (fun f => nbit f.pool p)).flatMap (fun f => (List.range f.cws.length).map (fun c => (f.id, c))))[Config.furrow (8 * w)]?

/-- The outcome of one concern (R278). A core's access fault is CORE_ACCESS_FAULT; the lost record or sample of partition 5 is the zero
that its reader receives. -/
def poisonMeets (k : Nat × Nat) (s : State) : State :=
  match k.1 with
  | 0 => failCws (fun _ _ w => decide (w.ph = .running k.2 ∨ w.ph = .reprieved k.2)) s
  | 1 => match furrowCw s k.2 with
    | some e => failCws (fun f c _ => decide (f.id = e.1 ∧ c = e.2)) s
    | none => s
  | 2 => slotInvalid (0x480000 + 1024 * k.2) s
  | 3 => if mirHas s (halfOf s (8 * k.2)) then { s with poison := s.poison.filter (fun w => w != k.2) } else s
  | 4 => queueReset k.2 2 3 0 0 s
  | 6 => realign k.2 s
  | _ => s

/-- What follows a client's read of poisoned words (R278), each concern once. -/
def poisonOutcome (ws : List Nat) (s : State) : State :=
  (ws.filterMap (poisonConcern s)).eraseDups.foldl (fun s k => poisonMeets k s) s

/-- Words of 8 bytes among n bytes at a; those that deliver a poisoned word, from the mirror where there is one (R278, R286). -/
def wordsOf (a n : Nat) : List Nat := (List.range ((a + n + 7) / 8 - a / 8)).map (· + a / 8)
def poisonedIn (s : State) (a n : Nat) : List Nat := (wordsOf a n).filter (fun w => isPoisoned s (8 * w) 8 || badWord s w)

-- One access.

/-- The reservation class of a client (R32, R274), in the order of R274. -/
def clientClass (c : Nat) : Nat :=
  if c < 0x14 then 0 else if c < 0x16 then 1 else if c < 0x19 then 2 else if c < 0x1D then 3 else if c < 0x21 then 4 else 5

/-- The grant of an access is charged to its client's class (R274, R276): PEAK_WAIT, and LATE for a wait of more than 16 clocks
within the reservation. -/
def chargeGrant (h : HeldAcc) (s : State) : State :=
  let o := 0xF10 + clientClass h.client.toNat
  let s := setF 0 o 19 12 (min 255 (max (objF s 0 o 19 12) h.wait)) s
  if h.within && decide (16 < h.wait) then bumpF 0 o 11 0 1 s else s

/-- The word of the line is read by the bank for this access: every word of a read, and of a write those that it covers in part
(R269, R277). -/
def bankReads (h : HeldAcc) (w : Nat) : Bool :=
  let o := h.addr.toNat % 64
  let n := ((List.range 8).filter (fun i =>
    decide (o ≤ 8 * w + i) && (h.data.getD (8 * w + i - o) none).isSome)).length
  if h.write then decide (0 < n ∧ n < 8) else decide (8 * w < o + h.data.length ∧ o < 8 * w + 8)

/-- What ECC reports of the words that the bank reads for an access. -/
def eccFinds (h : HeldAcc) : List (Nat × EccResult) := (h.ecc.map (fun e => (e.1.val, e.2))).filter (fun e => bankReads h e.1)

/-- What the bank and its client report of one word (R277, R278, R280). A path fault is the client's: of a cluster, its unit
fails (01 R13, R23); of any other, it counts in PATH. A write brings no word to its client. -/
def eccReport (h : HeldAcc) (e : Nat × EccResult) (s : State) : State :=
  let (r, i, line) := place s h.addr.toNat
  let b := physBank s r i
  match e.2 with
  | .clean => s
  | .corrected => correctedWord r b line e.1 s
  | .uncorrectable => uncorrectable r b line e.1 h.client.toNat s
  | .pathFault unit =>
    if h.write then s
    else if isCluster h.client.toNat then clusterFault h.client.toNat unit.val 2 s
    else bumpF (0x7C + r) 0xF09 15 12 1 s
  | .portFail answers => bankFailing r b answers s

/-- Words that reach the client as poisoned though the bank passed them: a path fault of a client other than a unit (R277). -/
def pathLost (h : HeldAcc) : List Nat :=
  if isCluster h.client.toNat then []
  else ((eccFinds h).filter (fun e => e.2 matches .pathFault _)).map (fun e => h.addr.toNat / 64 * 8 + e.1)

/-- A permitted read (R275 to R278). -/
def fabricRead (h : HeldAcc) (s : State) : State :=
  let a := h.addr.toNat
  let n := h.data.length
  let s := (eccFinds h).foldl (fun s e => eccReport h e s) s
  let d := trReadData s a n
  let gone := pathLost h
  let data := (d.1.zipIdx).map (fun e => if gone.contains ((a + e.2) / 8) then 0 else e.1)
  poisonOutcome (poisonedIn s a n ++ gone).eraseDups (emit (.readData h.client h.addr data (d.2 || !gone.isEmpty)) s)

/-- A permitted write, by its byte mask (R269, R275): acknowledged once stored, in both copies of the node table (R282). -/
def fabricWrite (h : HeldAcc) (s : State) : State :=
  let s := (eccFinds h).foldl (fun s e => eccReport h e s) s
  let s := (maskRuns h.addr.toNat h.data).foldl (fun s e => trWrite e.1 e.2 s) s
  emit (.writeAck h.client h.addr) s

/-- One access of the fabric that is not held (01 R18, R269 to R278). A lost region checks no window: reads return poisoned words and
writes are dropped (R286). -/
def fabricAccess (h : HeldAcc) (s : State) : State :=
  let a := h.addr.toNat
  let c := h.client.toNat
  let s := chargeGrant h s
  if !regionLost s (place s a).1 && !mayAccess s c a h.write then
    let s := windowFault c a h.write s
    if h.write then emit (.writeAck h.client h.addr) s
    else emit (.readData h.client h.addr (List.replicate h.data.length 0) false) s
  else if h.write then fabricWrite h s else fabricRead h s

-- Reads of the management controller.

/-- The first byte of each line among n bytes at a. -/
def linesOf (a n : Nat) : List Nat := (List.range ((a + n + 63) / 64 - a / 64)).map (fun i => max a (64 * (a / 64 + i)))

/-- A read of n bytes as client 0x21: the count of poisoned words, the data, and what the poisoned words do. -/
def mcRead (a n : Nat) (s : State) : Nat × Bytes × State :=
  ((badWords s a n).length, (trReadData s a n).1, poisonOutcome (poisonedIn s a n) s)

/-- TR_PEEK reads (09, commands). -/
def peekAnswer (r : Req) (s : State) : State × Bytes :=
  let m := mcRead (beAt r.params 0 4) (beAt r.params 4 4) s
  (m.2.2, beBytes 4 m.1 ++ m.2.1)

/-- PEEK of the test access port reads its word for the next capture (19 R496); a poisoned word reads zero with bit 0 set. -/
def tapRead (a : Nat) (s : State) : State :=
  let m := mcRead a 8 s
  let s := m.2.2
  { s with svc := { s.svc with peek := BitVec.ofNat 72 (beNat m.2.1 * 256 + m.1) } }

/-- The first line among n bytes at a whose access is held (01 R17, R285). -/
def heldAt (s : State) (a n : Nat) : Option Nat := (linesOf a n).find? (fun l => accessHeld s l)

/-- A read of the management controller as the fabric holds it. -/
def mcAccess (who : AccBy) (a n : Nat) : HeldAcc :=
  ⟨0x21, BitVec.ofNat 23 a, false, List.replicate n none, [], 0, true, who⟩

/-- The access waits at the region controller of the address, behind what already waits there. -/
def holdAccess (h : HeldAcc) (a : Nat) (s : State) : State :=
  setReg (place s a).1 (fun g => { g with heldAcc := g.heldAcc ++ [h] }) s

/-- A held access is carried out. -/
def serveAccess (h : HeldAcc) (s : State) : State :=
  match h.who with
  | .fabric => fabricAccess h s
  | .peek r => let p := peekAnswer r s; sendReply 0xF04 r stDone p.2 p.1
  | .tap => tapRead h.addr.toNat s

/-- The accesses held for a region are served, in order of arrival; one that must still wait, for a controller or a wipe, stays held
(01 R17, R285). -/
def serveHeld (r : Nat) (s : State) : State :=
  let l := (regOf s r).heldAcc
  l.foldl (fun t h =>
    match heldAt t h.addr.toNat h.data.length with
    | some a => holdAccess h a t
    | none => serveAccess h t)
    (setReg r (fun g => { g with heldAcc := [] }) s)

/-- TRELLIS_ACCESS (01 R17, R18, R269 to R278). Operands that name no line are ill-formed. -/
def execTrellisAccess (client : BitVec 6) (addr : BitVec 23) (write : Bool) (data : List (Option Byte))
    (ecc : List (Fin 8 × EccResult)) (wait : Nat) (within : Bool) (s : State) : Host.Outcome State Fault Refusal :=
  if data.length = 0 ∨ 64 < addr.toNat % 64 + data.length then .fault .illFormed
  else
    let h : HeldAcc := ⟨client, addr, write, data, ecc, wait, within, .fabric⟩
    .next (if accessHeld s addr.toNat then holdAccess h addr.toNat s else fabricAccess h s)

/-- A region controller has restarted: its banks kept, what it held served (01 R17); a per-function reset of the region
ends with it (17 R463, finished by FUNC_RESET_DONE). -/
def execRegionControllerRestarted (r : Fin 4) (s : State) : Host.Outcome State Fault Refusal :=
  .next (if objF s (0x7C + r.val) 0xF08 31 30 = 1 then serveHeld r.val (setF (0x7C + r.val) 0xF08 31 30 0 s) else s)

-- Commands.

/-- TR_PEEK reads as the management controller, in FACTORY and SERVICE only (09, commands); behind a restart or a wipe it waits. -/
def execTrPeek (r : Req) (s : State) : Host.Outcome State Fault Refusal :=
  let a := beAt r.params 0 4
  let n := beAt r.params 4 4
  .next (execReq 0xF04 r (r.func == 0)
    (lenAnd r 8 (firstBad (chk (decide (a < trSize)) 0) (chk (decide (1 ≤ n ∧ n ≤ 1024 ∧ a + n ≤ trSize)) 4))) false
    (fun s =>
      if lifeCycle s = 0 ∨ lifeCycle s = 3 then
        match heldAt s a n with
        | some l => .hold (holdAccess (mcAccess (.peek r) a n) l s)
        | none => let p := peekAnswer r s; .reply stDone p.2 p.1
      else refuse stNotInState noField s) s)

/-- TR_WIPE (R285): its reply comes with TRELLIS_WIPE_COMPLETE. -/
def execTrWipe (r : Req) (s : State) : Host.Outcome State Fault Refusal :=
  .next (execReq 0xF01 r (r.func == 0) (lenAnd r 4 (chk (byteAt r.params 0 == 6 || byteAt r.params 0 == 7) 0)) false
    (fun s =>
      let p := byteAt r.params 0
      let ok := if p = 6 then allDown s [0x58, 0x59] else (List.range 4).all (fun n => coreStopped s n)
      if ok then .hold (startWipe (partBase s p) (partEnd s p) 0xF01 r s)
      else refuse stFunctionRunning noField s) s)

/-- TR_REPART (R283): both partitions are wiped before it completes. -/
def execTrRepart (r : Req) (s : State) : Host.Outcome State Fault Refusal :=
  .next (execReq 0xF02 r (r.func == 0) (lenAnd r 4 (chk (decide (2 ≤ byteAt r.params 0 ∧ byteAt r.params 0 ≤ 8)) 0)) false
    (fun s =>
      if allDown s [0x58, 0x59, 0x70, 0x71, 0x72, 0x73] then
        .hold (startWipe 0x680000 trSize 0xF02 r (setF 0 0xF00 25 22 (byteAt r.params 0) s))
      else refuse stFunctionRunning noField s) s)

/-- A wipe of TR_WIPE or TR_REPART has ended: STATE, the cores where partition 7 was wiped (16 R446), its reply, and what was
held (R285). -/
def wipeEnds (w : WipeRun) (s : State) : State :=
  let s := { s with tr := { s.tr with wiping := s.tr.wiping.erase w } }
  let s := if objF s 0 0xF00 31 30 = 1 ∧ s.tr.wiping.all (fun x => !x.started) then setF 0 0xF00 31 30 0 s else s
  let s := if w.hi = trSize then coresDue s else s
  let s := match w.ask with | some (op, r) => sendReply op.toNat r stDone [] s | none => s
  (List.range 4).foldl (fun t r => serveHeld r t) s

/-- TRELLIS_WIPE_COMPLETE: the oldest wipe that runs ends (R284, R285). -/
def execTrellisWipeComplete (s : State) : Host.Outcome State Fault Refusal :=
  .next (match s.tr.wiping.find? (fun w => w.started) with
    | none => s
    | some w => wipeEnds w s)

/-- The result of TR_BANK_TEST (R287): 8 bytes; `bad` are the words it found uncorrectable (R278). A retired bank that passes stays
retired; a spare that fails is declared failing (R280). A wipe in the region pauses the test (R285). -/
def execTrBankTestDone (r : Fin 4) (result : Fin 3) (line bits : W16) (bad : List (Fin 2048 × Fin 8)) (s : State) :
    Host.Outcome State Fault Refusal :=
  .next (match findDeferred 0xF03 (0x7C + r.val) s with
    | none => s
    | some d =>
      if wipeOn s r.val then s
      else
        let b := d.aux.headD 0
        let s := wordsLost r.val b bad s
        let s := finish d stDone (beBytes 1 result.val ++ [0] ++ beBytes 2 line.toNat ++ beBytes 2 bits.toNat ++ [0, 0]) s
        if result ≠ 0 ∧ b = 16 then bankFailing r.val 16 (decide (result = 1)) s
        else if result = 2 then bankDies r.val b s
        else s)

end Sys2Proof.Machine
end

