-- ==== Sys2Proof/Machine/Life.lean ====
section
/-!
DEFINITION. Reset, power and life cycle (17): supplies and reset causes, the whole-device reset, domain trips, per-function
reset, the management controller's recovery, sleep, the thermal limits and the life-cycle transitions.
-/
namespace Sys2Proof.Machine

/-- Replace the power record. -/
def setPw (f : PowerSt → PowerSt) (s : State) : State := { s with pw := f s.pw }

-- Causes and the start of a reset (R456, R460).

/-- A whole-device reset is under way. -/
def inReset (s : State) : Bool := decide (s.phase = .heldInReset ∨ s.phase = .waitClocks ∨ s.phase = .resetRun)

/-- The cause recorded when one more coincides: the highest of the table. -/
def joinCause (s : State) (c : Nat) : Nat := if inReset s then min s.pw.cause.toNat c else c

/-- Power domains at the start of a reset (R460): PD_AON stays, and PD_CLOCHE unless supply was lost. -/
def domainsOff (cause : Nat) (v : Vector DomSt 30) : Vector DomSt 30 :=
  v.mapIdx (fun d (x : DomSt) => if d = 21 then x else if d = 22 ∧ 2 ≤ cause then .on else .off)

/-- Every driver goes idle with no ramp. -/
def driversOff (s : State) : State := (List.range 6).foldl (fun s p => driverOff p s) s

/-- A whole-device reset begins; METER is driven to METER_REF until step 2 ends (18 R480). -/
def beginReset (c : Nat) (ph : Phase) (s : State) : State :=
  let cause := joinCause s c
  let s := driversOff s
  setPw (fun p => { p with
    cause := BitVec.ofNat 4 cause, dom := domainsOff cause p.dom, resetSoon := false, sleepSoon := false })
    { s with phase := ph, svc := { s.svc with meter := 0 } }

/-- POWER_ON (R460, R513): PD_AON starts; everything but the fuses is as never used. -/
def execPowerOn (s : State) : Host.Outcome State Fault Refusal :=
  let r := State.reset
  .next { r with
    pending := s.pending, out := s.out, free := s.free, fuse := s.fuse, phase := .waitClocks
    aon := { addr := 0, epoch := 0, resets := 0 }
    pw := { r.pw with
      dom := domainsOff 0 r.pw.dom, cause := 0, temps := s.pw.temps, svcLow := s.pw.svcLow, refByp := s.pw.refByp }
    chain := { r.chain with eni := s.chain.eni } }

/-- BROWNOUT (R456): after a thermal shutdown the device also waits for its junctions (R472). -/
def execBrownout (rail : Rail) (s : State) : Host.Outcome State Fault Refusal :=
  let s := setPw (fun p => { p with railsLow := rail :: p.railsLow.filter (fun r => decide (r ≠ rail)) }) s
  .next (if s.phase = .thermal then setPw (fun p => { p with cause := 1, dom := domainsOff 1 p.dom }) s
    else beginReset 1 .heldInReset s)

/-- RESET_N_LOW (R456): pulses up to 1 µs are ignored, from 2 µs on they reset, between is not defined (20). A reset that
waits for its clocks goes on waiting; one after a thermal shutdown waits for the junctions (R472). -/
def execResetNLow (lowNs : Nat) (s : State) : Host.Outcome State Fault Refusal :=
  let s' := if 1000 < lowNs ∧ lowNs < 2000 then takeFree 1 s else s
  let hit := if lowNs ≤ 1000 then false else if 2000 ≤ lowNs then true else Config.resetPulse s.free lowNs
  .next (if tapHold s || !hit then s'
    else
      let ph := if s.phase = .heldInReset ∨ s.phase = .waitClocks ∨ s.phase = .thermal then s.phase else .resetRun
      if s.phase = .thermal then setPw (fun p => { p with cause := 2 }) s' else beginReset 2 ph s')

/-- RESET_CLOCKS_READY (R460): the conditions have ended and both clocks run: t0. -/
def execResetClocksReady (s : State) : Host.Outcome State Fault Refusal :=
  .next (if s.phase = .heldInReset ∨ s.phase = .waitClocks then
      setPw (fun p => { p with railsLow := [] }) { s with phase := .resetRun }
    else s)

-- The sequence of R460.

/-- What a whole-device reset keeps and clears (R461). -/
def freshen (f : ResetFindings) (s : State) : State :=
  let cause := s.pw.cause
  let r := State.reset
  { r with
    pending := s.pending, out := s.out, free := s.free, fuse := s.fuse
    aon := { s.aon with epoch := s.aon.epoch + 1, resets := BitVec.ofNat 8 (min 255 (s.aon.resets.toNat + 1)) }
    pw := { r.pw with
      temps := s.pw.temps, cause := cause, lcDone := s.pw.lcDone
      -- under EXTEST, CLAMP and HIGHZ the straps are seen as they were (19 R498)
      svcLow := if tapHold s then s.pw.svcLow else f.svcLow, refByp := if tapHold s then s.pw.refByp else f.refByp }
    clo := if 2 ≤ cause.toNat then { r.clo with
        keys := s.clo.keys, ctrs := s.clo.ctrs, mask := s.clo.mask, drawMask := s.clo.drawMask
        seals := s.clo.seals, opens := s.clo.opens } else r.clo
    chain := { r.chain with eni := s.chain.eni }
    svc := { r.svc with tapIr := s.svc.tapIr, boundary := s.svc.boundary, peek := s.svc.peek } }

/-- The current KEK generation is revoked (R316, R477, R478). -/
def revokeKek (s : State) : State :=
  let g := s.fuse.kekGen
  if g = 0 ∨ s.fuse.revoked.contains g then s else { s with fuse := { s.fuse with revoked := s.fuse.revoked ++ [g] } }

/-- The current generation is not revoked. -/
def kekLive (s : State) : Bool := s.fuse.kekGen != 0 && !s.fuse.revoked.contains s.fuse.kekGen

/-- A bank found failing before first use (R460 step 3, R520): its spare takes over at once, with nothing to rebuild. -/
def bankFound (answers : Bool) (k : Nat) (s : State) : State :=
  let r := k / 17
  let s := bankSwitch r [] (bankFailing r (k % 17) answers s)
  setF (0x7C + r) 0xF08 6 6 0 (setReg r (fun g => { g with rebuild := none }) s)

/-- A die-to-die lane found failing (R460 step 3). -/
def laneFound (l2d : Bool) (i : Nat) (s : State) : State :=
  if laneOf s l2d i = .spare then retireSpareLane l2d i s else laneFault l2d i s

/-- Faults found by the tests of a reset (R520). -/
def findingsAct (f : ResetFindings) (s : State) : State :=
  let s := f.badBanks.foldl (fun s k => bankFound true k.val s) s
  let s := f.deadBanks.foldl (fun s k => bankFound false k.val s) s
  let s := { s with tr := { s.tr with mirCopy := Vector.replicate 2 false } }
  let s := wipeDone s
  let s := f.badD2L.foldl (fun s i => laneFound false i.val s) s
  let s := f.badL2D.foldl (fun s i => laneFound true i.val s) s
  let s := f.badClusters.foldl (fun s c => clusterFault c.val 2 4 s) s
  let s := f.badEngines.foldl (fun s e => retireEngine e.val 2 s) s
  let s := startTest 1 f.trng[1] (startTest 0 f.trng[0] s)
  let s := if f.drbgDead then drbgHalts s else s
  f.badSlices.foldl (fun s e => retireSlice e.1.val e.2.val s) s

/-- Any test found a fault; a spare was claimed (R462). -/
def findingsBad (f : ResetFindings) : Bool :=
  !(f.badBanks.isEmpty && f.deadBanks.isEmpty && f.badClusters.isEmpty && f.badD2L.isEmpty && f.badL2D.isEmpty
    && f.badEngines.isEmpty && f.trng.all (fun b => (healthTest b).isNone) && !f.drbgDead && f.badSlices.isEmpty)
def spareClaimed (s : State) : Bool :=
  (List.range 4).any (fun r => spareIn s r)
    || (List.range 20).any (fun c => c % 5 == 4 && decide (clOf s c = .active))
    || (List.range 40).any (fun i => decide (36 ≤ i) && (decide (laneOf s true i = .active) || decide (laneOf s false i = .active)))
    || spareSlice s != 8

/-- RESET_DONE (R462). -/
def resetDone (func cause result durUs : Nat) (s : State) : State :=
  raise 76 func .resetDone (beBytes 1 cause ++ beBytes 1 result ++ beBytes 4 durUs) s

/-- The whole-device reset from step 1 to RESET_DONE (R460, R461, R478, R518, R520). -/
def wholeReset (f : ResetFindings) (s : State) : State :=
  let s := freshen f s
  let cause := s.pw.cause.toNat
  if !f.romOk then
    setPw (fun p => { p with dom := p.dom.mapIdx (fun d (_ : DomSt) =>
      if d = 21 ∨ d = 28 ∨ d = 29 ∨ (d = 22 ∧ 2 ≤ cause) then .on else .off) }) { s with phase := .romHalt, svc := { s.svc with meter := 0 } }
  else
    let s := findingsAct f s
    let lc := lifeCycle s
    let s := if (lc = 3 ∨ lc = 4) ∧ kekLive s then wipeKeys (revokeKek s) else s
    let s := kekStatus s
    let s := if lc = 4 then (List.range 6).foldl (fun s p => setDom (6 + p) .off s) s else s
    let res := b2n (findingsBad f) + 2 * b2n (spareClaimed s)
    let s := setObj 0 0x200 (BitVec.ofNat 32 (cause * 2 ^ 28 + s.aon.resets.toNat * 2 ^ 20 + res * 2 ^ 18
      + min 0xFFFF (f.durationUs / 10))) s
    let s := match s.pw.lcDone with
      | none => s
      | some (a, b) =>
        issue ⟨76, 0, false, BitVec.ofNat 3 (evSev .lcChange), s.clk.tb, BitVec.ofNat 16 (evCode .lcChange),
          beBytes 1 a.val ++ beBytes 1 b.val ++ beBytes 1 s.fuse.records.length ++ beBytes 1 s.fuse.kekGen⟩
          (setPw (fun p => { p with lcDone := none }) s)
    let s := resetDone 0 cause res f.durationUs s
    emit (.conLine [ascii "GARURN"] (beBytes 1 cause ++ beBytes 1 res ++ beBytes 4 f.durationUs)) s

/-- WHOLE_DEVICE_RESET (R460): from t0, or after an accepted DEV_RESET. -/
def execWholeDeviceReset (f : ResetFindings) (s : State) : Host.Outcome State Fault Refusal :=
  .next (if s.phase = .resetRun then wholeReset f s
    else if s.phase = .running ∧ s.pw.resetSoon then wholeReset f (beginReset 6 .resetRun s)
    else s)

/-- DEV_RESET (R460). -/
def execDevReset (r : Req) (s : State) : Host.Outcome State Fault Refusal :=
  .next (execReq 0x201 r (r.func == 0) (lenIs r 0) false
    (fun s => .reply stAccepted [] (setPw (fun p => { p with resetSoon := true }) s)) s)

-- Per-function reset (R463 to R465).

/-- Queues whose producer (true) or consumer a function is (R463, 10 R291). -/
def funcQueues (f : Nat) : List (Nat × Bool) :=
  if f = 0x5C ∨ f = 0x5D then let l := f - 0x5C; [(l, true), (2 + l, false), (0x5A + l, true), (0x5C + l, false)]
  else if f = 0x58 ∨ f = 0x59 then
    let n := f - 0x58
    [(4 + n, true), (6 + n, false), (0x58 + n, false)] ++ (List.range 4).map (fun m => (0x50 + 4 * n + m, true))
  else if f = 0x60 then (0x69, true) :: (List.range 9).map (fun k => (0x60 + k, true))
  else if f = 0x68 then [(0x72, true), (0x73, false)] else if f = 0x69 then [(0x70, true), (0x71, false)]
  else if 0x70 ≤ f ∧ f ≤ 0x73 then [(0x10 + (f - 0x70), false), (0x14 + (f - 0x70), true)]
  else []

/-- The queues of a function are emptied, and held while it is in reset (10 R291). -/
def emptyQueues (f : Nat) (held : Bool) (s : State) : State :=
  (funcQueues f).foldl (fun s q => qEmpty q.1 held q.2 s) s

/-- What an object of a function survives (R463, 00 R8). -/
def objKept (f id : Nat) : Bool :=
  if f = 0x58 ∨ f = 0x59 then id == 0x900
  else if f = 0x5C ∨ f = 0x5D then id == 0x32
  else if f = 0x60 then (decide (0xA08 ≤ id ∧ id ≤ 0xA37)) || decide (0xA40 ≤ id ∧ id ≤ 0xA7F)
  else if f = 0x69 then id == 0xB08
  else if 0x70 ≤ f ∧ f ≤ 0x73 then id == 0xC00 || id == 0xC01
  else decide (0x7C ≤ f) && id == 0xF08

/-- A line port enters reset (R463): it stops contributing at once; COUPLER stays. -/
def portResets (p : Nat) (s : State) : State :=
  let was := if inService s p then [p] else []
  let cp := objF s (pf p) 0x400 31 30
  let s := resetObjs (pf p) (fun _ => false) (driverOff p s)
  let s := setF (pf p) 0x403 23 21 (groupOf s p) (setF (pf p) 0x400 31 30 cp s)
  leftPorts was (sieveReset p (setPort p (fun _ => default) s))

/-- A function enters reset: what it clears (R463). -/
def enterReset (f : Nat) (s : State) : State :=
  let s := emptyQueues f true s
  if f ≤ 0x15 then portResets (f - 0x10) s
  else if f ≤ 0x33 then
    let c := f - 0x20
    if clOf s c ≠ .active then resetObjs f (fun _ => false) s
    else if cwsOn s c = 0 then takeoverReset c s
    else { s with cl := { s.cl with leaving := s.cl.leaving ++ [c] } }
  else if f ≤ 0x4F then
    let e := f - 0x40
    let st := objF s f 0x808 31 24
    let run := vAt s.clo.eng e
    let s := setClo (fun c => { c with
      eng := vSet c.eng e none, redo := c.redo ++ (match run with | some r => [r] | none => []) }) s
    let s := resetObjs f (fun _ => false) s
    if st / 16 = 4 then setF f 0x808 31 24 st s else s
  else if f = 0x58 ∨ f = 0x59 then bhPortReset (f - 0x58) (resetObjs f (objKept f) s)
  else if f = 0x5C ∨ f = 0x5D then
    let l := f - 0x5C
    let before := eventLink s
    let s := resetObjs f (objKept f) s
    eventLinkMoved before { s with hl := { s.hl with
      pauseEnd := vSet s.hl.pauseEnd l none, upSince := vSet s.hl.upSince l none
      waiting := s.hl.waiting.filter (fun e => e.1 != l) } }
  else if f = 0x60 then
    let failed := objF s 0x60 0xA01 27 19
    setF 0x60 0xA01 27 19 failed (resetObjs f (objKept f) s)
  else if f = 0x68 then { resetObjs f (objKept f) s with con := State.reset.con }
  else if f = 0x69 then
    let t := s.clk.tb
    let s := resetObjs f (objKept f) s
    let s := { s with cmd := { s.cmd with fwd := s.cmd.fwd.map (fun w => { w with sent := some t }) } }
    setChain (fun c => { (default : ChainSt) with eni := c.eni }) s
  else if f ≤ 0x73 then
    let n := f - 0x70
    let s := stopCore n true s
    let s := emptyQueues f true s
    setCore n (fun c => { c with due := true }) (resetObjs f (objKept f) s)
  else if 0x7C ≤ f then
    let s := resetObjs f (objKept f) s
    if objF s f 0xF08 31 30 = 0 then setF f 0xF08 31 30 1 s else s
  else s

/-- A function leaves reset: pending writes take effect together, before its first action (R465). -/
def leaveReset (f : Nat) (s : State) : State :=
  let s := adoptFunc f s
  let s := emptyQueues f false s
  if 0x10 ≤ f ∧ f ≤ 0x15 then
    -- bank A takes the preset of the profile (04 R114), and the Sieves of the port reset (07 R211)
    let p := f - 0x10
    sieveReset p (loadPreset p false (if profileLow s p then 2 else 1) s)
  else if f = 0x60 then measBegin s
  else if f = 0x5C ∨ f = 0x5D then hostDrain (f - 0x5C) s
  else if 0x7C ≤ f then (if objF s f 0xF08 31 30 = 1 then serveHeld (f - 0x7C) (setF f 0xF08 31 30 0 s) else s)
  else if f = 0x68 then
    let v := getObj s 0x68 0xB00
    setCon (fun c => { c with cfgTx := v, cfgRx := v }) s
  else s

-- Domains (R457 to R459).

/-- Every FUNC code; those of a domain. -/
def allFuncs : List Nat := (List.range 256).filter (fun f => funcDefined f)
def domFuncs (d : Nat) : List Nat := allFuncs.filter (fun f => (funcDomains f).contains d)

/-- FAULT_UNABSORBED for each function that a domain's trip fails (01 R28). -/
def unabsorbed (d : Nat) (l : List Nat) (s : State) : State :=
  inTurn (78 + d) (fun f s => raise (78 + d) f .faultUnabsorbed (beBytes 1 f) s) l s

/-- A function with write rights to a lost region enters reset (09 R286): clusters as a whole, with nothing to take over; the Cloche's jobs
in progress are aborted (11 R333); the event collector of FUNC 0x78 stops, while TB never resets alone (02 R41). -/
def holdFunc (f : Nat) (s : State) : State :=
  if 0x20 ≤ f ∧ f ≤ 0x33 then
    resetObjs f (fun _ => false) { s with cl := { s.cl with leaving := s.cl.leaving.filter (fun c => decide (cf c ≠ f)) } }
  else if f = 0x50 then abortRuns s
  else if f = 0x78 then s
  else enterReset f s

/-- Every function that writes to a lost region is held in reset (09 R286). -/
def holdWriters (r : Nat) (s : State) : State :=
  let l := (regionWriters s r).filter (fun f => !s.pw.regionHeld.contains f)
  let s := if l.any (fun f => decide (0x20 ≤ f.toNat ∧ f.toNat ≤ 0x33)) then codewordsFail s else s
  let s := l.foldl (fun s f => if funcDown s f.toNat then s else holdFunc f.toNat s) s
  setPw (fun p => { p with regionHeld := p.regionHeld ++ l }) s

/-- What a trip does, by domain (R457, 01 R23, R28, 03 R83, 09 R286). -/
def tripped (d : Nat) (s : State) : State :=
  if d < 6 then losePortFrom (78 + d) d 9 5 (driverOff d s)
  else if d < 12 then losePortFrom (78 + d) (d - 6) 10 5 (driverOff (d - 6) s)
  else if d < 16 then
    let s := reslice ((List.range 5).foldl (fun s i => restartOn (5 * (d - 12) + i) none s) s)
    let s := recomputeCap s
    raise (78 + d) (0x7C + (d - 12)) .faultRegion (beBytes 1 (0x7C + (d - 12)) ++ beBytes 1 (activeL s)) s
  else if d < 20 then holdWriters (d - 16) (loseRegion (d - 16) s)
  else if d = 20 then unabsorbed d (domFuncs d) ((List.range 4).foldl (fun s n => haltCore n s) s)
  else if d = 21 then unabsorbed d (domFuncs d) s
  else if d = 22 then
    let s := abortRuns s
    let s := setClo (fun c => { c with keys := [], ctrs := [], seals := [], opens := [], drawMask := true }) s
    unabsorbed d (domFuncs d) (slotsUsed (setF 0x50 0x800 31 31 0 s))
  else if d = 23 ∨ d = 24 then (List.range 4).foldl (fun s i => laneLos (4 * (d - 23) + i) s) s
  else if d = 25 then
    let before := eventLink s
    let s := (List.range 2).foldl (fun s l => setF (0x5C + l) 0x30 31 31 0 s) s
    unabsorbed d (domFuncs d) (eventLinkMoved before s)
  else if d = 26 then unabsorbed d [0x60] s
  else if d = 29 then unabsorbed d [0x78] s
  else unabsorbed d [0] s

/-- DOMAIN_TRIP (R457, R458): a domain that trips within 1 s of its re-power stays off. -/
def execDomainTrip (d : Fin 30) (s : State) : Host.Outcome State Fault Refusal :=
  .next (if domOf s d.val ≠ .on ∨ s.phase ≠ .running then s
    else
      let again := s.pw.repowers.any (fun e => e.1 == d.val && decide (now s ≤ e.2.toNat + 400000000))
      let s := setDom d.val .tripped s
      let s := setF 0 0x203 23 19 d.val (bumpF 0 0x203 31 24 1 s)
      let s := if again then setPw (fun p => { p with locked := p.locked ++ [d.val] }) s else s
      tripped d.val s)

/-- Domains that a per-function reset powers again (R458). -/
def repowerable (d : Nat) : Bool := d < 12 || d = 20 || d = 23 || d = 24

/-- Re-powers of a domain in the last 60 minutes. -/
def recentRepowers (s : State) (d : Nat) : Nat :=
  (s.pw.repowers.filter (fun e => e.1 == d && decide (now s < e.2.toNat + 1440000000000))).length

/-- Tripped domains of a function. -/
def trippedOf (s : State) (f : Nat) : List Nat := (funcDomains f).filter (fun d => decide (domOf s d = .tripped))

/-- What refuses a FUNC_RESET (R16, R333, R458, R459, R463, R464, 09 R286). -/
def resetRefused (f : Nat) (s : State) : Option W16 :=
  let ds := trippedOf s f
  if f = 0x50 ∨ f = 0x78 then some stNotInState
  else if s.pw.resetting.any (fun r => r.func.toNat == f) || funcHeld s f then some stFunctionRunning
  else if s.pw.regionHeld.any (fun g => g.toNat == f)
      || (funcDomains f).any (fun d => decide (domOf s d = .off ∨ domOf s d = .retain)) then some stFunctionInReset
  else if !ds.all (fun d => repowerable d && !s.pw.locked.contains d && decide (recentRepowers s d < 3)
      && (d != 20 || (List.range 4).all (fun n => coreState s n == 0 || coreState s n == 4))) then some stNotInState
  else if 0x20 ≤ f ∧ f ≤ 0x33 ∧ clOf s (f - 0x20) = .active ∧ (spareOf s (clRegion (f - 0x20))).isNone then some stNoResource
  else none

/-- A per-function reset starts, with the re-power of its tripped domains (R458, R463). -/
def startFuncReset (f : Nat) (hold : Bool) (s : State) : State :=
  let ds := trippedOf s f
  let t := s.clk.tb
  let s := ds.foldl (fun s d => setDom d .on s) s
  let s := if ds.isEmpty then s else bumpF 0 0x203 18 11 ds.length s
  let s := setPw (fun p => { p with
    repowers := p.repowers.filter (fun e => decide (t.toNat < e.2.toNat + 1440000000000)) ++ ds.map (fun d => (d, t))
    resetting := p.resetting ++ [⟨BitVec.ofNat 8 f, hold, !ds.isEmpty, false, t⟩] }) s
  enterReset f s

/-- The request came through the function that it resets (R463). -/
def throughSelf (r : Req) : Bool :=
  match r.src with
  | .host l _ _ => r.func.toNat == 0x5C + l.val
  | .console => r.func == 0x68
  | .chain _ => r.func == 0x69
  | .core n => r.func.toNat == 0x70 + n.val

/-- FUNC_RESET (R463). -/
def execFuncReset (r : Req) (s : State) : Host.Outcome State Fault Refusal :=
  let f := r.func.toNat
  let hold := nbit (beAt r.params 0 4) 31
  .next (execReq 0x202 r (funcDefined f && f != 0) (lenIs r 4) false (fun s =>
    match resetRefused f s with
    | some st => refuse st noField s
    | none =>
      if throughSelf r then
        match deferRule r s with
        | some st => refuse st noField s
        | none => .reply stDone [] (startFuncReset f hold s)
      else deferIf r [] s (startFuncReset f hold)) s)

/-- FUNC_RELEASE (R463): the function runs as at the end of its reset, once FUNC_RESET_DONE comes. -/
def execFuncRelease (r : Req) (s : State) : Host.Outcome State Fault Refusal :=
  let f := r.func.toNat
  .next (execReq 0x203 r (funcDefined f && f != 0) (lenIs r 0) false (fun s =>
    if !funcHeld s f then refuse stNotInState noField s
    else deferIf r [] s (fun s =>
      let t := s.clk.tb
      setPw (fun p => { p with
        held := p.held.filter (fun g => g.toNat != f), resetting := p.resetting ++ [⟨r.func, false, false, true, t⟩] }) s)) s)

/-- The command that a per-function reset or release answers. -/
def funcAnswer (f : Nat) (release : Bool) (st : W16) (s : State) : State :=
  match findDeferred (if release then 0x203 else 0x202) f s with
  | none => s
  | some d => finish d st (if st = stDone then [] else beBytes 4 noField) s

/-- FUNC_RESET_DONE (R462 to R465): the function is held, or leaves reset; a trip during the reset prevails. -/
def execFuncResetDone (func : Byte) (failed : Bool) (s : State) : Host.Outcome State Fault Refusal :=
  let f := func.toNat
  .next (match s.pw.resetting.find? (fun r => decide (r.func = func)) with
    | none => s
    | some run =>
      -- a cluster's reset waits for its codeword boundary (R187)
      if s.cl.leaving.any (fun c => decide (cf c = f)) then s
      else
      let s := setPw (fun p => { p with resetting := p.resetting.filter (fun r => decide (r.func ≠ func)) }) s
      if !(trippedOf s f).isEmpty then funcAnswer f run.release stNotInState s
      else
        let s := if run.hold then setPw (fun p => { p with held := p.held ++ [func] }) s else leaveReset f s
        let dur := (now s - run.start.toNat) / 400
        let s := if run.release then s else resetDone f (if run.repower then 9 else 8) (b2n failed) dur s
        funcAnswer f run.release stDone s)

/-- Domains that PD_SET may switch, and its condition for OFF (R459). -/
def pdSetOk (s : State) (d : Nat) (on : Bool) : Bool :=
  let off : Bool :=
    if d < 12 then portState s (d % 6) == 0 || funcHeld s (pf (d % 6))
    else if d = 23 ∨ d = 24 then funcHeld s (0x58 + (d - 23))
    else if d = 20 then (List.range 4).all (fun n => coreState s n == 0 || coreState s n == 4)
    else objF s 0x78 0xE05 26 26 == 0 || objF s 0x78 0xE05 16 16 == 1
  (decide (d < 12) || d == 20 || d == 23 || d == 24 || d == 26) && decide (domOf s d = .on ∨ domOf s d = .off) && (on || off)

/-- PD_SET (R459). -/
def execPdSet (r : Req) (s : State) : Host.Outcome State Fault Refusal :=
  let d := byteAt r.params 0
  let v := byteAt r.params 1
  .next (execReq 0x210 r (r.func == 0) (lenAnd r 4 (firstBad (chk (decide (d ≤ 29)) 0) (chk (decide (v ≤ 1)) 1))) false
    (fun s =>
      if !pdSetOk s d (v == 1) then refuse stNotInState noField s
      else if v = 0 then
        if domOf s d = .off then .reply stDone [] s
        else .reply stDone [] ((domFuncs d).foldl (fun s f => if funcHeld s f then s else enterReset f s) (setDom d .off s))
      else if domOf s d = .on then .reply stDone [] s
      else
        let s := setDom d .on s
        .reply stDone [] ((domFuncs d).foldl (fun s f => if funcDown s f then s else leaveReset f s) s)) s)

-- Management controller (R466, R467).

/-- Soundings and transmit tests are abandoned with their commands (01 R24): one that waits does not begin, and one that runs
leaves its port idle. -/
def testsAbandoned (s : State) : State :=
  (List.range 6).foldl (fun s p =>
    if (portOf s p).testWaiting || (portOf s p).testRunning then testEnds p s else s) s

/-- A deferred command that runs is abandoned at the point it had reached (01 R24): the test mode, load or run that it had entered
ends, so that the re-sent command begins again. -/
def abandon (d : Deferred) (s : State) : State :=
  let f := d.req.func.toNat
  if d.op = 0x820 then (if engState s (f - 0x40) = 3 then setF f 0x808 31 28 (d.aux.headD 1) s else s)
  else if d.op = 0x930 then setLaneF (d.aux.headD 0) 24 24 0 s
  else if d.op = 0xA04 then setF 0x60 0xA01 9 9 0 s
  else if d.op = 0xB01 then setF 0x69 0xB09 22 22 0 (setChain (fun c => { c with
    run := none, packetsOff := false, txq := c.txq.filter (fun m => decide ((m.headD 0).toNat / 64 ≠ 1)) }) s)
  else if d.op = 0xB02 then setChain (fun c => { c with wake := none }) s
  else if d.op = 0xC02 then setCoreState (f - 0x70) 0 (setCore (f - 0x70) (fun c => { c with starting := none }) s)
  else s

/-- What the controller's restart takes with it (01 R24, R466): deferred commands, those that wait for the Cloche, a wipe or a region
controller, and the reply store. Functions under reset or release run on (log 170). -/
def mcForgets (s : State) : State :=
  let l := s.cmd.deferred
  let s := testsAbandoned s
  let s := l.foldl (fun s d => abandon d s) { s with cmd := { s.cmd with deferred := [], replies := [] } }
  let hostJob := fun (j : CJob) => match j with | .host _ => true | _ => false
  let s := (List.range 16).foldl (fun s e => if (vAt s.clo.eng e).any (fun r => hostJob r.job) then engRest e s else s) s
  let s := setClo (fun c => { c with
    jobs := c.jobs.filter (fun j => !hostJob j), redo := c.redo.filter (fun r => !hostJob r.job), waiting := [] }) s
  let runs := s.pw.resetting.filter (fun r => !s.cl.leaving.any (fun c => decide (cf c = r.func.toNat)))
  let s := setPw (fun p => { p with resetting := [] }) s
  let s := runs.foldl (fun s r => if (trippedOf s r.func.toNat).isEmpty then leaveReset r.func.toNat s else s) s
  { s with
    con := { s.con with asked := [] }
    tr := { s.tr with
      wiping := s.tr.wiping.map (fun w => { w with ask := none })
      reg := s.tr.reg.map (fun g => { g with heldAcc := g.heldAcc.filter (fun h => match h.who with | .peek _ => false | _ => true) }) } }

/-- MC_LOCKSTEP_MISMATCH (R466, R467). -/
def execMcLockstepMismatch (s : State) : Host.Outcome State Fault Refusal :=
  .next (if s.phase ≠ .running ∨ s.pw.mcDown then s
    else
      let soon : Bool := match s.pw.mcLast with | some t => decide (now s < t.toNat + 400000000) | none => false
      if soon then beginReset 4 .resetRun s
      else setPw (fun p => { p with mcDown := true }) (mcForgets s))

/-- MC_RESTART_DONE (R466, R467). -/
def execMcRestartDone (crcOk : Bool) (s : State) : Host.Outcome State Fault Refusal :=
  .next (if !s.pw.mcDown then s
    else if !crcOk then beginReset 4 .resetRun s
    else
      let n := min 0xFFFF (s.pw.mcRestarts + 1)
      let t := s.clk.tb
      raise 76 0 .mcRestart (beBytes 2 n) (setPw (fun p => { p with mcDown := false, mcLast := some t, mcRestarts := n }) s))

-- Sleep (R468, R469).

/-- SLEEP (R468): the state is entered once the reply has left. -/
def execSleep (r : Req) (s : State) : Host.Outcome State Fault Refusal :=
  .next (execReq 0x220 r (r.func == 0) (lenIs r 0) false (fun s =>
    if objF s 0x69 0xB09 22 22 = 1 then refuse stNotInState noField s
    else .reply stDone [] (setPw (fun p => { p with sleepSoon := true }) s)) s)

/-- The low-power state (R468). -/
def goSleep (s : State) : State :=
  setPw (fun p => { p with
    sleepSoon := false
    dom := p.dom.mapIdx (fun d (x : DomSt) => if d = 21 then x else if d = 22 then .retain else .off) })
    { driversOff s with phase := .asleep }

/-- What the block does on an empty queue: a tick, and sleep where it is due. -/
def deviceIdle (s : State) : State :=
  let s := idleStep s
  if s.pw.sleepSoon && decide (s.phase = .running) && s.chain.txq.isEmpty && s.chain.sending.isNone && s.hl.waiting.isEmpty then
    goSleep s
  else s

/-- WAKE_CHARACTERS (15 R438, R469): the first 0xC0 OR the own address, the second its complement. -/
def execWakeCharacters (first second : Byte) (s : State) : Host.Outcome State Fault Refusal :=
  .next (if s.phase = .asleep ∧ s.aon.addr ≠ 0 ∧ s.aon.addr ≠ 63 ∧ first.toNat = 0xC0 + s.aon.addr.toNat ∧ second = ~~~first then
      beginReset 7 .resetRun s
    else s)

-- Thermal limits (R471 to R473).

/-- THERMAL_SHUTDOWN (R472). -/
def execThermalShutdown (s : State) : Host.Outcome State Fault Refusal :=
  .next (if s.phase ≠ .running ∧ s.phase ≠ .romHalt then s else beginReset 3 .thermal s)

/-- THERMAL_RECOVERY (R472): where a supply was lost meanwhile, the clocks are waited for too (R460). -/
def execThermalRecovery (s : State) : Host.Outcome State Fault Refusal :=
  .next (if s.phase = .thermal then { s with phase := if s.pw.cause.toNat ≤ 1 then .heldInReset else .resetRun } else s)

/-- HOT_CHANGE (R471, R473): the sensors' new readings. -/
def execHotChange (temps : Vector Int 8) (s : State) : Host.Outcome State Fault Refusal :=
  .next (
    let s := setPw (fun p => { p with temps := temps }) s
    if s.phase ≠ .running then s
    else
      let h := hottest s
      let hot := hotNow s
      let s := setF 0 0x211 31 24 (clampInt 0 255 (h / 10 + 64)).toNat s
      let s := setF 0 0x211 23 21 (temps.toList.findIdx (fun t => decide (t = h))) s
      throttleEvents 1 0xFF (setF 0 0x211 20 20 (b2n hot) s))

-- Life cycle (R474 to R479).

/-- Where a life-cycle command comes from. -/
def viaHost (r : Req) : Bool := match r.src with | .host _ _ _ => true | _ => false
def viaConsole (r : Req) : Bool := match r.src with | .console => true | _ => false

/-- A life-cycle command (R475, R476): the strap is read as it arrives (R479). -/
def lcRequest (op : Nat) (new : Fin 5) (r : Req) (svcLow : Bool) (ok : State → Bool) (s : State) : State :=
  let s := if tapHold s then s else setPw (fun p => { p with svcLow := svcLow }) s
  execReq op r (r.func == 0) (lenAnd r 4 (chk (beAt r.params 0 4 == Config.eui.toNat % 2 ^ 32) 0)) false (fun s =>
    if s.pw.lcNext.isSome || !ok s then refuse stNotInState noField s
    else if new ≠ 4 ∧ 31 ≤ s.fuse.records.length then refuse stNoResource noField s
    else .reply stDone [] (setPw (fun p => { p with lcNext := some new }) s)) s

/-- LC_PROVISION. -/
def execLcProvision (r : Req) (svcLow : Bool) (s : State) : Host.Outcome State Fault Refusal :=
  .next (lcRequest 0x301 1 r svcLow (fun s => (viaHost r || viaConsole r) && lifeCycle s == 0 && kekOk s s.fuse.kekGen) s)

/-- LC_COMMIT. -/
def execLcCommit (r : Req) (svcLow : Bool) (s : State) : Host.Outcome State Fault Refusal :=
  .next (lcRequest 0x302 2 r svcLow (fun s => viaHost r && lifeCycle s == 1 && (netSlot s).isSome) s)

/-- LC_SERVICE. -/
def execLcService (r : Req) (svcLow : Bool) (s : State) : Host.Outcome State Fault Refusal :=
  .next (lcRequest 0x303 3 r svcLow (fun s => viaConsole r && (lifeCycle s == 1 || lifeCycle s == 2) && s.pw.svcLow) s)

/-- LC_RETURN. -/
def execLcReturn (r : Req) (svcLow : Bool) (s : State) : Host.Outcome State Fault Refusal :=
  .next (lcRequest 0x304 2 r svcLow (fun s => viaHost r && lifeCycle s == 3 && !s.pw.svcLow && !s.fuse.svcGens.isEmpty) s)

/-- LC_RETIRE. -/
def execLcRetire (r : Req) (svcLow : Bool) (s : State) : Host.Outcome State Fault Refusal :=
  .next (lcRequest 0x305 4 r svcLow (fun s => viaHost r || (viaConsole r && s.pw.svcLow)) s)

/-- LIFE_CYCLE_COMMIT (R477): the record is burned, secrets go with SERVICE and RETIRED, and the device resets. -/
def execLifeCycleCommit (f : ResetFindings) (s : State) : Host.Outcome State Fault Refusal :=
  .next (match s.pw.lcNext with
    | none => s
    | some new =>
      if s.phase ≠ .running then s
      else
        let old := lifeCycle s
        let s := { s with
          cmd := { s.cmd with deferred := [] }
          fuse := { s.fuse with
            records := s.fuse.records ++ [new], svcGens := if new.val = 2 then [] else s.fuse.svcGens } }
        let s := if new.val = 3 ∨ new.val = 4 then wipeKeys (revokeKek s) else s
        let s := setPw (fun p => { p with lcDone := some (Fin.ofNat 5 old, new) }) s
        wholeReset f (beginReset 5 .resetRun s))

end Sys2Proof.Machine
end

