-- ==== Sys2Proof/Machine/Service.lean ====
section
/-!
DEFINITION. Field service (18) and the test access port (19 R496 to R499): METER, LEDs, self-test, and the instructions
of boundary scan that act on the device.
-/
namespace Sys2Proof.Machine

/-- Replace the service record. -/
def setSvc (f : SvcSt → SvcSt) (s : State) : State := { s with svc := f s.svc }

-- METER (R480, R481).

/-- METER_CTRL.SEL. -/
def meterSel (s : State) : Nat := objF s 0 0xD00 31 24

/-- The function behind a selection; 0 for those of the device as a whole. -/
def meterFunc (sel : Nat) : Nat :=
  if 0x20 ≤ sel ∧ sel ≤ 0x25 then pf (sel - 0x20)
  else if 0x28 ≤ sel ∧ sel ≤ 0x2D then pf (sel - 0x28)
  else if 0x30 ≤ sel ∧ sel ≤ 0x47 then 0x60
  else if 0x50 ≤ sel ∧ sel ≤ 0x57 then 0x58 + (sel - 0x50) / 4
  else if sel = 0x58 ∨ sel = 0x59 then 0x5C + (sel - 0x58)
  else if sel = 0x5C ∨ sel = 0x5D then 0x69
  else if sel = 0x18 ∨ sel = 0x19 ∨ sel = 0x1A ∨ sel = 0x1B then 0x78
  else 0

/-- The level of a backhaul lane, in quarters of a volt. -/
def laneLevel (s : State) (l : Nat) : Nat :=
  if laneF s l 29 29 = 1 then 0 else if laneF s l 31 30 = 0 then 1 else if laneF s l 31 30 = 1 then 2
  else if laneF s l 27 26 = 0 then 4 else 3

/-- The level in mV that the management controller sets for a selection (R481); none for the analogue paths, which
follow their quantity. `reading` is the RMS in mV of a port or a measurement channel. -/
def meterLevel (s : State) (sel reading : Nat) : Option Nat :=
  if 1 ≤ sel ∧ sel ≤ 6 ∨ 8 ≤ sel ∧ sel ≤ 0xD ∨ 0x10 ≤ sel ∧ sel ≤ 0x17 then none
  else if funcDown s (meterFunc sel) then some 0
  else if sel = 0x18 then some (250 * ((List.range 8).filter (fun i => nbit (objF s 0x78 0xE09 28 21) i)).length)
  else if sel = 0x19 then
    some (if objF s 0x78 0xE09 31 31 = 0 then 0 else if objF s 0x78 0xE09 29 29 = 0 then 1000 else 500)
  else if sel = 0x1A then some (1000 * objF s 0x78 0xE09 30 30)
  else if sel = 0x1B then some (250 * trackCode s.clk.track)
  else if 0x20 ≤ sel ∧ sel ≤ 0x25 then some (min 2000 reading)
  else if 0x28 ≤ sel ∧ sel ≤ 0x2D then some (min 2500 (10 * objF s (pf (sel - 0x28)) 0x403 13 6))
  else if 0x30 ≤ sel ∧ sel ≤ 0x47 then some (min 2500 reading)
  else if 0x50 ≤ sel ∧ sel ≤ 0x57 then some (250 * laneLevel s (sel - 0x50))
  else if sel = 0x58 ∨ sel = 0x59 then
    some (if !hlLock s (sel - 0x58) then 0 else if hlUp s (sel - 0x58) then 1000 else 500)
  else if sel = 0x5C then some (25 * s.aon.addr.toNat)
  else if sel = 0x5D then
    some (if objF s 0x69 0xB09 23 23 = 1 then 0 else if s.chain.sending.isSome then 500 else 1000)
  else some 0

/-- The analogue selections whose quantity State holds: the bandgap and the sensors (R481). -/
def meterAnalog (s : State) (sel : Nat) : Option Nat :=
  if sel = 1 then some 1200
  else if 0x10 ≤ sel ∧ sel ≤ 0x17 then some (500 + vAt s.pw.temps (sel - 0x10)).toNat
  else none

/-- A selection comes into force (R480). -/
def meterSelect (v : Nat) (s : State) : State :=
  let s := setF 0 0xD00 31 24 v s
  let m := match meterAnalog s v with
    | some m => m
    | none => (meterLevel s v s.svc.meter).getD s.svc.meter
  setSvc (fun c => { c with meter := m }) s

/-- METER_REFRESH (R480, R481). -/
def execMeterRefresh (reading : Nat) (s : State) : Host.Outcome State Fault Refusal :=
  .next (if !accepting s then s
    else match meterLevel s (meterSel s) reading with
      | none => s
      | some m => setSvc (fun c => { c with meter := m }) s)

-- LEDs (R482 to R484).

/-- Reduced redundancy (R482). -/
def lessRedundant (s : State) : Bool :=
  decide (objF s 0 0x20 31 27 < 16 ∨ objF s 0 0x20 26 24 < 4 ∨ objF s 0 0x20 23 21 < 4 ∨ objF s 0 0x20 20 18 < 4
    ∨ objF s 0 0x20 17 15 < 4 ∨ objF s 0 0x20 6 6 = 0 ∨ objF s 0x50 0x800 25 21 < 16
    ∨ objF s 0x60 0xA01 27 19 ≠ 0 ∨ spareSlice s = 15)
    || (List.range 4).any (fun r => decide (clOf s (5 * r + 4) = .retired))

/-- The index of the system LED's code: the first row of the table that applies (R482). -/
def sysLed (s : State) : Nat :=
  if s.phase = .asleep then 0
  else if s.phase = .romHalt then 1
  else if s.phase = .heldInReset ∨ s.phase = .waitClocks ∨ s.phase = .thermal then 11
  else if s.svc.locate.isSome && !s.svc.ledTest then 2
  else if s.svc.unabsorbed then 3
  else if lifeCycle s = 4 then 4
  else if s.phase = .resetRun then 5
  else if lifeCycle s = 3 then 6
  else if isHot s then 7
  else if s.clk.track = .acquire ∨ s.clk.track = .holdover then 8
  else if lessRedundant s then 9
  else 10

/-- A sounding or transmit test runs on port p. -/
def portTest (s : State) (p : Nat) : Bool := (portOf s p).testRunning

/-- The index of a port LED's code (R483). -/
def portLed (s : State) (p : Nat) : Nat :=
  let st := portState s p
  if st = 0 then 0
  else if st = 1 ∨ portTest s p then 1
  else if st = 2 then
    (if 0 < objF s (pf p) 0x218 31 29 ∨ objF s (pf p) 0x218 28 24 < 16 then 3 else 2)
  else if st = 5 then 5
  else 4

/-- LED_STATUS (R482, R483). -/
def ledStatus (s : State) : W32 :=
  (List.range 6).foldl (fun w n => fput w (3 * n + 12) (3 * n + 10) (portLed s n)) (fput 0 31 28 (sysLed s))

/-- LED_LOCATE (R484): its time counts from the command. -/
def execLedLocate (r : Req) (s : State) : Host.Outcome State Fault Refusal :=
  .next (execReq 0xD02 r (r.func == 0) (lenIs r 4) false (fun s =>
    let n := byteAt r.params 0
    let t := s.clk.tb + BitVec.ofNat 64 (400000000 * n)
    .reply stDone [] (setSvc (fun c => { c with locate := if n = 0 then none else some t }) s)) s)

/-- LOCATE_END (R484): at its time. -/
def execLocateEnd (s : State) : Host.Outcome State Fault Refusal :=
  .next (match s.svc.locate with
    | some e => if s.phase = .running ∧ e.toNat ≤ now s then setSvc (fun c => { c with locate := none }) s else s
    | none => s)

/-- LED_TEST (R484). -/
def execLedTest (r : Req) (s : State) : Host.Outcome State Fault Refusal :=
  .next (execReq 0xD03 r (r.func == 0) (lenIs r 0) false (fun s =>
    .reply stDone [] (setSvc (fun c => { c with ledTest := true }) s)) s)

/-- LED_TEST_END (R484): the codes resume; a locate whose time is past does not begin. -/
def execLedTestEnd (s : State) : Host.Outcome State Fault Refusal :=
  .next (if s.phase ≠ .running ∨ !s.svc.ledTest then s
    else
      let t := now s
      setSvc (fun c => { c with
        ledTest := false
        locate := match c.locate with | some e => if t < e.toNat then some e else none | none => none }) s)

-- The test access port (19 R496 to R499).

/-- IDCODE (R497): version, part number, manufacturer identity, and bit 0 set. -/
def idCode : Nat := 2 ^ 28 * 0x3 + 2 ^ 12 * 0x6086 + 2 * 0x52F + 1

/-- What a cell of the boundary register holds (R497). -/
inductive ScanCell where
  | input
  | output
  | enable
deriving DecidableEq, Repr

/-- The scanned balls with one input cell, then those with an input, an output and an enable cell and whether they are
open-drain, in the order of the cells (R490, R497). -/
def scanIns : List String := ["SVC_RXD", "SVC_EN_N", "RESET_N", "REF_BYP", "CHAIN_ENI"]
def scanBalls : List (String × Bool) :=
  [("SYS_LED", true), ("LP_0_LED", true), ("LP_1_LED", true), ("LP_2_LED", true), ("LP_3_LED", true), ("LP_4_LED", true),
    ("LP_5_LED", true), ("SVC_TXD", false), ("CHAIN_IO", true), ("CHAIN_ENO", false), ("CHAIN_SYNC", true)]
  ++ [("SPI_CLK", false), ("SPI_CS_N", false), ("SPI_IO0", false), ("SPI_IO1", false), ("SPI_IO2", false), ("SPI_IO3", false)]

/-- The cells of the boundary register from cell 0, next to TDO (R497). -/
def scanCells : List (String × ScanCell) :=
  scanIns.map (fun b => (b, .input)) ++ scanBalls.flatMap (fun b => [(b.1, .input), (b.1, .output), (b.1, .enable)])

/-- What an output and an enable cell do to their ball: an open-drain ball is pulled low or released (R497). -/
def cellDrive (openDrain out en : Bool) : Option Bool := if !en || (openDrain && out) then none else some out

/-- The levels that the boundary register gives the scanned outputs. -/
def scanLevels (b : BitVec 56) : List (Option Bool) :=
  (scanBalls.zipIdx).map (fun e => cellDrive e.1.2 (b.getLsbD (6 + 3 * e.2)) (b.getLsbD (7 + 3 * e.2)))

/-- The instruction in force, where private ones act as BYPASS outside FACTORY and SERVICE (R496, R499). -/
def tapActs (s : State) : Nat :=
  let op := s.svc.tapIr.toNat
  let known := [0, 1, 2, 3, 4].contains op || ((op = 0x20 || op = 0x21) && (lifeCycle s = 0 || lifeCycle s = 3))
  if known then op else 0x3F

/-- The data register selected, and the balls driven, are presented (R496, R497). -/
def tapSelects (s : State) : State :=
  let op := tapActs s
  let dr : Nat × Option Nat :=
    if op ≤ 1 then (56, none) else if op = 2 then (32, some idCode)
    else if op = 0x20 then (72, some s.svc.peek.toNat) else if op = 0x21 then (8, none) else (1, some 0)
  let drive := if op = 0 ∨ op = 3 then some (scanLevels s.svc.boundary)
    else if op = 4 then some (scanBalls.map (fun _ => none)) else none
  emit (.tapScan dr.1 dr.2 drive) s

/-- TAP_RESET: IDCODE is selected (R496, R499). -/
def execTapReset (s : State) : Host.Outcome State Fault Refusal :=
  .next (tapSelects (setSvc (fun c => { c with tapIr := 2 }) s))

/-- TAP_INSTRUCTION_UPDATE (R498): under EXTEST, CLAMP and HIGHZ every driver is idle and every SerDes lane sends a
steady low; bursts and frames due in that time are not sent. -/
def execTapInstructionUpdate (op : BitVec 6) (s : State) : Host.Outcome State Fault Refusal :=
  .next (
    let s := tapSelects (setSvc (fun c => { c with tapIr := op }) s)
    if tapHold s then driversOff s else s)

/-- The private instructions act in FACTORY and SERVICE, and as BYPASS elsewhere (R499). -/
def tapPrivate (op : BitVec 6) (s : State) : Bool :=
  decide (s.svc.tapIr = op) && decide (lifeCycle s = 0 ∨ lifeCycle s = 3) && decide (s.phase = .running)

/-- PEEK at Update-DR (R496): the word at the address, read as client 0x21, for the next capture; a poisoned word reads
zero with bit 0 set, and its read has the outcome of 09 R278. Behind a restart or a wipe it waits (01 R17, 09 R285). -/
def execPeekUpdate (addr : BitVec 23) (s : State) : Host.Outcome State Fault Refusal :=
  .next (if !tapPrivate 0x20 s then s
    else
      let a := 8 * (addr.toNat / 8)
      tapSelects (match heldAt s a 8 with
        | some l => holdAccess (mcAccess .tap a 8) l s
        | none => tapRead a s))

/-- METER_SEL at Update-DR (R496). -/
def execMeterSelUpdate (v : Byte) (s : State) : Host.Outcome State Fault Refusal :=
  .next (if tapPrivate 0x21 s then meterSelect v.toNat s else s)

-- Self-test (R485, R486).

/-- SVC_SELFTEST: deferred. -/
def execSvcSelftest (r : Req) (s : State) : Host.Outcome State Fault Refusal :=
  .next (execReq 0xD01 r (r.func == 0) (lenIs r 0) false (fun s => deferIf r [] s id) s)

/-- One record of the reply: a test of units counts those that passed; PASS when all did. -/
def selfRec (item tested passed : Nat) (fail : Bool) : Bytes :=
  let res := if tested = 0 then 2 else if fail || decide (passed < tested) then 1 else 0
  beBytes 1 item ++ beBytes 1 res ++ beBytes 1 tested ++ beBytes 1 passed

/-- Units that a test found failing meet the rules of that test (R486). -/
def selfActs (f : SelftestFinding) (s : State) : State :=
  if f.item = 1 then
    f.bad.foldl (fun s r => if r < 4 ∧ objF s (0x7C + r) 0xF08 29 28 = 0 then bankFailing r 16 true s else s) s
  else if f.item = 2 then
    let units := (List.range 20).filter (fun c => decide (0 < f.tested) && decide (clOf s c ≠ .active) && !funcDown s (cf c))
    f.bad.foldl (fun s c => codecFails c s) (units.foldl (fun s c => unitTested c (!f.bad.contains c) s) s)
  else if f.item = 3 then f.bad.foldl (fun s e => if e < 16 ∧ engState s e ≠ 4 then retireEngine e 2 s else s) s
  else s

/-- The record of item i: items 0 to 3 and 5 from what the tests found, the others from the state (R485). -/
def selfItem (finds : List SelftestFinding) (s : State) (i : Nat) : Bytes :=
  let f := finds.find? (fun f => f.item.val == i)
  let tested := match f with | some f => min 255 f.tested | none => 0
  let passed := match f with | some f => min tested f.passed | none => 0
  if i = 3 then selfRec 3 tested passed (trngSt s 0 == 2 || trngSt s 1 == 2 || drbgDead s)
  else if i = 4 then
    let bad := ((List.range 4).filter (fun k => decide (laneOf s true (36 + k) ≠ .spare))).length
      + ((List.range 4).filter (fun k => decide (laneOf s false (36 + k) ≠ .spare))).length
    selfRec 4 80 (80 - bad) false
  else if i = 6 then
    let bad := ((List.range 9).filter (fun k => sliceFailed s k)).length
    selfRec 6 9 (9 - bad) (spareSlice s == 15)
  else if i = 7 then
    let l := (List.range 8).filter (fun l => laneOn s l)
    selfRec 7 l.length (l.filter (fun l => laneGood s l)).length false
  else if i = 8 then selfRec 8 2 ((List.range 2).filter (fun l => hlUp s l)).length false
  else if i = 9 then selfRec 9 1 (b2n (s.aon.addr != 0 && objF s 0x69 0xB09 23 23 == 0)) false
  else selfRec i tested passed false

/-- SVC_SELFTEST_DONE (R485): one result for each item, in order. -/
def execSvcSelftestDone (finds : List SelftestFinding) (s : State) : Host.Outcome State Fault Refusal :=
  .next (match findDeferred 0xD01 0 s with
    | none => s
    | some d =>
      let s := finds.foldl (fun s f => selfActs f s) s
      finish d stDone ([10, 0, 0, 0] ++ (List.range 10).flatMap (selfItem finds s)) s)

end Sys2Proof.Machine
end

