-- ==== Sys2Proof/Machine/Params.lean ====
section
/-!
DEFINITION. Identity, parameter objects and performance bins over commands (14 R404 to R409, R414, R516, R517): what an
object reads, what a write of each access class does, and the commands that carry them.
-/
namespace Sys2Proof.Machine

-- What objects read.

/-- A unit has no power, or is in reset with its cluster or port (01 R13): PD_DRV_n powers the driver alone, PD_AFE_n the
other units of a port (03 R66). -/
def unitOff (s : State) (func id : Nat) : Bool :=
  if func < 0x16 then
    s.pw.held.any (fun f => f.toNat == func) || s.pw.resetting.any (fun r => r.func.toNat == func)
      || decide (domOf s (func - 0x10 + (if id = 0x12 then 6 else 0)) ≠ .on)
  else funcDown s func

/-- A unit of a line port is busy (01 R13): its driver and DAC while the driver is active, its ADC and front-end while the port checks
or serves (log 171). -/
def portUnitBusy (s : State) (func id : Nat) : Bool :=
  let p := func - 0x10
  if id = 0x11 ∨ id = 0x12 then driverOn s p else portState s p == 1 || portState s p == 2

/-- UNIT_STATUS (01 R13): a retired unit reads 5, one without power or in reset 0, the L-unit under CODEC_TEST 3, one of a
spare in standby 6; an L-unit is busy while its cluster decodes, and CKPT_VALID follows its codeword; a port's units are busy
while they work. -/
def unitStatus (s : State) (func id : Nat) : W32 :=
  let w := getObj s func id
  let c := func - 0x20
  let cluster : Bool := decide (0x20 ≤ func)
  let runs := s.dec.frames.flatMap (fun f =>
    f.cws.filter (fun x => decide (x.ph = .running c ∨ x.ph = .reprieved c)))
  let dec : Bool := cluster && id == 0x12 && !runs.isEmpty
  if cluster && decide (clOf s c = .retired) then fput w 31 28 5
  else if unitOff s func id then fput w 31 28 0
  else if cluster && id == 0x12 && (findDeferred 0x541 func s).isSome then fput w 31 28 3
  else if cluster && decide (clOf s c = .spare) then fput w 31 28 6
  else if !cluster && fget w 31 28 == 1 && portUnitBusy s func id then fput w 31 28 2
  else if dec && fget w 31 28 == 1 then fput (fput w 31 28 2) 0 0 (b2n (runs.any (fun x => x.ckpt)))
  else w

/-- MAINS_PHASE (02 R47, R48). -/
def mainsPhaseObj (s : State) : W32 :=
  fput (fput (fput (fput (fput 0 31 16 (mainsPhase s)) 15 12 s.clk.slot.val) 11 8 (trackCode s.clk.track))
    7 7 (b2n s.clk.onAlt)) 6 6 (objF s 0x78 0xE09 29 29)

/-- The code of a domain's state (17, power domains). -/
def domCode : DomSt → Nat
  | .off => 0 | .on => 1 | .tripped => 2 | .retain => 3

/-- Sixteen domains from d on, domain d lowest. -/
def pdWord (s : State) (d n : Nat) : Nat := (List.range n).foldl (fun a i => a + domCode (domOf s (d + i)) * 4 ^ i) 0

/-- ALPHA of SHAPE_STATUS (04 R115): the share of bank B. -/
def shapeAlpha (s : State) (p : Nat) : Nat :=
  let x := portOf s p
  let b := objF s (pf p) 0x503 31 31
  let share := match x.fadeAt with
    | some t => (roundNear 115 (1023 * fadeShare (now s - t) x.fadeLen)).toNat
    | none => if x.fadeWait then 0 else 1023
  if b = 1 then share else 1023 - share

/-- BB_PORT_STATUS (05): floor, last LQI and the group's state; 5 for a port that does not contribute. -/
def bbPortObj (s : State) (p : Nat) : W32 :=
  let w := getObj s (pf p) 0x524
  let g := groupOf s p
  let floor := match vAt s.bb.floor p with
    | some v => halfDbfs 524 v
    | none => 0
  let st := if !(rxPorts s g).contains p then 5
    else match (rxOf s g).ph with
      | .idle => 0 | .sync => 1 | .train => 2 | .fc => 3 | .payload => 4
  fput (fput w 31 24 floor) 15 12 st

/-- NB_PORT_STATUS (07): three bits per channel. -/
def nbPortObj (s : State) (p : Nat) : W32 :=
  let g := groupOf s p
  (List.range 8).foldl (fun w k =>
    let x := nbOf s (nbI g k)
    let st := if !nbEnabled x.cfg then 0
      else if !(nbPorts s g).contains p || driverOn s p then 6
      else match x.ph with
        | .settle => 1 | .idle => 2 | .sync => 3 | .header => 4 | .payload => 5
    fput w (3 * k + 10) (3 * k + 8) st) 0

/-- LINK_STATUS, LINK_RES and LINK_PORT_NODES (08). -/
def linkStatusObj (s : State) : W32 :=
  let lost := (nodesIn s 3).length
  let watch := (List.range 6).foldl (fun a g => a + b2n (grpL s g).watch.isSome * 2 ^ g) 0
  fput (fput (fput (fput 0 31 20 (nodesIn s 2).length) 19 8 lost) 7 1 watch) 0 0 (b2n ((freeNode s).isNone && lost == 0))
def linkResObj (s : State) : W32 :=
  let l := liveNodes s
  fput (fput (fput 0 31 22 ((List.range 512).filter (fun c => cacheValid s c)).length)
    21 15 (l.filter (fun n => nRepeater s n)).length) 14 11 (l.foldl (fun a n => max a (nHops s n)) 0)
def linkNodesObj (s : State) (p : Nat) : W32 :=
  fput (fput (getObj s (pf p) 0x711) 31 20 ((liveNodes s).filter (fun n => nbit (nPorts s n) p)).length) 19 8
    ((liveNodes s).filter (fun n => nPorts s n == 2 ^ p)).length

/-- ID_STATE (14). -/
def idState (s : State) : W32 :=
  fput (fput (fput (fput 0 31 28 (lifeCycle s)) 27 22 s.aon.addr.toNat) 21 21 (b2n s.pw.svcLow)) 20 20 (b2n (isMaster s))

/-- LC_STATUS (17). -/
def lcStatus (s : State) : W32 :=
  fput (fput (fput (fput 0 31 28 (lifeCycle s)) 27 22 s.fuse.records.length) 21 21 (b2n s.pw.svcLow))
    20 20 (b2n (lifeCycle s == 3 && !s.fuse.svcGens.isEmpty))

/-- The current value of an object (14 R405): stored, or computed from the state it shows. -/
def liveObj (s : State) (func id : Nat) : W32 :=
  let w := getObj s func id
  if id = 1 then BitVec.ofNat 32 (Config.eui.toNat / 2 ^ 32)
  else if id = 2 then BitVec.ofNat 32 Config.eui.toNat
  else if id = 3 then BitVec.ofNat 32 (Config.mac.toNat / 2 ^ 32)
  else if id = 4 then BitVec.ofNat 32 Config.mac.toNat
  else if id = 5 then Config.idRom
  else if id = 6 then idState s
  else if 0x10 ≤ id ∧ id ≤ 0x13 then unitStatus s func id
  else if id = 0x30 then fput w 29 29 (b2n (decide (eventLink s = some (func - 0x5C))))
  else if id = 0x201 then BitVec.ofNat 32 (pdWord s 0 16)
  else if id = 0x202 then BitVec.ofNat 32 (16 * pdWord s 16 14)
  else if id = 0x300 then lcStatus s
  else if id = 0x403 then fput w 20 20 (b2n (driverOn s (func - 0x10)))
  else if id = 0x503 then fput w 29 20 (shapeAlpha s (func - 0x10))
  else if id = 0x524 then bbPortObj s (func - 0x10)
  else if id = 0x541 then fput (fput w 17 8 (decQueue s)) 7 0 (furrowUse s)
  else if id = 0x620 then nbPortObj s (func - 0x10)
  else if id = 0x708 then linkStatusObj s
  else if id = 0x709 then linkResObj s
  else if id = 0x711 then linkNodesObj s (func - 0x10)
  else if id = 0x940 then fput w 17 4 (skewLimit s / 1000)
  else if id = 0xB01 then fput w 25 16 (min 1023 (conLevel s))
  else if id = 0xB09 then
    fput (fput (fput w 31 26 s.aon.addr.toNat) 25 25 (b2n s.chain.eni)) 24 24 (b2n (s.aon.addr != 0))
  else if id = 0xD01 then ledStatus s
  else if id = 0xE00 then s.clk.tb.truncate 32
  else if id = 0xE02 then BitVec.ofNat 32 s.clk.p
  else if id = 0xE03 then mainsPhaseObj s
  else if id = 0xE04 then s.clk.cycle
  else w

/-- Objects of class RO that describe a function from outside it and read their own value while it is down: UNIT_STATUS
(01 R13), PORT_STATUS (18, worked example), CE_STATUS and MEAS_STATUS (retired units survive, 11 R307, 13 R378),
CHAIN_STATUS (15 R435), TR_REGION (09 R286). -/
def ownStatus (id : Nat) : Bool :=
  (0x10 ≤ id && id ≤ 0x13) || id == 0x403 || id == 0x808 || id == 0xA01 || id == 0xB09 || id == 0xF08

/-- A class B write that waits, the latest one (R408, 08 R228). -/
def pendObj (s : State) (func id : Nat) : Option W32 :=
  match s.shadowLate.find? (fun e => e.1 == okey func id) with
  | some e => some e.2
  | none => getShadow s func id

/-- What PARAM_READ gives for an object (R405, R409). -/
def readObj (s : State) (func id : Nat) (sh : Bool) : W32 :=
  match objRow func id with
  | none => 0
  | some o =>
    let w := getObj s func id
    match o.cls with
    | .s => w
    | .l => if funcDown s func then (pendObj s func id).getD w else w
    | .b => if funcDown s func || sh then (pendObj s func id).getD w else w
    | .ro | .rc => if funcDown s func && !ownStatus id then objReset func id else liveObj s func id

/-- What a read does to the object (R517, 02 R42, 15 CON_COUNT). -/
def afterRead (func id : Nat) (s : State) : State :=
  match objRow func id with
  | none => s
  | some o =>
    if funcDown s func then s
    else if o.cls = .rc then
      let s := setObj func id (objReset func id) s
      if id = 0xB02 then setF 0x68 0xB01 26 26 0 s else s
    else if id = 0xE00 then setObj 0x78 0xE01 (BitVec.ofNat 32 (s.clk.tb.toNat / 2 ^ 32)) s
    else s

/-- FLAGS of a reply: the shadow's value was asked of a class B object; a class B write is pending. -/
def readFlags (s : State) (func id : Nat) (sh : Bool) : Nat :=
  match objRow func id with
  | some o => if o.cls = .b then b2n sh + 2 * b2n (pendObj s func id).isSome else 0
  | none => 0

/-- The entries of a parameter list: each `n` bytes long. -/
def chunks (n : Nat) (b : Bytes) : List Bytes := (List.range (b.length / n)).map (fun i => slice b (n * i) n)

/-- The first entry of a PARAM_READ whose ID the FUNC does not hold. -/
def badRead (func : Nat) (l : List Bytes) : Option Nat :=
  (l.findIdx? (fun e => (objRow func (beAt e 0 2)).isNone)).map (4 * ·)

/-- The samples of a PARAM_READ, in list order (R409). -/
def sampleAll (func : Nat) (l : List Bytes) (s : State) : State × Bytes :=
  l.foldl (fun a e =>
    let id := beAt e 0 2
    let sh := nbit (beAt e 2 2) 0
    let rec_ := beBytes 2 id ++ beBytes 2 (readFlags a.1 func id sh) ++ beBytes 4 (readObj a.1 func id sh).toNat
    (afterRead func id a.1, a.2 ++ rec_)) (s, [])

/-- A list length that fits the layout. -/
def listLen (r : Req) (size most : Nat) : Option Nat :=
  let n := r.params.length
  if n % size = 0 ∧ size ≤ n ∧ n ≤ size * most then none else some noField

/-- PARAM_READ (R405, R409, R517). -/
def readParams (r : Req) (s : State) : State :=
  let f := r.func.toNat
  execReq 0x101 r (funcDefined f) (listLen r 4 255) false (fun s =>
    let l := chunks 4 r.params
    match badRead f l with
    | some d => refuse stBadObject d s
    | none => let a := sampleAll f l s; .reply stDone a.2 a.1) s

-- What writes do.

/-- Half the occupied band of a narrowband channel in Hz (07 R191). -/
def nbHalfBand (w : W32) : Nat :=
  let baud := 2400 * 2 ^ fget w 12 11
  if fget w 10 10 = 0 then 3 * baud / 2 else 7 * baud / 4

/-- The narrowband low edge of a coupler in Hz (03 R74). -/
def nbLowEdge (coup : Nat) : Nat := if coup = 1 then 35000 else if coup = 2 then 9000 else 60000

/-- A narrowband channel setting lies outside the permitted band (07 R192); a disabled channel occupies none. -/
def outOfBand (s : State) (w : W32) : Bool :=
  let f := fget w 31 13
  let h := nbHalfBand w
  f != 0 && (decide (f < 20000 ∨ 480000 < f ∨ 500000 < f + h)
    || (List.range 6).any (fun p => coupler s p != 0 && objF s (pf p) 0x400 27 27 == 1
      && decide (f < h + nbLowEdge (coupler s p))))

/-- Bits in which two words differ. -/
def diffBits (a b : W32) : Nat := ((List.range 32).filter (fun i => nbit (a ^^^ b).toNat i)).length

/-- The sum of reservations with every pending GRAFT_CFG, Graft g taken with another word (12 R351). -/
def skewWith (s : State) (g : Nat) (w : W32) : Nat :=
  (List.range 16).foldl (fun a k =>
    a + skewBits (maxSkewOf (if k = g then w else (pendObj s 0 (0x910 + k)).getD (getObj s 0 (0x910 + k)))) (skewMembers s k)) 0

/-- The status with which an object's owning chapter refuses a value (R407). -/
def valueRefused (s : State) (id : Nat) (w : W32) : Option W16 :=
  if id = 0xE05 ∧ (24 ≤ fget w 31 27 ∨ 24 ≤ fget w 25 21) then some stBadLength
  else if id = 0x500 ∧ 200 < fget w 31 24 + fget w 23 16 then some stBadLength
  else if 0x600 ≤ id ∧ id ≤ 0x607 ∧ outOfBand s w = true then some stOutOfBand
  else if id = 0x611 ∧ (diffBits w 0x55555555 < 12 ∨ diffBits w 0xAAAAAAAA < 12) then some stBadSyncWord
  else if 0x910 ≤ id ∧ id ≤ 0x91F ∧ skewLimit s < skewWith s (id - 0x910) w then some stNoResource
  else none

/-- Class S: the function runs. For APP_BOOT and APP_WIN it is stopped with its core (16). -/
def runsForS (s : State) (func id : Nat) : Bool :=
  if funcDown s func then false
  else if id = 0xC00 ∨ id = 0xC01 then !(coreState s (func - 0x70) == 0 || coreState s (func - 0x70) == 4)
  else true

/-- No superframe has begun and tracking is in ACQUIRE: writes for the superframe start take effect at once (R408). -/
def beforeFirst (s : State) : Bool := decide (s.clk.track = .acquire) && s.clk.sfCount == 0

/-- FREE entered at the end of the reset (02 R48, R49): REF_EN and SRC clear before the first MAINS_LOCK. -/
def freeStart (s : State) : State :=
  if refEn s || srcChain s || s.clk.lockSeen then s
  else
    let p := nominalP (objF s 0x78 0xE05 17 17)
    let t := now s * 256
    mainsLock (setClk (fun c => { c with
      track := .free, p := p, per := p, c := some t, hist := [], cycle := 0, err := none, errNext := none }) s)

/-- A value for the superframe start takes effect at once (R408): feeder groups and tracking follow. -/
def atOnce (func id : Nat) (w : W32) (s : State) : State :=
  let mode := grpMode s
  let old := getObj s func id
  let s := setObj func id w { s with shadow := s.shadow.filter (fun e => e.1 != okey func id) }
  if id = 0xE05 then freeStart (nominalHeld (channelChange old w s))
  else if id = 0x410 then
    regroup (decide (mode ≠ grpMode s))
      ((List.range 6).foldl (fun s p => setF (pf p) 0x403 23 21 (groupOf s p) s) s)
  else s

/-- A write for the superframe start: into the shadow, or one superframe later once slot 15 has begun (08 R228). -/
def forSuperframe (func id : Nat) (w : W32) (s : State) : State :=
  if beforeFirst s then atOnce func id w s
  else if s.clk.slot = 15 ∧ s.clk.sfCount ≠ 0 then putLate (okey func id) w s
  else pendWrite func id w s

/-- MEAS_CH before the first MAINS_LOCK: continuous entries of the channel change at once (13 R370). -/
def measChNow (ch : Nat) (s : State) : State :=
  if s.clk.lockSeen then s
  else (List.range 9).foldl (fun s k =>
    match (sliceOf s k).entry with
    | some (_, w) => if eCont w && eCh w == ch then changeNow k w s else s
    | none => s) s

/-- CON_CFG (15 R426): after the prompt when it came over the console; otherwise an idle direction switches at once. -/
def conCfgWritten (r : Req) (w : W32) (s : State) : State :=
  let s := setShadow 0x68 0xB00 w s
  match r.src with
  | .console => setCon (fun c => { c with cfgWait := true }) s
  | _ =>
    let tx : Bool := s.con.wait.isEmpty && qLevel 512 (getQ s 0x73) == 0
    let rx : Bool := objF s 0x68 0xB01 31 31 == 1
    let s := setCon (fun c => { c with cfgTx := if tx then w else c.cfgTx, cfgRx := if rx then w else c.cfgRx }) s
    if tx && rx then adopt 0x68 0xB00 s else s

/-- Class B while the function runs: by the boundary that the owning chapter names (R408). -/
def writeB (r : Req) (func id : Nat) (b : Bound) (w : W32) (s : State) : State :=
  match b with
  | .sf => forSuperframe func id w s
  | .txFrame | .cycle => pendWrite func id w s
  | .nbGroup => nbTakesAll (id - 0x600) (setObj func id w s)
  | .measLoop => setMeas (fun m => { m with dirty := true }) (pendWrite func id w s)
  | .measEntry => measChNow (id - 0xA08) (pendWrite func id w s)
  | .char => conCfgWritten r w s

/-- EVT_CFG (R391, R416): the writer's address and tag become the destination; the event link follows HL_PREF. -/
def evtCfgWritten (r : Req) (w : W32) (s : State) : State :=
  let before := eventLink s
  let s := setObj 0 0xE20 w s
  let s := match r.src with
    | .host _ mac vlan => { s with ev := { s.ev with dst := some (mac, vlan) } }
    | _ => s
  eventLinkMoved before s

/-- Class L while the function runs: in force before DONE is sent (R405). -/
def writeL (r : Req) (func id : Nat) (w : W32) (s : State) : State :=
  if id = 0xE20 then evtCfgWritten r w s
  else if id = 0xD00 then meterSelect (fget w 31 24) s
  else
    let s := setObj func id w s
    if id = 0x402 ∧ fget w 31 31 = 0 then setPga (func - 0x10) (pgaMan s (func - 0x10)) s else s

/-- The value that PARAM_MODIFY starts from (R406). -/
def oldValue (s : State) (func id : Nat) (c : Cls) : W32 :=
  match c with
  | .b => (pendObj s func id).getD (getObj s func id)
  | .l => if funcDown s func then (pendObj s func id).getD (getObj s func id) else getObj s func id
  | _ => getObj s func id

/-- One entry: refused with a status, or applied (R405 to R407). Bits that are RSVD are not kept (00 R7). -/
def writeObject (r : Req) (id : Nat) (mask v : W32) (s : State) : Except W16 State :=
  let f := r.func.toNat
  match objRow f id with
  | none => .error stBadObject
  | some o =>
    let w := ((oldValue s f id o.cls &&& ~~~mask) ||| (v &&& mask)) &&& o.mask
    if o.cls = .ro ∨ o.cls = .rc then .error stNotWritable
    else if o.cls = .s ∧ runsForS s f id = true then .error stFunctionRunning
    else match valueRefused s id w with
      | some st => .error st
      | none => .ok (
        if o.cls = .s then setObj f id w s
        else if funcDown s f then setShadow f id w s
        else if o.cls = .b then writeB r f id o.bound w s
        else writeL r f id w s)

/-- The entries in list order, all or nothing (R406): the state, or the offset and status of the first refused. -/
def writeEntries (r : Req) (size : Nat) : Nat → List Bytes → State → Except (Nat × W16) State
  | _, [], s => .ok s
  | i, e :: t, s =>
    let mask : W32 := if size = 12 then BitVec.ofNat 32 (beAt e 4 4) else 0xFFFFFFFF
    match writeObject r (beAt e 0 2) mask (BitVec.ofNat 32 (beAt e (size - 4) 4)) s with
    | .error st => .error (size * i, st)
    | .ok s => writeEntries r size (i + 1) t s

/-- A PARAM_WRITE or PARAM_MODIFY. -/
def writeParams (modify : Bool) (r : Req) (s : State) : State :=
  let size := if modify then 12 else 8
  execReq (if modify then 0x103 else 0x102) r (funcDefined r.func.toNat) (listLen r size (if modify then 170 else 256)) false
    (fun s => match writeEntries r size 0 (chunks size r.params) s with
      | .error (d, st) => refuse st d s
      | .ok s => .reply stDone [] s) s

/-- The request at the head of the management commands is a PARAM_MODIFY. -/
def isModify (r : Req) (s : State) : Bool :=
  match s.cmd.mgmt with
  | (o, q) :: _ => o == 0x103 && decide (q = r)
  | [] => false

/-- A write whose row is named after an object it holds, sent as PARAM_WRITE or as PARAM_MODIFY. -/
def writeNamed (r : Req) (s : State) : State := writeParams (isModify r s) r s

-- Commands.

/-- PING (R403). -/
def execPing (r : Req) (s : State) : Host.Outcome State Fault Refusal :=
  .next (execReq 0x001 r (r.func == 0) (if r.params.length ≤ 2040 then none else some noField) false
    (fun s => .reply stDone (beBytes 8 s.clk.tb.toNat ++ r.params) s) s)

/-- The identity block (14). -/
def identityBlock (s : State) : Bytes :=
  ascii "MLG6086C" ++ [0x43] ++ beBytes 1 (lifeCycle s) ++ beBytes 1 s.aon.addr.toNat
    ++ beBytes 1 (b2n (isMaster s) + 2 * b2n s.pw.svcLow) ++ beBytes 8 Config.eui.toNat ++ beBytes 6 Config.mac.toNat
    ++ [0, 0] ++ beBytes 4 Config.idRom.toNat ++ beBytes 8 s.clk.tb.toNat ++ beBytes 2 s.aon.epoch.toNat
    ++ beBytes 4 (lastEsn s) ++ [0, 0]

/-- IDENTIFY (R403). -/
def execIdentify (r : Req) (s : State) : Host.Outcome State Fault Refusal :=
  .next (execReq 0x002 r (r.func == 0) (lenIs r 0) false (fun s => .reply stDone (identityBlock s) s) s)

/-- PARAM_READ (R409). -/
def execParamRead (r : Req) (s : State) : Host.Outcome State Fault Refusal := .next (readParams r s)

/-- PARAM_WRITE (R406). -/
def execParamWrite (r : Req) (s : State) : Host.Outcome State Fault Refusal := .next (writeParams false r s)

/-- PARAM_MODIFY (R406). -/
def execParamModify (r : Req) (s : State) : Host.Outcome State Fault Refusal := .next (writeParams true r s)

/-- A PARAM_READ that names an object of class RC (R517). -/
def execRcObjectRead (r : Req) (s : State) : Host.Outcome State Fault Refusal := .next (readParams r s)

/-- A PARAM_READ that names TB_LO (02 R42). -/
def execTbLoRead (r : Req) (s : State) : Host.Outcome State Fault Refusal := .next (readParams r s)

/-- A write to an object of class W1C (R405): bits written as 1 are cleared; a bit set in the same clock stays set. -/
def execW1cObjectWrite (func : Byte) (id : W16) (v setNow : W32) (s : State) : Host.Outcome State Fault Refusal :=
  let k := okey func.toNat id.toNat
  let old := ((s.w1c.find? (fun e => e.1 == k)).map (·.2)).getD 0
  .next { s with w1c := (k, (old &&& ~~~v) ||| setNow) :: s.w1c.filter (fun e => e.1 != k) }

/-- A write that names MAINS_CTRL (02 R519). -/
def execMainsCtrlWrite (r : Req) (s : State) : Host.Outcome State Fault Refusal := .next (writeNamed r s)

/-- A write that names an NB_CH (07 R192). -/
def execNbChWrite (r : Req) (s : State) : Host.Outcome State Fault Refusal := .next (writeNamed r s)

/-- A write that names NB_SYNC (07 R199). -/
def execNbSyncWrite (r : Req) (s : State) : Host.Outcome State Fault Refusal := .next (writeNamed r s)

/-- A write that names a MEAS_CH (13 R370). -/
def execMeasChWrite (r : Req) (s : State) : Host.Outcome State Fault Refusal := .next (writeNamed r s)

/-- A write that names a MEAS_SEQ (13 R368). -/
def execMeasSeqWrite (r : Req) (s : State) : Host.Outcome State Fault Refusal := .next (writeNamed r s)

/-- A write that names a GRAFT_CFG (12 R351). -/
def execGraftCfgWrite (r : Req) (s : State) : Host.Outcome State Fault Refusal := .next (writeNamed r s)

/-- A write that names CON_CFG (15 R426). -/
def execConCfgWrite (r : Req) (s : State) : Host.Outcome State Fault Refusal := .next (writeNamed r s)

/-- A write that names EVT_CFG (R416). -/
def execEvtCfgWrite (r : Req) (s : State) : Host.Outcome State Fault Refusal := .next (writeNamed r s)

/-- A write that names METER_CTRL (18 R481). -/
def execMeterCtrlWrite (r : Req) (s : State) : Host.Outcome State Fault Refusal := .next (writeNamed r s)

/-- PM_READ_BLOCK (R414). -/
def execPmReadBlock (r : Req) (s : State) : Host.Outcome State Fault Refusal :=
  let obj := byteAt r.params 0
  let day := byteAt r.params 1
  .next (execReq 0xE10 r (r.func == 0)
    (lenAnd r 4 (firstBad (chk (decide (obj ≤ 23)) 0) (chk (decide (day ≤ 1)) 1))) false
    (fun s =>
      let n := if day = 0 then 33 else 2
      let start := if day = 0 then s.bh.start15 else s.bh.start24
      .reply stDone (beBytes 1 obj ++ beBytes 1 day ++ beBytes 1 n ++ [0] ++ beBytes 8 start.toNat ++ [0, 0, 0, 0]
        ++ (List.range n).flatMap (fun i => binRecord s obj day i)) s) s)

end Sys2Proof.Machine
end

