-- ==== Sys2Proof/Machine/Dispatch.lean ====
section
/-!
DEFINITION. One arm per command of spec/opcode_table.json, each one direct call of its meaning.
-/
namespace Sys2Proof.Machine

def exec (i : Instr) (s : State) : Host.Outcome State Fault Refusal :=
  match i with
  | .powerOn => Sys2Proof.Machine.execPowerOn s
  | .brownout rail => Sys2Proof.Machine.execBrownout rail s
  | .resetNLow lowNs => Sys2Proof.Machine.execResetNLow lowNs s
  | .resetClocksReady => Sys2Proof.Machine.execResetClocksReady s
  | .wholeDeviceReset f => Sys2Proof.Machine.execWholeDeviceReset f s
  | .domainTrip d => Sys2Proof.Machine.execDomainTrip d s
  | .thermalShutdown => Sys2Proof.Machine.execThermalShutdown s
  | .thermalRecovery => Sys2Proof.Machine.execThermalRecovery s
  | .hotChange temps => Sys2Proof.Machine.execHotChange temps s
  | .mcLockstepMismatch => Sys2Proof.Machine.execMcLockstepMismatch s
  | .mcRestartDone crcOk => Sys2Proof.Machine.execMcRestartDone crcOk s
  | .regionControllerMismatch r => Sys2Proof.Machine.execRegionControllerMismatch r s
  | .regionControllerRestarted r => Sys2Proof.Machine.execRegionControllerRestarted r s
  | .refclkLoss => Sys2Proof.Machine.execRefclkLoss s
  | .refclkRestoreDetect => Sys2Proof.Machine.execRefclkRestoreDetect s
  | .refclkSlewEnd => Sys2Proof.Machine.execRefclkSlewEnd s
  | .mainsCrossingCapture ch rx => Sys2Proof.Machine.execMainsCrossingCapture ch rx s
  | .mainsCycleStart => Sys2Proof.Machine.execMainsCycleStart s
  | .mainsMissHoldover => Sys2Proof.Machine.execMainsMissHoldover s
  | .chainSyncMiss => Sys2Proof.Machine.execChainSyncMiss s
  | .chainSyncEdge => Sys2Proof.Machine.execChainSyncEdge s
  | .chainSyncLowSeen => Sys2Proof.Machine.execChainSyncLowSeen s
  | .syncAnnounceSend => Sys2Proof.Machine.execSyncAnnounceSend s
  | .syncAnnouncement tb cycle sfOffset => Sys2Proof.Machine.execSyncAnnouncement tb cycle sfOffset s
  | .tbSlewAdjust => Sys2Proof.Machine.execTbSlewAdjust s
  | .superframeStart fig => Sys2Proof.Machine.execSuperframeStart fig s
  | .arqAckTimeout node seq => Sys2Proof.Machine.execArqAckTimeout node seq s
  | .slotStart slot => Sys2Proof.Machine.execSlotStart slot s
  | .scheduleFix props opens => Sys2Proof.Machine.execScheduleFix props opens s
  | .nodeSilenceLimit node => Sys2Proof.Machine.execNodeSilenceLimit node s
  | .leavingToFree node => Sys2Proof.Machine.execLeavingToFree node s
  | .stepWatchEnd g => Sys2Proof.Machine.execStepWatchEnd g s
  | .eventRecordAccept src => Sys2Proof.Machine.execEventRecordAccept src s
  | .eventRelease => Sys2Proof.Machine.execEventRelease s
  | .eventPacketSend => Sys2Proof.Machine.execEventPacketSend s
  | .portStartupChecks p => Sys2Proof.Machine.execPortStartupChecks p s
  | .portChecksDone p m => Sys2Proof.Machine.execPortChecksDone p m s
  | .clampEpisodeEnd p => Sys2Proof.Machine.execClampEpisodeEnd p s
  | .clampTimeout p => Sys2Proof.Machine.execClampTimeout p s
  | .portUnitFault p unit err => Sys2Proof.Machine.execPortUnitFault p unit err s
  | .agcUpdate p rx => Sys2Proof.Machine.execAgcUpdate p rx s
  | .readmitPeriodEnd => Sys2Proof.Machine.execReadmitPeriodEnd s
  | .bbBurstTransmit g underrunAfter => Sys2Proof.Machine.execBbBurstTransmit g underrunAfter s
  | .downlinkEncode g node narrowband => Sys2Proof.Machine.execDownlinkEncode g node narrowband s
  | .nbBurstTransmit g ch => Sys2Proof.Machine.execNbBurstTransmit g ch s
  | .shapeFadeStart p => Sys2Proof.Machine.execShapeFadeStart p s
  | .shapeFadeEnd p => Sys2Proof.Machine.execShapeFadeEnd p s
  | .bbPreambleDetect g rx => Sys2Proof.Machine.execBbPreambleDetect g rx s
  | .bbSecondaryDetect g rx => Sys2Proof.Machine.execBbSecondaryDetect g rx s
  | .bbS9Found g rx => Sys2Proof.Machine.execBbS9Found g rx s
  | .bbSyncTimeout g => Sys2Proof.Machine.execBbSyncTimeout g s
  | .bbCapture g rx => Sys2Proof.Machine.execBbCapture g rx s
  | .bbTrainingEnd g rx => Sys2Proof.Machine.execBbTrainingEnd g rx s
  | .bbFrameControl g u rx => Sys2Proof.Machine.execBbFrameControl g u rx s
  | .bbPayloadSymbol g rx => Sys2Proof.Machine.execBbPayloadSymbol g rx s
  | .bbStepReestimate g u => Sys2Proof.Machine.execBbStepReestimate g u s
  | .noiseMapBlock p rx => Sys2Proof.Machine.execNoiseMapBlock p rx s
  | .codewordDecodeStart frame cw cluster => Sys2Proof.Machine.execCodewordDecodeStart frame cw cluster s
  | .outerRoundStart frame => Sys2Proof.Machine.execOuterRoundStart frame s
  | .codewordIteration frame cw => Sys2Proof.Machine.execCodewordIteration frame cw s
  | .reprieveStart cluster => Sys2Proof.Machine.execReprieveStart cluster s
  | .reprieveTimeout => Sys2Proof.Machine.execReprieveTimeout s
  | .decodeLag => Sys2Proof.Machine.execDecodeLag s
  | .lagModeExit => Sys2Proof.Machine.execLagModeExit s
  | .clusterFault c unit err => Sys2Proof.Machine.execClusterFault c unit err s
  | .spareFailed u => Sys2Proof.Machine.execSpareFailed u s
  | .spareLaneRetrain failedD2L failedL2D => Sys2Proof.Machine.execSpareLaneRetrain failedD2L failedL2D s
  | .d2dLaneFault l2d lane => Sys2Proof.Machine.execD2dLaneFault l2d lane s
  | .capacityUpdate => Sys2Proof.Machine.execCapacityUpdate s
  | .nbPreambleDetect g ch rx => Sys2Proof.Machine.execNbPreambleDetect g ch rx s
  | .nbSyncMatch g ch rx => Sys2Proof.Machine.execNbSyncMatch g ch rx s
  | .nbSyncTimeout g ch => Sys2Proof.Machine.execNbSyncTimeout g ch s
  | .nbHeaderDecode g ch => Sys2Proof.Machine.execNbHeaderDecode g ch s
  | .nbSymbol g ch rx => Sys2Proof.Machine.execNbSymbol g ch rx s
  | .nbCaptureArm g ch => Sys2Proof.Machine.execNbCaptureArm g ch s
  | .nbCapture g ch rx => Sys2Proof.Machine.execNbCapture g ch rx s
  | .nbLostCarrier g ch => Sys2Proof.Machine.execNbLostCarrier g ch s
  | .nbChannelTakesEffect g ch => Sys2Proof.Machine.execNbChannelTakesEffect g ch s
  | .linkFrameOpen => Sys2Proof.Machine.execLinkFrameOpen s
  | .linkFrameReceive => Sys2Proof.Machine.execLinkFrameReceive s
  | .joinTrial => Sys2Proof.Machine.execJoinTrial s
  | .trellisAccess client addr write data ecc wait within => Sys2Proof.Machine.execTrellisAccess client addr write data ecc wait within s
  | .scrubRead r finds portFail => Sys2Proof.Machine.execScrubRead r finds portFail s
  | .bankSwitch r bad => Sys2Proof.Machine.execBankSwitch r bad s
  | .mirrorCopyDone half => Sys2Proof.Machine.execMirrorCopyDone half s
  | .bankRebuildDone r => Sys2Proof.Machine.execBankRebuildDone r s
  | .trellisWipeComplete => Sys2Proof.Machine.execTrellisWipeComplete s
  | .packetCommit q bytes mark tag => Sys2Proof.Machine.execPacketCommit q bytes mark tag s
  | .packetAbort q => Sys2Proof.Machine.execPacketAbort q s
  | .queueUnitWrite q unit => Sys2Proof.Machine.execQueueUnitWrite q unit s
  | .queueConsumerRead q pos => Sys2Proof.Machine.execQueueConsumerRead q pos s
  | .packetRelease q pos => Sys2Proof.Machine.execPacketRelease q pos s
  | .queuePointerMismatch q consumerSide ptr first second => Sys2Proof.Machine.execQueuePointerMismatch q consumerSide ptr first second s
  | .clocheJobAssign e => Sys2Proof.Machine.execClocheJobAssign e s
  | .clocheJobComplete e => Sys2Proof.Machine.execClocheJobComplete e s
  | .engineFault e kat => Sys2Proof.Machine.execEngineFault e kat s
  | .engineIdleKat e pass => Sys2Proof.Machine.execEngineIdleKat e pass s
  | .trngFail src bits => Sys2Proof.Machine.execTrngFail src bits s
  | .drbgReseed src raw => Sys2Proof.Machine.execDrbgReseed src raw s
  | .drbgHalt requests => Sys2Proof.Machine.execDrbgHalt requests s
  | .clocheReady src raw => Sys2Proof.Machine.execClocheReady src raw s
  | .virerFrameTransmit => Sys2Proof.Machine.execVirerFrameTransmit s
  | .virerFrameReceive lane pos bytes => Sys2Proof.Machine.execVirerFrameReceive lane pos bytes s
  | .laneLos lane => Sys2Proof.Machine.execLaneLos lane s
  | .laneLosClear lane => Sys2Proof.Machine.execLaneLosClear lane s
  | .controlCycleEnd => Sys2Proof.Machine.execControlCycleEnd s
  | .graftFrameRelease gid => Sys2Proof.Machine.execGraftFrameRelease gid s
  | .graftRealign gid => Sys2Proof.Machine.execGraftRealign gid s
  | .graftPacketReceive gid => Sys2Proof.Machine.execGraftPacketReceive gid s
  | .pmSecond => Sys2Proof.Machine.execPmSecond s
  | .pmBinClose day => Sys2Proof.Machine.execPmBinClose day s
  | .seqEntryIssue => Sys2Proof.Machine.execSeqEntryIssue s
  | .sliceSettled sl => Sys2Proof.Machine.execSliceSettled sl s
  | .entryDelayEnd sl => Sys2Proof.Machine.execEntryDelayEnd sl s
  | .measIntervalEnd sl rx => Sys2Proof.Machine.execMeasIntervalEnd sl rx s
  | .phase4000Instant => Sys2Proof.Machine.execPhase4000Instant s
  | .triggerArmedInstant => Sys2Proof.Machine.execTriggerArmedInstant s
  | .loadStepDetect sl rx => Sys2Proof.Machine.execLoadStepDetect sl rx s
  | .sliceRotation => Sys2Proof.Machine.execSliceRotation s
  | .rotationExchange => Sys2Proof.Machine.execRotationExchange s
  | .sliceCalibrationDone sl refs gainBad => Sys2Proof.Machine.execSliceCalibrationDone sl refs gainBad s
  | .sliceRetire sl reason => Sys2Proof.Machine.execSliceRetire sl reason s
  | .measForward => Sys2Proof.Machine.execMeasForward s
  | .conCharReceive v => Sys2Proof.Machine.execConCharReceive v s
  | .conBreak v => Sys2Proof.Machine.execConBreak v s
  | .conIdle => Sys2Proof.Machine.execConIdle s
  | .conRxTimeout => Sys2Proof.Machine.execConRxTimeout s
  | .xoffTimeout => Sys2Proof.Machine.execXoffTimeout s
  | .conStuck => Sys2Proof.Machine.execConStuck s
  | .conStuckClear => Sys2Proof.Machine.execConStuckClear s
  | .caseriLine => Sys2Proof.Machine.execCaseriLine s
  | .caseriFrame => Sys2Proof.Machine.execCaseriFrame s
  | .caseriFrameGap => Sys2Proof.Machine.execCaseriFrameGap s
  | .conCfgSwitch tx => Sys2Proof.Machine.execConCfgSwitch tx s
  | .chainMessageReceive chars eni => Sys2Proof.Machine.execChainMessageReceive chars eni s
  | .chainTxStart eni => Sys2Proof.Machine.execChainTxStart eni s
  | .chainArbitrationLost => Sys2Proof.Machine.execChainArbitrationLost s
  | .chainMessageAbort => Sys2Proof.Machine.execChainMessageAbort s
  | .chainStuck => Sys2Proof.Machine.execChainStuck s
  | .chainStuckClear => Sys2Proof.Machine.execChainStuckClear s
  | .assignStart => Sys2Proof.Machine.execAssignStart s
  | .assignOffer n eni => Sys2Proof.Machine.execAssignOffer n eni s
  | .assignAck n eui => Sys2Proof.Machine.execAssignAck n eui s
  | .assignOfferTimeout => Sys2Proof.Machine.execAssignOfferTimeout s
  | .assignEnd => Sys2Proof.Machine.execAssignEnd s
  | .assignResumeTimeout => Sys2Proof.Machine.execAssignResumeTimeout s
  | .wakeNotice => Sys2Proof.Machine.execWakeNotice s
  | .wakeCharacters first second => Sys2Proof.Machine.execWakeCharacters first second s
  | .forwardTimeout idx => Sys2Proof.Machine.execForwardTimeout idx s
  | .commandForward opcode r => Sys2Proof.Machine.execCommandForward opcode r s
  | .forwardedReply packet => Sys2Proof.Machine.execForwardedReply packet s
  | .hostFrameReceive link f => Sys2Proof.Machine.execHostFrameReceive link f s
  | .pauseReceive link quanta => Sys2Proof.Machine.execPauseReceive link quanta s
  | .hostLinkState link lock hiBer prbsErr => Sys2Proof.Machine.execHostLinkState link lock hiBer prbsErr s
  | .hostLinkUp link => Sys2Proof.Machine.execHostLinkUp link s
  | .dataPacketDownlink link mac vlan packet => Sys2Proof.Machine.execDataPacketDownlink link mac vlan packet s
  | .uplinkDataSend => Sys2Proof.Machine.execUplinkDataSend s
  | .flashBoot ofs answers sfdp image => Sys2Proof.Machine.execFlashBoot ofs answers sfdp image s
  | .coreStart n => Sys2Proof.Machine.execCoreStart n s
  | .imageCheckVerdict n => Sys2Proof.Machine.execImageCheckVerdict n s
  | .coreWatchdogExpire n mepc mtval => Sys2Proof.Machine.execCoreWatchdogExpire n mepc mtval s
  | .coreAccessFault n poisoned mepc mtval => Sys2Proof.Machine.execCoreAccessFault n poisoned mepc mtval s
  | .coreTimerInterrupt n => Sys2Proof.Machine.execCoreTimerInterrupt n s
  | .appStopDone n => Sys2Proof.Machine.execAppStopDone n s
  | .lifeCycleCommit f => Sys2Proof.Machine.execLifeCycleCommit f s
  | .meterRefresh reading => Sys2Proof.Machine.execMeterRefresh reading s
  | .locateEnd => Sys2Proof.Machine.execLocateEnd s
  | .ledTestEnd => Sys2Proof.Machine.execLedTestEnd s
  | .tapReset => Sys2Proof.Machine.execTapReset s
  | .tapInstructionUpdate op => Sys2Proof.Machine.execTapInstructionUpdate op s
  | .peekUpdate addr => Sys2Proof.Machine.execPeekUpdate addr s
  | .meterSelUpdate v => Sys2Proof.Machine.execMeterSelUpdate v s
  | .funcResetDone func failed => Sys2Proof.Machine.execFuncResetDone func failed s
  | .ping r => Sys2Proof.Machine.execPing r s
  | .identify r => Sys2Proof.Machine.execIdentify r s
  | .paramRead r => Sys2Proof.Machine.execParamRead r s
  | .paramWrite r => Sys2Proof.Machine.execParamWrite r s
  | .paramModify r => Sys2Proof.Machine.execParamModify r s
  | .rcObjectRead r => Sys2Proof.Machine.execRcObjectRead r s
  | .w1cObjectWrite func id v setNow => Sys2Proof.Machine.execW1cObjectWrite func id v setNow s
  | .tbLoRead r => Sys2Proof.Machine.execTbLoRead r s
  | .mainsCtrlWrite r => Sys2Proof.Machine.execMainsCtrlWrite r s
  | .nbChWrite r => Sys2Proof.Machine.execNbChWrite r s
  | .nbSyncWrite r => Sys2Proof.Machine.execNbSyncWrite r s
  | .measChWrite r => Sys2Proof.Machine.execMeasChWrite r s
  | .measSeqWrite r => Sys2Proof.Machine.execMeasSeqWrite r s
  | .graftCfgWrite r => Sys2Proof.Machine.execGraftCfgWrite r s
  | .conCfgWrite r => Sys2Proof.Machine.execConCfgWrite r s
  | .evtCfgWrite r => Sys2Proof.Machine.execEvtCfgWrite r s
  | .meterCtrlWrite r => Sys2Proof.Machine.execMeterCtrlWrite r s
  | .devReset r => Sys2Proof.Machine.execDevReset r s
  | .funcReset r => Sys2Proof.Machine.execFuncReset r s
  | .funcRelease r => Sys2Proof.Machine.execFuncRelease r s
  | .pdSet r => Sys2Proof.Machine.execPdSet r s
  | .sleep r => Sys2Proof.Machine.execSleep r s
  | .lcProvision r svcLow => Sys2Proof.Machine.execLcProvision r svcLow s
  | .lcCommit r svcLow => Sys2Proof.Machine.execLcCommit r svcLow s
  | .lcService r svcLow => Sys2Proof.Machine.execLcService r svcLow s
  | .lcReturn r svcLow => Sys2Proof.Machine.execLcReturn r svcLow s
  | .lcRetire r svcLow => Sys2Proof.Machine.execLcRetire r svcLow s
  | .portSound r => Sys2Proof.Machine.execPortSound r s
  | .portSoundDone p m => Sys2Proof.Machine.execPortSoundDone p m s
  | .portSoundRead r => Sys2Proof.Machine.execPortSoundRead r s
  | .portRemove r => Sys2Proof.Machine.execPortRemove r s
  | .portAdmit r => Sys2Proof.Machine.execPortAdmit r s
  | .bbMaskWrite r => Sys2Proof.Machine.execBbMaskWrite r s
  | .bbMaskRead r => Sys2Proof.Machine.execBbMaskRead r s
  | .shapeWrite r => Sys2Proof.Machine.execShapeWrite r s
  | .shapePreset r => Sys2Proof.Machine.execShapePreset r s
  | .shapeSwap r => Sys2Proof.Machine.execShapeSwap r s
  | .shapeRead r => Sys2Proof.Machine.execShapeRead r s
  | .bbTxTest r => Sys2Proof.Machine.execBbTxTest r s
  | .bbTxTestDone p rmsMv clipped bursts => Sys2Proof.Machine.execBbTxTestDone p rmsMv clipped bursts s
  | .bbRxLast r => Sys2Proof.Machine.execBbRxLast r s
  | .bbSnrArm r => Sys2Proof.Machine.execBbSnrArm r s
  | .bbSnrRead r => Sys2Proof.Machine.execBbSnrRead r s
  | .bbNoiseRead r => Sys2Proof.Machine.execBbNoiseRead r s
  | .decLast r => Sys2Proof.Machine.execDecLast r s
  | .codecTest r => Sys2Proof.Machine.execCodecTest r s
  | .codecTestDone c codewords meanIt failed => Sys2Proof.Machine.execCodecTestDone c codewords meanIt failed s
  | .nbRxLast r => Sys2Proof.Machine.execNbRxLast r s
  | .nbLevel r => Sys2Proof.Machine.execNbLevel r s
  | .nbTxTest r => Sys2Proof.Machine.execNbTxTest r s
  | .nbTxTestDone p rmsMv bursts => Sys2Proof.Machine.execNbTxTestDone p rmsMv bursts s
  | .nodeRead r => Sys2Proof.Machine.execNodeRead r s
  | .nodeFind r => Sys2Proof.Machine.execNodeFind r s
  | .nodeEvict r => Sys2Proof.Machine.execNodeEvict r s
  | .tonemapRead r => Sys2Proof.Machine.execTonemapRead r s
  | .routeRead r => Sys2Proof.Machine.execRouteRead r s
  | .schedRead r => Sys2Proof.Machine.execSchedRead r s
  | .nodeRefresh r => Sys2Proof.Machine.execNodeRefresh r s
  | .destSet r => Sys2Proof.Machine.execDestSet r s
  | .destRead r => Sys2Proof.Machine.execDestRead r s
  | .crypt r => Sys2Proof.Machine.execCrypt r s
  | .rngRead r => Sys2Proof.Machine.execRngRead r s
  | .kekLoad r => Sys2Proof.Machine.execKekLoad r s
  | .keyUnwrap r => Sys2Proof.Machine.execKeyUnwrap r s
  | .keySave r => Sys2Proof.Machine.execKeySave r s
  | .keyRestore r => Sys2Proof.Machine.execKeyRestore r s
  | .keyErase r => Sys2Proof.Machine.execKeyErase r s
  | .keyInfo r => Sys2Proof.Machine.execKeyInfo r s
  | .ceTest r => Sys2Proof.Machine.execCeTest r s
  | .ceTestDone e failCase => Sys2Proof.Machine.execCeTestDone e failCase s
  | .graftAdd r => Sys2Proof.Machine.execGraftAdd r s
  | .graftRemove r => Sys2Proof.Machine.execGraftRemove r s
  | .graftRead r => Sys2Proof.Machine.execGraftRead r s
  | .bhPmRead r => Sys2Proof.Machine.execBhPmRead r s
  | .bhPmAlign r => Sys2Proof.Machine.execBhPmAlign r s
  | .bhTraceRead r => Sys2Proof.Machine.execBhTraceRead r s
  | .bhTraceLearn r => Sys2Proof.Machine.execBhTraceLearn r s
  | .bhLaneTest r => Sys2Proof.Machine.execBhLaneTest r s
  | .bhLaneTestDone lane => Sys2Proof.Machine.execBhLaneTestDone lane s
  | .measRead r => Sys2Proof.Machine.execMeasRead r s
  | .measTrigger r => Sys2Proof.Machine.execMeasTrigger r s
  | .measTrigAt r => Sys2Proof.Machine.execMeasTrigAt r s
  | .measSyscal r => Sys2Proof.Machine.execMeasSyscal r s
  | .measSyscalDone rx => Sys2Proof.Machine.execMeasSyscalDone rx s
  | .measLast r => Sys2Proof.Machine.execMeasLast r s
  | .chainAssign r => Sys2Proof.Machine.execChainAssign r s
  | .chainAssignDone => Sys2Proof.Machine.execChainAssignDone s
  | .chainWake r => Sys2Proof.Machine.execChainWake r s
  | .chainWakeSent => Sys2Proof.Machine.execChainWakeSent s
  | .appLoad r => Sys2Proof.Machine.execAppLoad r s
  | .appStart r => Sys2Proof.Machine.execAppStart r s
  | .appStop r => Sys2Proof.Machine.execAppStop r s
  | .svcSelftest r => Sys2Proof.Machine.execSvcSelftest r s
  | .svcSelftestDone finds => Sys2Proof.Machine.execSvcSelftestDone finds s
  | .ledLocate r => Sys2Proof.Machine.execLedLocate r s
  | .ledTest r => Sys2Proof.Machine.execLedTest r s
  | .evtRead r => Sys2Proof.Machine.execEvtRead r s
  | .pmReadBlock r => Sys2Proof.Machine.execPmReadBlock r s
  | .trWipe r => Sys2Proof.Machine.execTrWipe r s
  | .trRepart r => Sys2Proof.Machine.execTrRepart r s
  | .trBankTest r => Sys2Proof.Machine.execTrBankTest r s
  | .trBankTestDone r result line bits bad => Sys2Proof.Machine.execTrBankTestDone r result line bits bad s
  | .trPeek r => Sys2Proof.Machine.execTrPeek r s
  | .qRead r => Sys2Proof.Machine.execQRead r s
  | .qWm r => Sys2Proof.Machine.execQWm r s
  | .intClrWrite n v => Sys2Proof.Machine.execIntClrWrite n v s
  | .inPopWrite n => Sys2Proof.Machine.execInPopWrite n s
  | .outReqWrite n v => Sys2Proof.Machine.execOutReqWrite n v s
  | .outCommitWrite n payload => Sys2Proof.Machine.execOutCommitWrite n payload s
  | .outAbortWrite n => Sys2Proof.Machine.execOutAbortWrite n s
  | .cjSubmitWrite n addr => Sys2Proof.Machine.execCjSubmitWrite n addr s
  | .mboxWrite n v => Sys2Proof.Machine.execMboxWrite n v s
  | .mboxClrWrite n => Sys2Proof.Machine.execMboxClrWrite n s
  | .wdogKickWrite n => Sys2Proof.Machine.execWdogKickWrite n s
  | .fawMatch lane pos => Sys2Proof.Machine.execFawMatch lane pos s
  | .nbChannelSettled g ch => Sys2Proof.Machine.execNbChannelSettled g ch s
  | .pauseExpire link => Sys2Proof.Machine.execPauseExpire link s
  | .sliceSyncReset sl => Sys2Proof.Machine.execSliceSyncReset sl s
  | .nbChannelFloorUpdate p ch rx => Sys2Proof.Machine.execNbChannelFloorUpdate p ch rx s
  | .slowClockChange running => Sys2Proof.Machine.execSlowClockChange running s

end Sys2Proof.Machine
end

