-- ==== Sys2Proof/WellFormed.lean ====
section
/-!
DEFINITION. Well-formed commands: what the packet layout, the Trellis port and the reports of the block's own sides
allow their operands to be (14 R386, R384; 09 R269; 08 R241; 18 R485; 14 R388; 11 R308).
-/
namespace Sys2Proof

/-- A request: TAG 1 to 0xFFFF, DEST bit 6 clear, at most 2048 parameter bytes (14 R384, R386). -/
def Req.wf (r : Req) : Bool := r.tag != 0 && !r.dest.getLsbD 6 && decide (r.params.length ≤ 2048)

/-- A Trellis access carries at least one byte and stays inside one 64-byte line (09 R269). -/
def oneLine (addr : BitVec 23) (data : List (Option Byte)) : Bool :=
  !data.isEmpty && decide (addr.toNat % 64 + data.length ≤ 64)

/-- A proposal names its slots in order (08 R241). -/
def Proposal.wf (p : Proposal) : Bool := decide (p.first.val ≤ p.last.val)

/-- An opening lasts at least one slot (08 R240). -/
def NbOpening.wf (o : NbOpening) : Bool := o.count != 0

/-- A self-test item passes no more units than it tested (18 R485). -/
def SelftestFinding.wf (f : SelftestFinding) : Bool := decide (f.passed ≤ f.tested)

/-- One finding for an item at most (18 R485). -/
def oncePerItem : List SelftestFinding → Bool
  | [] => true
  | f :: t => !t.any (fun g => g.item == f.item) && oncePerItem t

/-- The start-up test of a random source has 1024 samples (11 R308). -/
def ResetFindings.wf (f : ResetFindings) : Bool := f.trng.all (fun b => b.length == 1024)

/-- An Ethernet frame is longer than its payload (14 R388). -/
def EthFrame.wf (f : EthFrame) : Bool := decide (f.payload.length < f.len)

/-- A command is well formed. -/
def Instr.wf (i : Instr) : Bool :=
  match i with
  | .powerOn => true
  | .brownout _ => true
  | .resetNLow _ => true
  | .resetClocksReady => true
  | .wholeDeviceReset f => f.wf
  | .domainTrip _ => true
  | .thermalShutdown => true
  | .thermalRecovery => true
  | .hotChange _ => true
  | .mcLockstepMismatch => true
  | .mcRestartDone _ => true
  | .regionControllerMismatch _ => true
  | .regionControllerRestarted _ => true
  | .refclkLoss => true
  | .refclkRestoreDetect => true
  | .refclkSlewEnd => true
  | .mainsCrossingCapture _ _ => true
  | .mainsCycleStart => true
  | .mainsMissHoldover => true
  | .chainSyncMiss => true
  | .chainSyncEdge => true
  | .chainSyncLowSeen => true
  | .syncAnnounceSend => true
  | .syncAnnouncement _ _ _ => true
  | .tbSlewAdjust => true
  | .superframeStart _ => true
  | .arqAckTimeout _ _ => true
  | .slotStart _ => true
  | .scheduleFix props opens => props.all (fun p => p.wf) && opens.all (fun o => o.wf)
  | .nodeSilenceLimit _ => true
  | .leavingToFree _ => true
  | .stepWatchEnd _ => true
  | .eventRecordAccept _ => true
  | .eventRelease => true
  | .eventPacketSend => true
  | .portStartupChecks _ => true
  | .portChecksDone _ _ => true
  | .clampEpisodeEnd _ => true
  | .clampTimeout _ => true
  | .portUnitFault _ _ _ => true
  | .agcUpdate _ _ => true
  | .readmitPeriodEnd => true
  | .bbBurstTransmit _ _ => true
  | .downlinkEncode _ _ _ => true
  | .nbBurstTransmit _ _ => true
  | .shapeFadeStart _ => true
  | .shapeFadeEnd _ => true
  | .bbPreambleDetect _ _ => true
  | .bbSecondaryDetect _ _ => true
  | .bbS9Found _ _ => true
  | .bbSyncTimeout _ => true
  | .bbCapture _ _ => true
  | .bbTrainingEnd _ _ => true
  | .bbFrameControl _ _ _ => true
  | .bbPayloadSymbol _ _ => true
  | .bbStepReestimate _ _ => true
  | .noiseMapBlock _ _ => true
  | .codewordDecodeStart _ _ _ => true
  | .outerRoundStart _ => true
  | .codewordIteration _ _ => true
  | .reprieveStart _ => true
  | .reprieveTimeout => true
  | .decodeLag => true
  | .lagModeExit => true
  | .clusterFault _ _ _ => true
  | .spareFailed _ => true
  | .spareLaneRetrain _ _ => true
  | .d2dLaneFault _ _ => true
  | .capacityUpdate => true
  | .nbPreambleDetect _ _ _ => true
  | .nbSyncMatch _ _ _ => true
  | .nbSyncTimeout _ _ => true
  | .nbHeaderDecode _ _ => true
  | .nbSymbol _ _ _ => true
  | .nbCaptureArm _ _ => true
  | .nbCapture _ _ _ => true
  | .nbLostCarrier _ _ => true
  | .nbChannelTakesEffect _ _ => true
  | .linkFrameOpen => true
  | .linkFrameReceive => true
  | .joinTrial => true
  | .trellisAccess _ addr _ data _ _ _ => oneLine addr data
  | .scrubRead _ _ _ => true
  | .bankSwitch _ _ => true
  | .mirrorCopyDone _ => true
  | .bankRebuildDone _ => true
  | .trellisWipeComplete => true
  | .packetCommit _ _ _ _ => true
  | .packetAbort _ => true
  | .queueUnitWrite _ _ => true
  | .queueConsumerRead _ _ => true
  | .packetRelease _ _ => true
  | .queuePointerMismatch _ _ _ _ _ => true
  | .clocheJobAssign _ => true
  | .clocheJobComplete _ => true
  | .engineFault _ _ => true
  | .engineIdleKat _ _ => true
  | .trngFail _ _ => true
  | .drbgReseed _ _ => true
  | .drbgHalt _ => true
  | .clocheReady _ _ => true
  | .virerFrameTransmit => true
  | .virerFrameReceive _ _ _ => true
  | .laneLos _ => true
  | .laneLosClear _ => true
  | .controlCycleEnd => true
  | .graftFrameRelease _ => true
  | .graftRealign _ => true
  | .graftPacketReceive _ => true
  | .pmSecond => true
  | .pmBinClose _ => true
  | .seqEntryIssue => true
  | .sliceSettled _ => true
  | .entryDelayEnd _ => true
  | .measIntervalEnd _ _ => true
  | .phase4000Instant => true
  | .triggerArmedInstant => true
  | .loadStepDetect _ _ => true
  | .sliceRotation => true
  | .rotationExchange => true
  | .sliceCalibrationDone _ _ _ => true
  | .sliceRetire _ _ => true
  | .measForward => true
  | .conCharReceive _ => true
  | .conBreak _ => true
  | .conIdle => true
  | .conRxTimeout => true
  | .xoffTimeout => true
  | .conStuck => true
  | .conStuckClear => true
  | .caseriLine => true
  | .caseriFrame => true
  | .caseriFrameGap => true
  | .conCfgSwitch _ => true
  | .chainMessageReceive _ _ => true
  | .chainTxStart _ => true
  | .chainArbitrationLost => true
  | .chainMessageAbort => true
  | .chainStuck => true
  | .chainStuckClear => true
  | .assignStart => true
  | .assignOffer _ _ => true
  | .assignAck _ _ => true
  | .assignOfferTimeout => true
  | .assignEnd => true
  | .assignResumeTimeout => true
  | .wakeNotice => true
  | .wakeCharacters _ _ => true
  | .forwardTimeout _ => true
  | .commandForward opcode r => !opcode.getLsbD 15 && r.wf
  | .forwardedReply _ => true
  | .hostFrameReceive _ f => f.wf
  | .pauseReceive _ _ => true
  | .hostLinkState _ _ _ _ => true
  | .hostLinkUp _ => true
  | .dataPacketDownlink _ _ _ _ => true
  | .uplinkDataSend => true
  | .flashBoot _ _ _ _ => true
  | .coreStart _ => true
  | .imageCheckVerdict _ => true
  | .coreWatchdogExpire _ _ _ => true
  | .coreAccessFault _ _ _ _ => true
  | .coreTimerInterrupt _ => true
  | .appStopDone _ => true
  | .lifeCycleCommit f => f.wf
  | .meterRefresh _ => true
  | .locateEnd => true
  | .ledTestEnd => true
  | .tapReset => true
  | .tapInstructionUpdate _ => true
  | .peekUpdate _ => true
  | .meterSelUpdate _ => true
  | .funcResetDone _ _ => true
  | .ping r => r.wf
  | .identify r => r.wf
  | .paramRead r => r.wf
  | .paramWrite r => r.wf
  | .paramModify r => r.wf
  | .rcObjectRead r => r.wf
  | .w1cObjectWrite _ _ _ _ => true
  | .tbLoRead r => r.wf
  | .mainsCtrlWrite r => r.wf
  | .nbChWrite r => r.wf
  | .nbSyncWrite r => r.wf
  | .measChWrite r => r.wf
  | .measSeqWrite r => r.wf
  | .graftCfgWrite r => r.wf
  | .conCfgWrite r => r.wf
  | .evtCfgWrite r => r.wf
  | .meterCtrlWrite r => r.wf
  | .devReset r => r.wf
  | .funcReset r => r.wf
  | .funcRelease r => r.wf
  | .pdSet r => r.wf
  | .sleep r => r.wf
  | .lcProvision r _ => r.wf
  | .lcCommit r _ => r.wf
  | .lcService r _ => r.wf
  | .lcReturn r _ => r.wf
  | .lcRetire r _ => r.wf
  | .portSound r => r.wf
  | .portSoundDone _ _ => true
  | .portSoundRead r => r.wf
  | .portRemove r => r.wf
  | .portAdmit r => r.wf
  | .bbMaskWrite r => r.wf
  | .bbMaskRead r => r.wf
  | .shapeWrite r => r.wf
  | .shapePreset r => r.wf
  | .shapeSwap r => r.wf
  | .shapeRead r => r.wf
  | .bbTxTest r => r.wf
  | .bbTxTestDone _ _ _ _ => true
  | .bbRxLast r => r.wf
  | .bbSnrArm r => r.wf
  | .bbSnrRead r => r.wf
  | .bbNoiseRead r => r.wf
  | .decLast r => r.wf
  | .codecTest r => r.wf
  | .codecTestDone _ _ _ _ => true
  | .nbRxLast r => r.wf
  | .nbLevel r => r.wf
  | .nbTxTest r => r.wf
  | .nbTxTestDone _ _ _ => true
  | .nodeRead r => r.wf
  | .nodeFind r => r.wf
  | .nodeEvict r => r.wf
  | .tonemapRead r => r.wf
  | .routeRead r => r.wf
  | .schedRead r => r.wf
  | .nodeRefresh r => r.wf
  | .destSet r => r.wf
  | .destRead r => r.wf
  | .crypt r => r.wf
  | .rngRead r => r.wf
  | .kekLoad r => r.wf
  | .keyUnwrap r => r.wf
  | .keySave r => r.wf
  | .keyRestore r => r.wf
  | .keyErase r => r.wf
  | .keyInfo r => r.wf
  | .ceTest r => r.wf
  | .ceTestDone _ _ => true
  | .graftAdd r => r.wf
  | .graftRemove r => r.wf
  | .graftRead r => r.wf
  | .bhPmRead r => r.wf
  | .bhPmAlign r => r.wf
  | .bhTraceRead r => r.wf
  | .bhTraceLearn r => r.wf
  | .bhLaneTest r => r.wf
  | .bhLaneTestDone _ => true
  | .measRead r => r.wf
  | .measTrigger r => r.wf
  | .measTrigAt r => r.wf
  | .measSyscal r => r.wf
  | .measSyscalDone _ => true
  | .measLast r => r.wf
  | .chainAssign r => r.wf
  | .chainAssignDone => true
  | .chainWake r => r.wf
  | .chainWakeSent => true
  | .appLoad r => r.wf
  | .appStart r => r.wf
  | .appStop r => r.wf
  | .svcSelftest r => r.wf
  | .svcSelftestDone finds => finds.all (fun f => f.wf) && oncePerItem finds
  | .ledLocate r => r.wf
  | .ledTest r => r.wf
  | .evtRead r => r.wf
  | .pmReadBlock r => r.wf
  | .trWipe r => r.wf
  | .trRepart r => r.wf
  | .trBankTest r => r.wf
  | .trBankTestDone _ _ _ _ _ => true
  | .trPeek r => r.wf
  | .qRead r => r.wf
  | .qWm r => r.wf
  | .intClrWrite _ _ => true
  | .inPopWrite _ => true
  | .outReqWrite _ _ => true
  | .outCommitWrite _ _ => true
  | .outAbortWrite _ => true
  | .cjSubmitWrite _ _ => true
  | .mboxWrite _ _ => true
  | .mboxClrWrite _ => true
  | .wdogKickWrite _ => true
  | .fawMatch _ _ => true
  | .nbChannelSettled _ _ => true
  | .pauseExpire _ => true
  | .sliceSyncReset _ => true
  | .nbChannelFloorUpdate _ _ _ => true
  | .slowClockChange _ => true

end Sys2Proof
end

