-- ==== Sys2Proof/Safety.lean ====
section
/-!
DEFINITION. The terms in which claims speak of safe states and steps.
-/
namespace Sys2Proof.Machine

/-- The Trellis contents are in canonical form: addresses strictly rising, no entry equal to what an unlisted byte
reads. -/
def Memory.wf (s : State) : Bool := smWf memD s.mem

/-- A life-cycle transition of the table of 17 R475: from state a to state b. -/
def lcAllowed (a b : Nat) : Bool :=
  (a == 0 && b == 1) || (a == 1 && b == 2) || ((a == 1 || a == 2) && b == 3) || (a == 3 && b == 2)
    || (decide (a ≤ 3) && b == 4)

/-- The states after a that a list of records runs through are each reached by a transition of the table. -/
def lcPath (a : Nat) : List (Fin 5) → Bool
  | [] => true
  | b :: t => lcAllowed a b.val && lcPath b.val t

/-- The life cycle is sound (17 R474 to R477): the fuse records are a path of the table from FACTORY; a transition
accepted and not yet committed is one of the table from the present state; the records fit the 32 fuses, the last of
which only LC_RETIRE uses. -/
def lifeSound (s : State) : Bool :=
  lcPath 0 s.fuse.records
    && decide (s.fuse.records.length ≤ (if lifeCycle s = 4 then 32 else 31))
    && (match s.pw.lcNext with
      | none => true
      | some n => lcAllowed (lifeCycle s) n.val && (n.val == 4 || decide (s.fuse.records.length ≤ 30)))

/-- The object file and the Trellis contents are in canonical form. -/
def canonical (s : State) : Bool := Memory.wf s && smWf regD s.regs

/-- At most one deferred command on each FUNC, 32 in all (14 R399). -/
def deferWithin (s : State) : Bool :=
  decide (s.cmd.deferred.length ≤ 32) && decide ((s.cmd.deferred.map (·.req.func)).Nodup)

/-- The units of the device agree in two states: everything but the object file, the event records, the queues, the serial
ports, the host links, the command store, the service indicators and what the device has sent. -/
def sameUnits (s t : State) : Prop :=
  t.pending = s.pending ∧ t.phase = s.phase ∧ t.aon = s.aon ∧ t.fuse = s.fuse ∧ t.pw = s.pw ∧ t.clk = s.clk ∧ t.cl = s.cl
    ∧ t.tr = s.tr ∧ t.mem = s.mem ∧ t.poison = s.poison ∧ t.port = s.port ∧ t.bb = s.bb ∧ t.dec = s.dec ∧ t.nb = s.nb
    ∧ t.lk = s.lk ∧ t.clo = s.clo ∧ t.bh = s.bh ∧ t.meas = s.meas ∧ t.core = s.core ∧ t.w1c = s.w1c ∧ t.free = s.free

/-- The opcode of a request command whose row fixes it (14 R403). -/
def RequestRow (r : Req) (op : Nat) (c : Instr) : Prop :=
  (op, c) ∈
  [(0x001, Instr.ping r), (0x002, .identify r), (0x101, .paramRead r), (0x102, .paramWrite r), (0x103, .paramModify r),
   (0x101, .rcObjectRead r), (0x101, .tbLoRead r), (0x201, .devReset r), (0x202, .funcReset r),
   (0x203, .funcRelease r), (0x210, .pdSet r), (0x220, .sleep r), (0x401, .portSound r), (0x402, .portSoundRead r),
   (0x403, .portRemove r), (0x404, .portAdmit r), (0x501, .bbMaskWrite r), (0x502, .bbMaskRead r),
   (0x510, .shapeWrite r), (0x511, .shapePreset r), (0x512, .shapeSwap r), (0x513, .shapeRead r),
   (0x530, .bbTxTest r), (0x520, .bbRxLast r), (0x521, .bbSnrArm r), (0x522, .bbSnrRead r), (0x523, .bbNoiseRead r),
   (0x540, .decLast r), (0x541, .codecTest r), (0x601, .nbRxLast r)] ++
  [(0x602, Instr.nbLevel r), (0x603, .nbTxTest r), (0x710, .nodeRead r), (0x711, .nodeFind r), (0x712, .nodeEvict r),
   (0x713, .tonemapRead r), (0x714, .routeRead r), (0x715, .schedRead r), (0x716, .nodeRefresh r),
   (0x720, .destSet r), (0x721, .destRead r), (0x801, .crypt r), (0x802, .rngRead r), (0x803, .kekLoad r),
   (0x810, .keyUnwrap r), (0x811, .keySave r), (0x812, .keyRestore r), (0x813, .keyErase r), (0x814, .keyInfo r),
   (0x820, .ceTest r), (0x901, .graftAdd r), (0x902, .graftRemove r), (0x903, .graftRead r), (0x910, .bhPmRead r),
   (0x911, .bhPmAlign r), (0x920, .bhTraceRead r), (0x921, .bhTraceLearn r), (0x930, .bhLaneTest r),
   (0xA01, .measRead r), (0xA02, .measTrigger r)] ++
  [(0xA03, Instr.measTrigAt r), (0xA04, .measSyscal r), (0xA05, .measLast r), (0xB01, .chainAssign r),
   (0xB02, .chainWake r), (0xC01, .appLoad r), (0xC02, .appStart r), (0xC03, .appStop r), (0xD01, .svcSelftest r),
   (0xD02, .ledLocate r), (0xD03, .ledTest r), (0xE01, .evtRead r), (0xE10, .pmReadBlock r), (0xF01, .trWipe r),
   (0xF02, .trRepart r), (0xF03, .trBankTest r), (0xF04, .trPeek r), (0xF10, .qRead r), (0xF11, .qWm r)]

/-- The requests that read and change nothing but what their replies pass through. -/
def ReadRow (r : Req) (c : Instr) : Prop :=
  c ∈ [Instr.ping r, .identify r, .bbMaskRead r, .portSoundRead r, .shapeRead r, .bbRxLast r, .bbSnrRead r, .bbNoiseRead r,
   .decLast r, .nbRxLast r, .nbLevel r, .nodeRead r, .nodeFind r, .tonemapRead r, .routeRead r, .schedRead r,
   .destRead r, .keyInfo r, .graftRead r, .bhPmRead r, .bhTraceRead r, .measLast r, .evtRead r, .pmReadBlock r]

/-- The step ends in a next state. -/
def Steps (s : State) : Prop := ∃ t, step s = .next t

/-- The management controller executes commands, and the life cycle admits this one (17 R460, R474). -/
def Serves (op : Nat) (s : State) : Prop := accepting s = true ∧ (lifeCycle s = 4 → op ∈ retiredOps)

end Sys2Proof.Machine
end

