-- ==== Sys2Proof/Certificates/Slice0/Obligations.lean ====
section
/-!
DEFINITION. The statements about the block: what every step keeps, what requests of a kind share, and for every command
where it completes and what it leaves. A docstring names the chapter and the rules of the manual, or the log entry of a
choice of the model.
-/
open Sys2Proof Sys2Proof.Machine

/-- A step runs the command at the front of the queue, with the queue's rest; on an empty queue the block idles, which is
the model's choice (log 1). -/
def Obligations.FrontCommandIsExecuted : Prop :=
  (∀ s c rest, s.pending = c :: rest → step s = exec c { s with pending := rest })
  ∧ (∀ s, s.pending = [] → step s = .next (deviceIdle s))

/-- 00 R8, 02 R59, 09 R284, 10 R288, R301, 17 R461: what State.reset holds of the values that the manual states. -/
def Obligations.ResetHoldsTheStatedValues : Prop :=
  (∀ func id, id < 65536 → (func, id) ≠ (0, 0x200) → (func, id) ≠ (0x78, 0xE09) →
      getObj State.reset func id = objReset func id)
  ∧ (∀ a, memByte State.reset a = 0)
  ∧ (∀ q, (getQ State.reset q).wp = 0 ∧ (getQ State.reset q).pp = 0 ∧ (getQ State.reset q).rp = 0
      ∧ (getQ State.reset q).wm = 0xC0 ∧ (getQ State.reset q).hyst = 0x10 ∧ (getQ State.reset q).pkts = [])
  ∧ (∀ k, (vAt State.reset.ev.srcs k).q = [] ∧ (vAt State.reset.ev.srcs k).dropped = 0)
  ∧ State.reset.pending = [] ∧ State.reset.cmd.mgmt = [] ∧ State.reset.cmd.deferred = [] ∧ State.reset.cmd.replies = []
  ∧ State.reset.shadow = [] ∧ State.reset.w1c = [] ∧ State.reset.poison = [] ∧ State.reset.clo.keys = []
  ∧ (∀ p, p < 6 → portState State.reset p = 0)
  ∧ (∀ r, r < 4 → clOf State.reset (5 * r + 4) = .spare ∧ ∀ i, i < 4 → clOf State.reset (5 * r + i) = .active)

/-- The invariants of the next three statements hold at reset. -/
def Obligations.InvariantsHoldAtReset : Prop :=
  lifeSound State.reset = true ∧ canonical State.reset = true ∧ deferWithin State.reset = true

/-- 17 R474 to R477: from every state whose life cycle is sound, every step leaves it sound. -/
def Obligations.LifeCycleStaysSound : Prop :=
  ∀ s t, lifeSound s = true → step s = .next t → lifeSound t = true

/-- 17 R475 to R477: no command but LIFE_CYCLE_COMMIT burns a life-cycle record, and it burns the one that was accepted. -/
def Obligations.OnlyTheCommitBurnsARecord : Prop :=
  (∀ c s t, exec c s = .next t → (∀ f, c ≠ .lifeCycleCommit f) → t.fuse.records = s.fuse.records)
  ∧ (∀ f s t, exec (.lifeCycleCommit f) s = .next t →
      t.fuse.records = s.fuse.records ∨ ∃ n, s.pw.lcNext = some n ∧ t.fuse.records = s.fuse.records ++ [n])

/-- 14 R404, 09 R270: from every state whose object file and Trellis contents are in canonical form, every step leaves
them so. -/
def Obligations.ContentsStayCanonical : Prop :=
  ∀ s t, canonical s = true → step s = .next t → canonical t = true

/-- 14 R399: from every state with at most one deferred command on each FUNC and 32 in all, every step leaves it so. -/
def Obligations.DeferredCommandsStayWithinLimits : Prop :=
  ∀ s t, deferWithin s = true → step s = .next t → deferWithin t = true

/-- 17 R474: RETIRED refuses every request but PING, IDENTIFY, PARAM_READ, EVT_READ and DEV_RESET, with no effect but the
reply. -/
def Obligations.RetiredRefusesRequests : Prop :=
  (∀ r s op c, accepting s = true → lifeCycle s = 4 → RequestRow r op c → op ∉ retiredOps →
      ∃ st d, st ∈ [stBadFunc, stBadLength, stNotInState]
        ∧ exec c s = .next (sendReply op r st (beBytes 4 d) (takeMgmt op r s)))
  ∧ (∀ r low s u p, u = (if tapHold s then s else setPw (fun p => { p with svcLow := low }) s) → accepting u = true →
      lifeCycle u = 4 → p ∈ [(0x301, Instr.lcProvision r low), (0x302, .lcCommit r low), (0x303, .lcService r low),
        (0x304, .lcReturn r low), (0x305, .lcRetire r low)] →
      ∃ st d, st ∈ [stBadFunc, stBadLength, stNotInState]
        ∧ exec p.2 s = .next (sendReply p.1 r st (beBytes 4 d) (takeMgmt p.1 r u)))

/-- 17 R475: the confirmation word, the transports and the conditions of the five life-cycle commands. -/
def Obligations.LifeCycleCommandsAreConfirmed : Prop :=
  (∀ r low s u p, u = (if tapHold s then s else setPw (fun p => { p with svcLow := low }) s) → accepting u = true →
      r.func = 0 → r.params.length = 4 → beAt r.params 0 4 ≠ Config.eui.toNat % 2 ^ 32 →
      p ∈ [(0x301, Instr.lcProvision r low), (0x302, .lcCommit r low), (0x303, .lcService r low),
        (0x304, .lcReturn r low), (0x305, .lcRetire r low)] →
      exec p.2 s = .next (sendReply p.1 r stBadLength (beBytes 4 0) (takeMgmt p.1 r u)))
  ∧ (∀ r low s u p, u = (if tapHold s then s else setPw (fun p => { p with svcLow := low }) s) → accepting u = true →
      r.func = 0 → r.params.length = 4 → beAt r.params 0 4 = Config.eui.toNat % 2 ^ 32 →
      p ∈ [(0x301, Instr.lcProvision r low, (viaHost r || viaConsole r) && lifeCycle u == 0 && kekOk u u.fuse.kekGen),
        (0x302, .lcCommit r low, viaHost r && lifeCycle u == 1 && (netSlot (takeMgmt 0x302 r u)).isSome),
        (0x303, .lcService r low, viaConsole r && (lifeCycle u == 1 || lifeCycle u == 2) && u.pw.svcLow),
        (0x304, .lcReturn r low, viaHost r && lifeCycle u == 3 && !u.pw.svcLow && !u.fuse.svcGens.isEmpty),
        (0x305, .lcRetire r low, lifeCycle u != 4 && (viaHost r || (viaConsole r && u.pw.svcLow)))] →
      p.2.2 = false → exec p.2.1 s = .next (sendReply p.1 r stNotInState (beBytes 4 noField) (takeMgmt p.1 r u)))

/-- 02 R59: a source holds four records, counts what it cannot store, and reports the drops ahead of its next record. -/
def Obligations.EventSourcesHoldFourRecords : Prop :=
  (∀ src func e data s q, src < 108 → q = vAt s.ev.srcs src → q.dropped = 0 → q.q.length < 4 →
      (vAt (raise src func e data s).ev.srcs src).q = q.q ++ [⟨src, BitVec.ofNat 8 func, false, BitVec.ofNat 3 (evSev e),
        s.clk.tb, BitVec.ofNat 16 (evCode e), data⟩])
  ∧ (∀ src func e data s q, src < 108 → q = vAt s.ev.srcs src → q.q.length = 4 → smWf regD s.regs = true →
      (vAt (raise src func e data s).ev.srcs src).q = q.q
      ∧ (vAt (raise src func e data s).ev.srcs src).dropped = min (q.dropped + 1) 0xFFFF
      ∧ (vAt (raise src func e data s).ev.srcs src).first = (if q.dropped = 0 then s.clk.tb else q.first)
      ∧ objF (raise src func e data s) 0x78 0xE0A 15 0 = min (objF s 0x78 0xE0A 15 0 + 1) 0xFFFF)
  ∧ (∀ src func e data s q, src < 108 → q = vAt s.ev.srcs src → q.dropped ≠ 0 → q.q.length ≤ 2 →
      (vAt (raise src func e data s).ev.srcs src).q = q.q ++ [⟨src, BitVec.ofNat 8 func, false, 1, s.clk.tb,
          BitVec.ofNat 16 (evCode .eventsDropped), beBytes 2 q.dropped ++ beBytes 8 q.first.toNat⟩,
        ⟨src, BitVec.ofNat 8 func, false, BitVec.ofNat 3 (evSev e), s.clk.tb, BitVec.ofNat 16 (evCode e), data⟩]
      ∧ (vAt (raise src func e data s).ev.srcs src).dropped = 0)

/-- 10 R302: an upward crossing raises QUEUE_WATERMARK with the QID and the level, but only while UP was clear; one met
while UP is set is counted. -/
def Obligations.WatermarkEventNeedsUpClear : Prop :=
  (∀ qid v s lv, lv = qLevel (qSize qid) v → v.above = false → v.wm.toNat * qSize qid ≤ 256 * lv → v.up = false →
      putQ qid v s = raise 76 0 .queueWatermark (beBytes 1 qid ++ [0] ++ beBytes 4 lv) (setQ qid { v with
        peak := max v.peak lv, above := true, up := true, upCount := min (v.upCount + 1) 255 } s))
  ∧ (∀ qid v s lv, lv = qLevel (qSize qid) v → v.above = false → v.wm.toNat * qSize qid ≤ 256 * lv → v.up = true →
      putQ qid v s = setQ qid { v with
        peak := max v.peak lv, above := true, up := true, upCount := min (v.upCount + 1) 255 } s)
  ∧ (∀ qid v s lv, lv = qLevel (qSize qid) v → v.above = true ∨ 256 * lv < v.wm.toNat * qSize qid →
      ∃ w, putQ qid v s = setQ qid w s ∧ w.upCount = v.upCount ∧ w.up = v.up)

/-- The frame of the requests that only read: no unit of the device changes, no object but EVT_LOST, the count of oversize
packets (a reply may meet it, 10 R295) and a CON_CFG that waited for its prompt. -/
def Obligations.ReadRequestsLeaveTheUnitsAlone : Prop :=
  ∀ r s t c, ReadRow r c → exec c s = .next t →
    sameUnits s t ∧ t.svc = s.svc
    ∧ ∀ func id, id < 65536 → (func, id) ≠ (0x78, 0xE0A) → (func, id) ≠ (0x68, 0xB00) →
      (func, id) ≠ (0, 0xF20) → getObj t func id = getObj s func id

/-- 09 R269, R273, R278: the frame of a write that a client may make, on the state u that the ECC findings of its partial
words leave. Outside the packet rings a byte under the mask holds what was written and every other byte of the Trellis
what it held; a word is no longer poisoned exactly where the mask covers it whole; in the rings the bytes also join
the packets that hold them. The write is acknowledged. -/
def Obligations.TrellisWriteStoresItsBytes : Prop :=
  ∀ client addr data ecc wait within s h u t, data.length ≠ 0 → addr.toNat % 64 + data.length ≤ 64 →
    accessHeld s addr.toNat = false → h = (⟨client, addr, true, data, ecc, wait, within, .fabric⟩ : HeldAcc) →
    mayAccess (chargeGrant h s) client.toNat addr.toNat true = true →
    u = (eccFinds h).foldl (fun v e => eccReport h e v) (chargeGrant h s) →
    regionLost u (place u addr.toNat).1 = false → Memory.wf u = true →
    exec (.trellisAccess client addr true data ecc wait within) s = .next t →
      (∀ i b, data[i]? = some (some b) → memByte t (addr.toNat + i) = b)
      ∧ (∀ a, a < trSize → a < addr.toNat ∨ addr.toNat + data.length ≤ a ∨ data[a - addr.toNat]? = some none →
          memByte t a = memByte u a)
      ∧ (∀ w, w ∈ t.poison ↔ w ∈ u.poison ∧ ¬ ∀ k, k < 8 → addr.toNat ≤ 8 * w + k ∧
          ∃ b, data[8 * w + k - addr.toNat]? = some (some b))
      ∧ { t with mem := u.mem, poison := u.poison, queues := u.queues, out := u.out } = u
      ∧ (partOf u addr.toNat ≠ 4 → t.queues = u.queues)
      ∧ t.out = u.out ++ [.writeAck client addr]

/-- 14 R384, R385: the layout of a command packet, and the check value of its CRC. -/
def Obligations.CommandPacketCarriesItsCrc : Prop :=
  crc32c (ascii "123456789") = 0xE3069283
  ∧ (∀ op tag dest func status esn params, ∃ b : Bytes, cmdPacket op tag dest func status esn params = b ++ beBytes 4 (crc32c b)
      ∧ b = [0x6B, 0x43] ++ beBytes 2 op ++ beBytes 2 tag ++ beBytes 1 dest ++ beBytes 1 func ++ beBytes 2 params.length
        ++ beBytes 2 status ++ beBytes 4 esn ++ params ∧ b.length = 16 + params.length)

/-- 19 R499: the resets of the device leave the instruction of the test access port in force; TRST_N, its clocks and the
application of VDDIO reset it. -/
def Obligations.NoOtherResetReachesTheTestPort : Prop :=
  (∀ s t, exec .tapReset s = .next t → t.svc.tapIr = State.reset.svc.tapIr ∧ { t with svc := s.svc, out := s.out } = s)
  ∧ (∀ s t, exec .powerOn s = .next t → t.svc.tapIr = State.reset.svc.tapIr)
  ∧ (∀ s t c, exec c s = .next t → (∃ f, c = .wholeDeviceReset f) ∨ (∃ x, c = .brownout x) ∨ (∃ n, c = .resetNLow n)
      ∨ c = .thermalShutdown ∨ c = .thermalRecovery ∨ c = .mcLockstepMismatch ∨ (∃ f, c = .lifeCycleCommit f)
      ∨ (∃ a b, c = .wakeCharacters a b) ∨ c = .resetClocksReady → t.svc.tapIr = s.svc.tapIr ∧ tapHold t = tapHold s)

/-- 17 R456, R460, R472, 20 R511: what begins a reset, what waits for it, and the reset itself. -/
def Obligations.SupplyPinAndThermalResets : Prop :=
  (∀ s, ∃ t, exec .powerOn s = .next t ∧ t.phase = .waitClocks ∧ t.regs = State.reset.regs ∧ t.mem = [] ∧ t.clo.keys = []
      ∧ t.fuse = s.fuse ∧ t.aon.addr = 0 ∧ t.pw.cause = 0 ∧ t.pending = s.pending ∧ t.out = s.out)
  ∧ (∀ rail s, s.phase ≠ .thermal → exec (.brownout rail) s = .next (beginReset 1 .heldInReset
      (setPw (fun p => { p with railsLow := rail :: p.railsLow.filter (fun r => decide (r ≠ rail)) }) s)))
  ∧ (∀ rail s, s.phase = .thermal → exec (.brownout rail) s = .next (setPw (fun p => { p with
      cause := 1, dom := domainsOff 1 p.dom, railsLow := rail :: p.railsLow.filter (fun r => decide (r ≠ rail)) }) s))
  ∧ (∀ n s, 2000 ≤ n → tapHold s = false → s.phase ≠ .thermal → exec (.resetNLow n) s = .next
      (beginReset 2 (if s.phase = .heldInReset ∨ s.phase = .waitClocks then s.phase else .resetRun) s))
  ∧ (∀ n s, n ≤ 1000 → exec (.resetNLow n) s = .next s)
  ∧ (∀ s, s.phase = .heldInReset ∨ s.phase = .waitClocks →
      exec .resetClocksReady s = .next { s with phase := .resetRun, pw := { s.pw with railsLow := [] } })
  ∧ (∀ f s, s.phase = .resetRun → exec (.wholeDeviceReset f) s = .next (wholeReset f s))
  ∧ (∀ f s, s.phase = .running → s.pw.resetSoon = true →
      exec (.wholeDeviceReset f) s = .next (wholeReset f (beginReset 6 .resetRun s)))
  ∧ (∀ s, s.phase = .running ∨ s.phase = .romHalt → exec .thermalShutdown s = .next (beginReset 3 .thermal s))
  ∧ (∀ s, s.phase = .thermal → 2 ≤ s.pw.cause.toNat → exec .thermalRecovery s = .next { s with phase := .resetRun })
  ∧ (∀ s, s.phase = .thermal → s.pw.cause.toNat ≤ 1 → exec .thermalRecovery s = .next { s with phase := .heldInReset })

/-- 01 R17, 17 R457, R463, R466, R471: domains, the management controller, per-function reset and heat. -/
def Obligations.DomainsControllersAndFunctionReset : Prop :=
  (∀ d s, domOf s d.val = .on → s.phase = .running →
      exec (.domainTrip d) s = .next (tripped d.val
        ((if s.pw.repowers.any (fun e => e.1 == d.val && decide (now s ≤ e.2.toNat + 400000000)) then
            setPw (fun p => { p with locked := p.locked ++ [d.val] }) else id)
          (setF 0 0x203 23 19 d.val (bumpF 0 0x203 31 24 1 (setDom d.val .tripped s))))))
  ∧ (∀ temps s, s.phase ≠ .running → exec (.hotChange temps) s = .next { s with pw := { s.pw with temps := temps } })
  ∧ (∀ temps s t hot, s.phase = .running → t = ({ s with pw := { s.pw with temps := temps } } : State) →
      hot = (if tjHot t ≤ hottest t then true else if hottest t < tjHot t - 50 then false else isHot t) →
      exec (.hotChange temps) s = .next (throttleEvents 1 0xFF (setF 0 0x211 20 20 (b2n hot)
        (setF 0 0x211 23 21 (temps.toList.findIdx (fun x => decide (x = hottest t)))
          (setF 0 0x211 31 24 (clampInt 0 255 (hottest t / 10 + 64)).toNat t)))))
  ∧ (∀ s, s.phase = .running → s.pw.mcDown = false → s.pw.mcLast = none →
      exec .mcLockstepMismatch s = .next (setPw (fun p => { p with mcDown := true }) (mcForgets s)))
  ∧ (∀ s u, s.phase = .running → s.pw.mcDown = false → s.pw.mcLast = some u → now s < u.toNat + 400000000 →
      exec .mcLockstepMismatch s = .next (beginReset 4 .resetRun s))
  ∧ (∀ s, s.pw.mcDown = true → exec (.mcRestartDone false) s = .next (beginReset 4 .resetRun s))
  ∧ (∀ s, s.pw.mcDown = true → exec (.mcRestartDone true) s = .next
      (raise 76 0 .mcRestart (beBytes 2 (min 0xFFFF (s.pw.mcRestarts + 1))) (setPw (fun p => { p with
        mcDown := false, mcLast := some s.clk.tb, mcRestarts := min 0xFFFF (s.pw.mcRestarts + 1) }) s)))
  ∧ (∀ r s, objF s (0x7C + r.val) 0xF08 31 30 = 0 →
      exec (.regionControllerMismatch r) s = .next (setF (0x7C + r.val) 0xF08 31 30 1 s))
  ∧ (∀ r s, objF s (0x7C + r.val) 0xF08 31 30 = 1 →
      exec (.regionControllerRestarted r) s = .next (serveHeld r.val (setF (0x7C + r.val) 0xF08 31 30 0 s)))
  ∧ (∀ func failed s run t u, s.pw.resetting.find? (fun r => decide (r.func = func)) = some run →
      s.cl.leaving.any (fun c => decide (cf c = func.toNat)) = false →
      t = setPw (fun p => { p with resetting := p.resetting.filter (fun r => decide (r.func ≠ func)) }) s →
      (trippedOf t func.toNat).isEmpty = true →
      u = (if run.hold then setPw (fun p => { p with held := p.held ++ [func] }) t else leaveReset func.toNat t) →
      exec (.funcResetDone func failed) s = .next (funcAnswer func.toNat run.release stDone (if run.release then u
        else resetDone func.toNat (if run.repower then 9 else 8) (b2n failed) ((now u - run.start.toNat) / 400) u)))
  ∧ (∀ func failed s run t, s.pw.resetting.find? (fun r => decide (r.func = func)) = some run →
      s.cl.leaving.any (fun c => decide (cf c = func.toNat)) = false →
      t = setPw (fun p => { p with resetting := p.resetting.filter (fun r => decide (r.func ≠ func)) }) s →
      (trippedOf t func.toNat).isEmpty = false →
      exec (.funcResetDone func failed) s = .next (funcAnswer func.toNat run.release stNotInState t))
  ∧ (∀ func failed s run, s.pw.resetting.find? (fun r => decide (r.func = func)) = some run →
      s.cl.leaving.any (fun c => decide (cf c = func.toNat)) = true → exec (.funcResetDone func failed) s = .next s)

/-- 02 R38, R40, R44, R46, R51, R56, 20 R511: the reference clock, the mains reference, the time base. -/
def Obligations.ClockAndMainsCommands : Prop :=
  (∀ s, objF s 0x78 0xE09 31 31 = 1 → exec .refclkLoss s = .next (raise 77 0x78 .faultRefclk []
      (setClk (fun c => { c with refSlew := false }) (setF 0x78 0xE09 31 31 0 (setF 0x78 0xE09 29 29 1 s)))))
  ∧ (∀ s, objF s 0x78 0xE09 29 29 = 1 → exec .refclkRestoreDetect s = .next
      (setClk (fun c => { c with refSlew := true }) (setF 0x78 0xE09 31 31 1 s)))
  ∧ (∀ s, s.clk.refSlew = true → exec .refclkSlewEnd s = .next (raise 77 0x78 .refclkRestored []
      (setClk (fun c => { c with refSlew := false }) (setF 0x78 0xE09 29 29 0 s))))
  ∧ (∀ running s, exec (.slowClockChange running) s = .next (setF 0x78 0xE09 30 30 (b2n running) s))
  ∧ (∀ ch rx s i k, measUp s = true → ch.val = refCh s ∨ ((altEn s || s.clk.onAlt) = true ∧ ch.val = altCh s) →
      crossSlice s ch.val = some (i, k) →
      exec (.mainsCrossingCapture ch rx) s = .next (match crossingIn (hyst s) (crossOuts s k rx) with
        | some stamp => captureClock ch.val stamp (crossRecord ch.val i k stamp s)
        | none => s))
  ∧ (∀ s c e per, s.clk.c = some c →
      e = (match s.clk.track with | .locked | .slew | .chain => s.clk.err.getD 0 | _ => 0) →
      per = ((s.clk.p : Int) + adjOf s.clk.p e).toNat →
      exec .mainsCycleStart s = .next (recutBursts (setClk (fun k => { k with
        c := some (c + k.per), per := per, cycle := k.cycle + 1, err := k.errNext, errNext := none
        capThis := k.errNext.isSome, hist := ((c, k.per) :: k.hist).take 4, accAge := k.accAge + 1
        missRun := if (s.clk.track = .locked ∨ s.clk.track = .slew) ∧ s.clk.capThis = false then k.missRun + 1
          else k.missRun }) s)))
  ∧ (∀ s, s.clk.track = .locked ∨ s.clk.track = .slew → missLimit s ≤ s.clk.missRun →
      exec .mainsMissHoldover s = .next (raise 77 0x78 .mainsRefLost [0] (enterHoldover s)))
  ∧ (∀ s, 0 < s.clk.slew → 10000 ≤ s.clk.slewTicks → exec .tbSlewAdjust s = .next
      (setClk (fun c => { c with tb := c.tb + 1, slew := c.slew - 1, slewTicks := 0 }) s))
  ∧ (∀ s, s.clk.slew < 0 → 10000 ≤ s.clk.slewTicks → exec .tbSlewAdjust s = .next
      (setClk (fun c => { c with skipTick := true, slew := c.slew + 1, slewTicks := 0 }) s))

/-- 02 R54, R55, R56, R57, 15 R434: the synchronization pulse and its announcement on the chain. -/
def Obligations.ChainSynchronizationCommands : Prop :=
  (∀ s, s.clk.track = .chain → missLimit s ≤ s.clk.edgeMiss → exec .chainSyncMiss s = .next
      (raise 77 0x78 .mainsRefLost [1] (enterHoldover s)))
  ∧ (∀ s, isMaster s = false → exec .chainSyncEdge s = .next
      (setClk (fun c => { c with
        edgeInts := match c.lastEdge with | some l => ((now s * 256 - l) :: c.edgeInts).take 8 | none => c.edgeInts
        lastEdge := some (now s * 256), edgeWait := some (now s * 256), edgeMiss := 0 })
        { s with chain := { s.chain with syncHold := some (s.clk.tb + 10000000) } }))
  ∧ (∀ s, isMaster s = true → s.clk.driving = false →
      exec .chainSyncLowSeen s = .next (raise 77 0x78 .syncConflict [] s))
  ∧ (∀ s, isMaster s = true → s.clk.annDue = true → exec .syncAnnounceSend s = .next
      { s with
        clk := { s.clk with annDue := false }
        chain := { s.chain with txq := chainMsg s 0 63 (beBytes 8 s.clk.edgeTb.toNat ++ beBytes 4 s.clk.sfCycle.toNat
          ++ beBytes 2 (sfOffset s) ++ [0, 0]) :: s.chain.txq } })
  ∧ (∀ tb cycle sfo s, exec (.syncAnnouncement tb cycle sfo) s = .next (syncAnnounced tb cycle sfo s))

/-- 02 R52, 05 R120, 08 R228, R245, R254, R255, R266: superframes, slots, the schedule, the acknowledgement timer. -/
def Obligations.SuperframeScheduleAndNodeCommands : Prop :=
  (∀ fig s, s.phase = .running → s.clk.c.isSome = true → s.clk.lockSeen = true → s.clk.cycle.toNat % 2 = 0 →
      s.clk.sfCount = 0 ∨ s.clk.sfCycle ≠ s.clk.cycle → exec (.superframeStart fig) s = .next (superframeOpens fig s))
  ∧ (∀ slot s t u, s.phase = .running → s.clk.lockSeen = true → s.clk.sfCount ≠ 0 →
      u = driversDue (setClk (fun c => { c with slot := slot, slotTb := s.clk.tb }) s) →
      t = testsBegin (opensEnd (if slot.val = 15 then lateWrites (now u) u else u)) →
      exec (.slotStart slot) s = .next ((List.range 6).foldl (fun s g => rearm g s)
        (if slot.val = 1 then (List.range 6).foldl (fun s g => nbBeaconSend g s) t else t)))
  ∧ (∀ props opens s t, s.pw.mcDown = false → t = planSchedule props opens (preview s) →
      exec (.scheduleFix props opens) s = .next { t with regs := s.regs, shadow := s.shadow, bb := s.bb, port := s.port })
  ∧ (∀ props opens s, s.pw.mcDown = true → exec (.scheduleFix props opens) s = .next
      ((List.range 6).foldl (fun s g => setGrpL g (fun l => { l with next := l.cur }) s) s))
  ∧ (∀ node seq s t u, s.lk.tx.find? (fun t => decide (t.node = node) && decide (t.seq = some seq.toNat)
        && decide (t.st = .sent)) = some t →
      t.sentSf + arqTo s + nHops s node.toNat - 1 ≤ sfNow s → t.retx < arqRetry s →
      u = moveVa node.toNat (setTx t.id (fun t => { t with st := .queued, retx := t.retx + 1 }) (bumpF 0 0x70B 31 16 1 s)) →
      exec (.arqAckTimeout node seq) s = .next (if t.retx = 1 ∧ t.nego ≠ [] then
        nSetMapreq (hopOf u node.toNat) true (t.nego.foldl (fun s i => dropMap (hopOf u node.toNat) 1 i s) u) else u))
  ∧ (∀ node seq s t, s.lk.tx.find? (fun t => decide (t.node = node) && decide (t.seq = some seq.toNat)
        && decide (t.st = .sent)) = some t →
      t.sentSf + arqTo s + nHops s node.toNat - 1 ≤ sfNow s → arqRetry s ≤ t.retx →
      exec (.arqAckTimeout node seq) s = .next (moveVa node.toNat (giveUpTx t s)))
  ∧ (∀ g s e a b, (grpL s g.val).watch = some (e, a, b) → e ≤ sfNow s →
      exec (.stepWatchEnd g) s = .next (setGrpL g.val (fun l => { l with watch := none }) s))
  ∧ (∀ node s, nState s node.toNat = 2 → lostN s ≤ nSilent s node.toNat → node.toNat ≠ 0 →
      exec (.nodeSilenceLimit node) s = .next
        (inTurn 75 loseNode (node.toNat :: (if nRepeater s node.toNat then descendants s node.toNat else [])) s))
  ∧ (∀ node s n e, n = node.toNat → s.lk.leaving.find? (fun e => e.1 == n) = some e → nState s n = 4 →
      (framesOf s n).isEmpty = true ∨ e.2.1 + 8 ≤ sfNow s →
      exec (.leavingToFree node) s = .next (fullCheck (raise 75 0 .nodeLeft (beBytes 2 n ++ beBytes 1 e.2.2)
        (setDescs (nodePath s n) (setLk (fun l => { l with
          canRep := l.canRep.filter (fun m => m != n), leaving := l.leaving.filter (fun e => e.1 != n)
          dest := l.dest.filter (fun e => e.1 != n)
          backAt := smErase (fun k => k == n) l.backAt, unheard := l.unheard.filter (fun e => e.toNat != n)
          heard := smErase (fun k => k / 8 == n) l.heard, fails := smErase (fun k => k / 8 == n) l.fails
          setAt := smErase (fun k => k == n) l.setAt, ulLast := smErase (fun k => k == n) l.ulLast })
          (memWrite (nodeBase n) (List.replicate 64 0) (dropFrames n (unbind n s))))))))

/-- 02 R60, 14 R415: event records leave their sources, are released and are sent. -/
def Obligations.EventCommands : Prop :=
  (∀ src s r t u, collectorHeld s = false → (vAt s.ev.srcs src.val).q = r :: t →
      u = ({ s with ev := { s.ev with srcs := vSet s.ev.srcs src.val { vAt s.ev.srcs src.val with q := t } } } : State) →
      exec (.eventRecordAccept src) s = .next (if released u r then issue { r with late := true } u
        else { u with ev := { u.ev with held := u.ev.held ++ [r] } }))
  ∧ (∀ s, collectorHeld s = false → exec .eventRelease s = .next ((evSort (s.ev.held.filter (fun r => released s r))).foldl (fun t r => issue r t)
      { s with ev := { s.ev with held := s.ev.held.filter (fun r => !released s r) } }))
  ∧ (∀ s r rest t, s.ev.unsent = r :: rest → t = ({ s with ev := { s.ev with unsent := rest } } : State) →
      eventPath t = false → exec .eventPacketSend s = .next (bumpF 0 0xE21 15 0 1 t))
  ∧ (∀ s r rest t l, s.ev.unsent = r :: rest →
      t = bumpF 0 0xE21 31 16 1 ({ s with ev := { s.ev with unsent := rest } } : State) →
      eventPath { s with ev := { s.ev with unsent := rest } } = true → objF t 0 0xE20 31 31 = 0 → eventLink t = some l →
      exec .eventPacketSend s = .next (hostSend l (eventDst t).1 (eventDst t).2 (eventPacket t r) (mcPass (eventPacket t r) t)))
  ∧ (∀ s r rest t, s.ev.unsent = r :: rest →
      t = bumpF 0 0xE21 31 16 1 ({ s with ev := { s.ev with unsent := rest } } : State) →
      eventPath { s with ev := { s.ev with unsent := rest } } = true → objF t 0 0xE20 31 31 ≠ 0 →
      exec .eventPacketSend s = .next (chainSend 2 (objF t 0 0xE20 29 24) (eventPacket t r) t))

/-- 03 R70, R72, R75, R77, R83, R84, 04 R115: the line ports and what happens on them. -/
def Obligations.LinePortCommands : Prop :=
  (∀ p s, mayTransmit s = true → funcDown s (pf p.val) = false → portState s p.val = 0 → coupler s p.val ≠ 0 →
      lifeCycle s ≠ 4 → exec (.portStartupChecks p) s = .next (takeBankB p.val 0 (setF (pf p.val) 0x403 31 28 1
        (setPort p.val (fun k => { k with checking := some s.clk.tb, turn := now s + 2 * s.clk.p / 256 }) s))))
  ∧ (∀ p m s start r, (portOf s p.val).checking = some start →
      r = soundRecord s p.val m (objF s (pf p.val) 0x400 26 26 == 1) start →
      exec (.portChecksDone p m) s = .next (checkOutcome p.val r.1 r.2 m
        (turnsNext p.val (now s) (setPort p.val (fun k => { k with move := if r.1 = 0 then some .enter else none })
          (sieveReset p.val (portRests p.val s))))))
  ∧ (∀ p s t, funcDown s (pf p.val) = false →
      t = setPort p.val (fun k => { k with clamps := k.clamps + 1 }) (bumpF (pf p.val) 0x404 31 16 1 s) →
      exec (.clampEpisodeEnd p) s = .next (if clampLimit t p.val < (portOf t p.val).clamps then
        losePort p.val 6 3 (clampOff p.val t) else t))
  ∧ (∀ p s, funcDown s (pf p.val) = false → exec (.clampTimeout p) s = .next
      (losePort p.val 6 3 (clampOff p.val (bumpF (pf p.val) 0x404 31 16 1 s))))
  ∧ (∀ p unit err s, funcDown s (pf p.val) = false → exec (.portUnitFault p unit err) s = .next
      (losePort p.val 8 5 (setF (pf p.val) (0x10 + unit.val) 31 28 4 (setF (pf p.val) (0x10 + unit.val) 15 8 err.toNat
        (bumpF (pf p.val) (0x10 + unit.val) 23 16 1 s)))))
  ∧ (∀ p rx s, funcDown s (pf p.val) = false → objF s (pf p.val) 0x402 31 31 = 0 →
      exec (.agcUpdate p rx) s = .next (setPga p.val (pgaMan s p.val) s))
  ∧ (∀ p rx s, funcDown s (pf p.val) = false → objF s (pf p.val) 0x402 31 31 ≠ 0 → (portOf s p.val).pgaHeld = true →
      exec (.agcUpdate p rx) s = .next s)
  ∧ (∀ p rx s (g : Int), funcDown s (pf p.val) = false → objF s (pf p.val) 0x402 31 31 ≠ 0 →
      (portOf s p.val).pgaHeld = false → g = objF s (pf p.val) 0x403 19 14 →
      exec (.agcUpdate p rx) s = .next
        (setPga p.val (clampInt 0 48 (clampInt (g - 1) (g + 1) (agcWant s p.val (rx.take 20000)))).toNat s))
  ∧ (∀ s, exec .readmitPeriodEnd s = .next ((List.range 6).foldl (fun s p =>
      setF (pf p) 0x403 5 4 (min 3 ((portOf s p).readmits.filter (fun t => decide (now s < t.toNat + 1440000000000))).length)
        (setPort p (fun k => { k with
          readmits := (portOf s p).readmits.filter (fun t => decide (now s < t.toNat + 1440000000000)) }) s)) s))
  ∧ (∀ p s, (portOf s p.val).fadeWait = true → exec (.shapeFadeStart p) s = .next (fadeBegin p.val s))
  ∧ (∀ p s, (portOf s p.val).fadeAt.isSome = true → exec (.shapeFadeEnd p) s = .next (fadeDone p.val s))

/-- 04 R92, 06 R177, 07 R196: encoding and sending a burst. -/
def Obligations.TransmitCommands : Prop :=
  (∀ g underrun s b, (grpL s g.val).bursts.find? (fun b => !b.nb && decide (b.sf ≤ sfNow s)) = some b →
      exec (.bbBurstTransmit g underrun) s = .next (takeBurst b
        (fun s => frameSent b.frame (if b.map = 2 then b.slots else []) (sendBb b true underrun s)) s))
  ∧ (∀ g ch s b, (grpL s g.val).bursts.find? (fun b => b.nb && b.chan == ch.val && decide (b.sf ≤ sfNow s)) = some b →
      exec (.nbBurstTransmit g ch) s = .next (takeBurst b (fun s => frameSent b.frame [] (sendNb b true s)) s))
  ∧ (∀ g node nb s f, readyTx s g.val node.toNat nb = some f → readTx f s = none →
      exec (.downlinkEncode g node nb) s = .next (moveVa node.toNat (dropTx f s)))
  ∧ (∀ g node s f b t a, readyTx s g.val node.toNat false = some f → readTx f s = some (b, t) → f.grant = some a →
      exec (.downlinkEncode g node false) s = .next (encodeBb g.val f a t))
  ∧ (∀ g node s f b t, readyTx s g.val node.toNat false = some f → readTx f s = some (b, t) → f.grant = none →
      exec (.downlinkEncode g node false) s = .next (requeueTx f.id t))
  ∧ (∀ g node s f b t o, readyTx s g.val node.toNat true = some f → readTx f s = some (b, t) →
      t.lk.opens.find? (fun o => o.group == g.val && o.kind == 1 && decide (o.node = node)) = some o →
      exec (.downlinkEncode g node true) s = .next (encodeNb g.val f o t))
  ∧ (∀ g node s f b t, readyTx s g.val node.toNat true = some f → readTx f s = some (b, t) →
      t.lk.opens.find? (fun o => o.group == g.val && o.kind == 1 && decide (o.node = node)) = none →
      exec (.downlinkEncode g node true) s = .next (requeueTx f.id t))

/-- 05 R122, R123, R126, R127, R132: from the preamble of a broadband burst to the end of its training. -/
def Obligations.BroadbandAcquisitionCommands : Prop :=
  (∀ g rx s, (rxOf s g.val).expect = true → (rxOf s g.val).ph = .idle →
      exec (.bbPreambleDetect g rx) s = .next (if detects s (rxPorts s g.val) rx 0 = true then
        setRx g.val (fun x => { x with ph := .sync, det := rxTb s, pendS := none })
          ((rxPorts (bumpF 0 (0x528 + g.val) 31 16 1 s) g.val).foldl (fun s p => holdPga p (rxOfPort rx p) s)
            (bumpF 0 (0x528 + g.val) 31 16 1 s))
        else s))
  ∧ (∀ g rx s power, (rxOf s g.val).ph = .sync → power = syncPower s (groupSync s g.val) (rxPorts s g.val) rx →
      exec (.bbSecondaryDetect g rx) s = .next (if detects s (rxPorts s g.val) rx 0 = false then s
        else if power (rxOf s g.val).det * ofDb (restartDb s) ≤ power (rxTb s) then
          setRx g.val (fun x => { x with det := rxTb s, pendS := none }) (grpAbort g.val 31 24 1 s)
        else setRx g.val (fun x => { x with pendS := some (rxTb s) }) s))
  ∧ (∀ g rx s, (rxOf s g.val).ph = .sync → rxTb s ≤ (rxOf s g.val).det + 6144 →
      exec (.bbS9Found g rx) s = .next (match foundAt s g.val rx with
        | none => s
        | some (t0, power, coarse) =>
          if gateOk s t0 = false then attemptEnds g.val (grpAbort g.val 23 16 1 s)
          else if farOff coarse = true then attemptEnds g.val (grpAbort g.val 31 24 1 s)
          else enterTrain g.val t0 coarse power false s))
  ∧ (∀ g s, (rxOf s g.val).ph = .sync → (rxOf s g.val).det + 6144 ≤ rxTb s →
      exec (.bbSyncTimeout g) s = .next (attemptEnds g.val (grpAbort g.val 31 24 1 s)))
  ∧ (∀ g rx s, (rxOf s g.val).ph = .train ∨ (rxOf s g.val).ph = .fc ∨ (rxOf s g.val).ph = .payload →
      objF s 0 0x520 17 17 = 1 →
      exec (.bbCapture g rx) s = .next (if (List.range 3073).any (detects s (rxPorts s g.val) rx) = false then s
        else match foundAt s g.val rx with
          | none => s
          | some (t0, power, coarse) =>
            if gateOk s t0 = false then s
            else if farOff coarse = true then grpAbort g.val 31 24 1 s
            else if framePower (rxOf s g.val) * ofDb (capMargin s) ≤ power then
              enterTrain g.val t0 coarse power true (grpAbort g.val 7 4 1 (abandonUsers g.val s))
            else s))
  ∧ (∀ g rx s x low off con w1 w2 t us, x = rxOf s g.val → x.ph = .train → heard s x.t0 11263 = true →
      low = lowBand s g.val → off = x.preset + x.coarse → con = quietPorts s (rxPorts s g.val) x.t0 2976 11264 →
      w1 = symbolWindows x.t0 2976 off rx con s → w2 = symbolWindows x.t0 7072 off rx con w1.1 →
      t = training w2.1 low (masked s) x.gi (x.grants.map (·.1)) (quietPorts s (hearPorts s g.val) x.t0 2976 11264) con
        (w1.2.map (fun p => (p, 0)) ++ w2.2.map (fun p => (p, 1))) rx x.t0 off →
      us = x.grants.zipIdx.map (fun e => trainedUser w2.1 low (masked w2.1) t (rxPorts w2.1 g.val) e.1 e.2) →
      exec (.bbTrainingEnd g rx) s = .next
        (if us.all (fun u => !u.present) then rxIdle g.val (grpAbort g.val 3 0 (us.filter (fun u => !u.present)).length w2.1)
        else setRx g.val (fun x => trained x us t) (grpAbort g.val 3 0 (us.filter (fun u => !u.present)).length w2.1)))

/-- 05 R129, R145, R146, R147: frame control, payload, re-estimation after a step, and the noise map. -/
def Obligations.BroadbandPayloadCommands : Prop :=
  (∀ g u rx s y ui all w v rest spec word d r, (rxOf s g.val).users.find? (fun y => y.u == u.val && y.present && !y.decided) = some y →
      (rxOf s g.val).ph = .fc → heard s (rxOf s g.val).t0 16383 = true →
      ui = (rxOf s g.val).chan.users.idxOf u.val →
      all = heardSpectra s g.val (rxOf s g.val) rx (symOffset (rxOf s g.val) y) 12192 →
      w = fcWindows (rxOf s g.val) (symOffset (rxOf s g.val) y) rx (all.map Prod.fst) s →
      v = addPrec 2000 (setRx g.val (fun x => { x with fcHit := some w.2 }) w.1) →
      rest = all.filter (fun e => !w.2.contains e.1) →
      spec = (if rest.length < (rxOf s g.val).chan.users.length then [] else rest) →
      word = fcDecoded (rxOf s g.val) (lowBand s g.val) (masked s) ui spec →
      d = refinedOf (rxOf s g.val) (lowBand s g.val) (masked s) ui spec word →
      r = openFrame g.val { y with decided := true, refined := d, fc := some (fcOf word) } (fcOf word)
        (setLk (fun l => { l with present := l.present ++ [(g.val, (fcOf word).src)] })
          (bumpF 0 (0x528 + g.val) 15 0 1 (setRx g.val (fun x => { x with chan := { x.chan with
            rot := if x.grants.length ≤ 1 then x.chan.rot
              else x.chan.rot.set ui (x.chan.rot.getD ui 0 + d) } }) v))) →
      exec (.bbFrameControl g u rx) s = .next (if fcAccept v (rxOf s g.val) word = false then
        fcDone g.val (setUser g.val { y with decided := true } v)
        else fcDone g.val (setUser g.val r.2 r.1)))
  ∧ (∀ g rx s x u i o a off svc r obs v t, x = rxOf s g.val → x.ph = .payload →
      u = (x.users.filter (fun u => u.fc.isSome)).headD default → i = x.seen →
      o = 16384 + i * (4096 + giSamples (u.fc.getD default).gi) + giSamples (u.fc.getD default).gi - 96 →
      heard s x.t0 (o + 4095) = true → a = x.t0 + 2 * o → off = symOffset x u →
      svc = quietPorts s ((rxPorts s g.val).filter (fun p => !nbit x.left.toNat p && x.chan.ests.any (fun e => e.port == p)))
        x.t0 o (o + 4096) →
      r = (if activeL s = 0 ∨ 12480 < rxTb s - a ∧ svc.any (fun p => decide ((rxOfPort rx p).length ≤ (rxTb s - a) / 2)) = true
        then (bumpF 0 0xF00 15 8 1 s, [], false)
        else svc.foldl (fun b p => portWindow g.val (binAt s a) p
          (quietEnergy s (rxOfPort rx p) x.t0 off o) (overCount s p (rxOfPort rx p) a) b) (s, [], false)) →
      obs = ({ i := i, idx := slotAt s (symStart 0 x.t0 (u.fc.getD default).gi i) % 8, bin := binAt s a, ports := r.2.1
               y := (quietPorts s (x.chan.ests.map (·.port)) x.t0 o (o + 4096)).map (fun p =>
                 (p, spectrum s (lowBand s g.val) (rxOfPort rx p) x.t0 off o)) } : RxObs) →
      v = setRx g.val (fun x => { x with
        seen := i + 1, obs := x.obs ++ [obs], impAt := if r.2.2 then x.impAt ++ [i] else x.impAt }) r.1 →
      t = declareSteps g.val (r.2.1.foldl (fun s' p => stepRun g.val i (stepRise x
          (((layouts x).filter (fun f => decide (i < f.nsym))).map (fun f => (f, symSoft v { f with obs := f.obs ++ [obs] } obs)))
          obs p) p s') v) →
      exec (.bbPayloadSymbol g rx) s = .next
        (if (layouts x).foldl (fun a f => max a f.nsym) 0 ≤ i + 1 then rxComplete g.val t
        else writeDue g.val (stepN t + 1) t))
  ∧ (∀ g u s f, s.dec.frames.find? (fun f => f.group == g.val && f.nb.isNone && f.uidx == u.val
        && f.owed && f.complete) = some f →
      (s.dec.frames.filter (fun x => sameSlot x f)).all (fun x => x.cws.all (·.passed)) = true →
      exec (.bbStepReestimate g u) s = .next (setFrame (rejoined s f) s))
  ∧ (∀ p rx s a eq t, a = rxTb s - 8190 → funcDown s (pf p.val) = false → txIn s p.val a (rxTb s + 2) = false →
      eq = quietEnergy s rx a 0 0 → t = impUpdate p.val (binAt s a) false (floorUpdate p.val eq s) →
      exec (.noiseMapBlock p rx) s = .next (if impulsive s p.val eq (overCount s p.val rx a) = true then
          setBb (fun b => { b with flagged := vSet b.flagged p.val ((a :: vAt b.flagged p.val).take 64) })
            (impUpdate p.val (binAt s a) true (bumpF (pf p.val) 0x525 31 16 1 s))
        else if (rxOf t (groupOf s p.val)).ph ≠ .idle then t
        else (List.range 24).foldl (fun v k => noisePut p.val (binAt s a) k
          (rMean ((inGroup k (carriers false)).map (fun c => cNorm (windowAt t rx a 0 0 4096 c)))) v) t))

/-- 06 R173, R174, R175, R180, R181: codewords, outer rounds, reprieves and lag. -/
def Obligations.DecoderCommands : Prop :=
  (∀ frame cw cluster s f w, decFrame s frame = some f → w = f.cws.getD cw (newCw 0) → nextCw s = some (frame, cw) →
      clUsable s cluster.val = true → restartPlace s w cluster.val = true →
      (if f.nb.isSome then !nbOn s cluster.val else decide (cwsOn s cluster.val = 0)) = true →
      exec (.codewordDecodeStart frame cw cluster) s = .next
        (decStatus (setF (cf cluster.val) 0x12 31 28 2 (setF (cf cluster.val) 0x12 0 0 1
          (setFrame (beginCw s f cw cluster.val) s)))))
  ∧ (∀ frame s f, decFrame s frame = some f → f.round + 1 < f.rounds →
      f.cws.any (fun w => decide (w.ph = .roundEnd)) = true → barrier s f = true →
      exec (.outerRoundStart frame) s = .next (setDec (fun d => { d with frames := d.frames.map (fun x =>
        if sameSlot x f && roundsOn x && x.round == f.round then nextRound s x else x) }) s))
  ∧ (∀ frame cw s f c v w x t, decFrame s frame = some f → cw < f.cws.length → v = f.cws.getD cw (newCw 0) →
      v.ph = .running c ∨ v.ph = .reprieved c → (f.nb.isNone && nbOn s c) = false → x = minSumIter f.rate (zOf f) (frozenOf f cw) v.post v.msg →
      parityOk f.rate (zOf f) (hardBits x.1).toArray = true →
      w = { v with
        post := x.1, msg := x.2, iters := v.iters + 1, left := v.left - 1, passed := true, ph := .converged, ckpt := false } →
      t = restUnit c (if f.nb.isSome then addPrec 100 s else s) →
      exec (.codewordIteration frame cw) s = .next
        (leaveDue (maybeEnd (setCw f cw w) (if v.rep then bumpF 0 0x542 15 0 1 t else t))))
  ∧ (∀ frame cw s f c v, decFrame s frame = some f → v = f.cws.getD cw (newCw 0) →
      v.ph = .running c ∨ v.ph = .reprieved c → (f.nb.isNone && nbOn s c) = true →
      exec (.codewordIteration frame cw) s = .next s)
  ∧ (∀ frame cw s f c v w x t u, decFrame s frame = some f → cw < f.cws.length → v = f.cws.getD cw (newCw 0) →
      v.ph = .running c ∨ v.ph = .reprieved c → (f.nb.isNone && nbOn s c) = false → x = minSumIter f.rate (zOf f) (frozenOf f cw) v.post v.msg →
      parityOk f.rate (zOf f) (hardBits x.1).toArray = false →
      w = { v with post := x.1, msg := x.2, iters := v.iters + 1, left := v.left - 1, passed := true } →
      t = (if f.nb.isSome then addPrec 100 s else s) → u = (if v.left ≤ 1 then restUnit c t else t) →
      exec (.codewordIteration frame cw) s = .next (leaveDue
        (maybeEnd { setCw f cw (cwAfter u f w) with anyCap := f.anyCap || decide ((cwAfter u f w).ph = .reprieve) }
          (if (cwAfter u f w).ph = .reprieve then bumpF 0 0x542 31 16 1 u else u))))
  ∧ (∀ cluster s id c u f, lagMode s = false → (waitingCws s).isEmpty = true → clUsable s cluster.val = true →
      cwsOn s cluster.val = 0 → oldestWait ((reprieves s).filter (fun e => !reprieveOld s e)) = some (id, c, u) →
      decFrame s id = some f → exec (.reprieveStart cluster) s = .next (setF (cf cluster.val) 0x12 31 28 2 (setF (cf cluster.val) 0x12 0 0 1 (setFrame { setCw f c
        { f.cws.getD c (newCw 0) with
          ph := .reprieved cluster.val, left := iterMax s - (f.cws.getD c (newCw 0)).budget
          grant := iterMax s - (f.cws.getD c (newCw 0)).budget, rep := true, ckpt := true }
        with anyRep := true } s))))
  ∧ (∀ s id c u f, oldestWait ((reprieveQueue s).filter (reprieveOld s)) = some (id, c, u) → decFrame s id = some f →
      exec .reprieveTimeout s = .next (maybeEnd (setCw f c { f.cws.getD c (newCw 0) with ph := .failed }) s))
  ∧ (∀ s id c u, oldestWait (waitingCws s) = some (id, c, u) → lagMode s = false → u.toNat + lagTicks s < now s →
      exec .decodeLag s = .next (raise 76 0 .decodeLag (beBytes 2 (min 0xFFFF (waitingCws s).length))
        (setF 0 0x541 25 25 1 s)))
  ∧ (∀ s, lagMode s = true → oldestWait (waitingCws s) = none → exec .lagModeExit s = .next (setF 0 0x541 25 25 0 s))
  ∧ (∀ s id c u, lagMode s = true → oldestWait (waitingCws s) = some (id, c, u) → 2 * (now s - u.toNat) < lagTicks s →
      exec .lagModeExit s = .next (setF 0 0x541 25 25 0 s))

/-- 01 R21, R23, R521, 06 R186: clusters, spares, die-to-die lanes and the capacity they leave. -/
def Obligations.ClusterAndLaneCommands : Prop :=
  (∀ c unit err s f u v sp, f = cf c.val → clOf s c.val = .active → funcDown s f = false →
      u = setF f (0x10 + unit.val) 31 28 4 (setF f (0x10 + unit.val) 15 8 err.toNat (bumpF f (0x10 + unit.val) 23 16 1 s)) →
      v = setClSt c.val .retired u → spareOf v (clRegion c.val) = some sp →
      exec (.clusterFault c unit err) s = .next
        (raise c.val f .faultCluster (beBytes 1 f ++ beBytes 1 (cf sp) ++ beBytes 2 (cwsOn u c.val))
          (recomputeCap (giveSlice c.val sp (setClSt sp .active (restartOn c.val (some sp) v))))))
  ∧ (∀ c unit err s f u v, f = cf c.val → clOf s c.val = .active → funcDown s f = false →
      u = setF f (0x10 + unit.val) 31 28 4 (setF f (0x10 + unit.val) 15 8 err.toNat (bumpF f (0x10 + unit.val) 23 16 1 s)) →
      v = setClSt c.val .retired u → spareOf v (clRegion c.val) = none →
      exec (.clusterFault c unit err) s = .next (raise c.val f .faultUnabsorbed (beBytes 1 f)
        (raise c.val f .faultCluster (beBytes 1 f ++ beBytes 1 0xFF ++ beBytes 2 (cwsOn u c.val))
          (recomputeCap (reslice (restartOn c.val none v))))))
  ∧ (∀ c unit err s f, f = cf c.val → clOf s c.val = .spare → funcDown s f = false →
      exec (.clusterFault c unit err) s = .next (raise c.val f .faultCluster (beBytes 1 f ++ [0xFF] ++ beBytes 2 0)
        (setClSt c.val .retired (setF f (0x10 + unit.val) 31 28 4 (setF f (0x10 + unit.val) 15 8 err.toNat
          (bumpF f (0x10 + unit.val) 23 16 1 s))))))
  ∧ (∀ c unit err s, clOf s c.val = .retired → exec (.clusterFault c unit err) s = .next s)
  ∧ (∀ r unit err s c f, spareOf s r.val = some c → clOf s c = .spare → funcDown s f = false → f = cf c →
      exec (.spareFailed (.cluster r unit err)) s = .next (raise c f .faultCluster (beBytes 1 f ++ [0xFF] ++ beBytes 2 0)
        (setClSt c .retired (setF f (0x10 + unit.val) 31 28 4 (setF f (0x10 + unit.val) 15 8 err.toNat
          (bumpF f (0x10 + unit.val) 23 16 1 s))))))
  ∧ (∀ r s, objF s (0x7C + r.val) 0xF08 29 28 = 0 → nbit (objF s (0x7C + r.val) 0xF08 23 7) 16 = false →
      regionLost s r.val = false → (regOf s r.val).sub = none → exec (.spareFailed (.bank r)) s = .next
        (placeHalves (raise (71 + r.val) (0x7C + r.val) .faultBank (beBytes 1 (bankCode r.val 16) ++ [0xFF, 2])
          (bankDies r.val 16 (setF (0x7C + r.val) 0xF08 23 7 (objF s (0x7C + r.val) 0xF08 23 7 ||| 2 ^ 16)
            (setF (0x7C + r.val) 0xF08 29 28 3 s))))))
  ∧ (∀ i s, laneOf s false i.val = .spare → exec (.spareFailed (.laneD2L i)) s = .next
      (raise 76 0 .faultD2d (beBytes 1 0 ++ beBytes 1 i.val ++ [0xFF]) (setLane false i.val .retired s)))
  ∧ (∀ i s, laneOf s true i.val = .spare → exec (.spareFailed (.laneL2D i)) s = .next
      (raise 76 0 .faultD2d (beBytes 1 1 ++ beBytes 1 i.val ++ [0xFF]) (setLane true i.val .retired s)))
  ∧ (∀ a b s, exec (.spareLaneRetrain a b) s = .next (b.foldl (fun t i => if laneOf t true i.val = .spare then
        raise 76 0 .faultD2d (beBytes 1 1 ++ beBytes 1 i.val ++ [0xFF]) (setLane true i.val .retired t) else t)
      (a.foldl (fun t i => if laneOf t false i.val = .spare then
        raise 76 0 .faultD2d (beBytes 1 0 ++ beBytes 1 i.val ++ [0xFF]) (setLane false i.val .retired t) else t) s)))
  ∧ (∀ l2d lane s sp, laneOf s l2d lane.val = .active → spareLane s l2d = some sp →
      exec (.d2dLaneFault l2d lane) s = .next
        (raise 76 0 .faultD2d (beBytes 1 (b2n l2d) ++ beBytes 1 lane.val ++ beBytes 1 sp)
          (setLane l2d sp .active (setLane l2d lane.val .retired s))))
  ∧ (∀ l2d lane s, laneOf s l2d lane.val = .active → spareLane s l2d = none →
      exec (.d2dLaneFault l2d lane) s = .next (raise 76 0 .faultUnabsorbed [0]
        (raise 76 0 .faultD2d (beBytes 1 (b2n l2d) ++ beBytes 1 lane.val ++ beBytes 1 0xFF)
          (setLane l2d lane.val .retired s))))
  ∧ (∀ s, capacityWord s ≠ getObj s 0 0x20 → exec .capacityUpdate s = .next
      (raise 76 0 .capacityChange (beBytes 4 (capacityWord s).toNat) (recomputeCap (setObj 0 0x20 (capacityWord s) s))))
  ∧ (∀ s, capacityWord s = getObj s 0 0x20 → exec .capacityUpdate s = .next s)

/-- 07 R211, R213, R214, R215, R217, R218, R219, R220, R221: the receiver of one narrowband channel. -/
def Obligations.NarrowbandReceiveCommands : Prop :=
  (∀ g ch rx s x ports hits, x = nbOf s (nbI g.val ch.val) → nbEnabled x.cfg = true → x.ph = .idle →
      ports = (nbRxPorts s g.val ch.val).filter (fun p => !txIn s p (rxTb s - (8 * nbT x.cfg).floor.toNat) (rxTb s + 2)) →
      hits = ports.filterMap (fun p => nbPortPower s p ch.val x.cfg rx) →
      exec (.nbPreambleDetect g ch rx) s = .next (if hits.isEmpty then s else
        setNbRx (nbI g.val ch.val) (fun x => { x with
          ph := .sync, det := rxTb s, power := hits.foldl max 0, ports := portsOf s g.val })
          (nbCount ch.val 31 24 1 s)))
  ∧ (∀ g ch rx s x ports hits, x = nbOf s (nbI g.val ch.val) → nbEnabled x.cfg = true → x.ph = .sync →
      ports = (nbRxPorts s g.val ch.val).filter (fun p => !txIn s p (rxTb s - (8 * nbT x.cfg).floor.toNat) (rxTb s + 2)) →
      hits = ports.filterMap (fun p => nbPortPower s p ch.val x.cfg rx) →
      exec (.nbPreambleDetect g ch rx) s = .next (if hits.isEmpty then s
        else if x.power * ofDb (nbRestartDb s) ≤ hits.foldl max 0 then
          setNbRx (nbI g.val ch.val) (fun x => { x with
            ph := .sync, det := rxTb s, power := hits.foldl max 0, ports := portsOf s g.val })
            (nbCount ch.val 31 24 1 (nbCount ch.val 23 16 1 s))
        else s))
  ∧ (∀ g ch rx s x, x = nbOf s (nbI g.val ch.val) → x.ph = .sync → winOver s x = false →
      exec (.nbSyncMatch g ch rx) s = .next
      (match nbFind s (nbHear s x.ports ch.val x.cfg) (nbMonPorts s g.val ch.val x.cfg) ch.val x.cfg x.det rx with
        | some f => enterHeader g.val ch.val x.ports (nbHear s x.ports ch.val x.cfg) f false s
        | none => s))
  ∧ (∀ g ch s, (nbOf s (nbI g.val ch.val)).ph = .sync → winOver s (nbOf s (nbI g.val ch.val)) = true →
      exec (.nbSyncTimeout g ch) s = .next (nbIdle g.val ch.val (nbCount ch.val 23 16 1 s)))
  ∧ (∀ g ch s x w h fit nsym fin t f u, x = nbOf s (nbI g.val ch.val) → x.ph = .header → x.done = 240 →
      w = (headDecoded x.soft).1 → h = nbHeadOf w → fit = fitNb h.rate (8 * h.len + 16) →
      nsym = cdiv fit.len (if h.mod then 2 else 1) →
      fin = ((x.stamp : Rat) + (240 + nsym : Nat) * nbT x.cfg).floor.toNat →
      t = setLk (fun l => { l with present := l.present ++ [(g.val, BitVec.ofNat 12 h.src)] }) (addPrec 2000 s) →
      f = nbFrame t g.val ch.val x w fit nsym →
      u = (if h.dst = 0 ∨ h.dst = 4095 then
        setDec (fun d => { d with frames := d.frames ++ [f], nextId := f.id + 1 }) t else t) →
      exec (.nbHeaderDecode g ch) s = .next
        (if ((headDecoded x.soft).2 && nbHeadOk (addPrec 2000 s) g.val ch.val x.cfg w fin) = false then
          nbIdle g.val ch.val (nbCount ch.val 15 8 1 (addPrec 2000 s))
        else setNbRx (nbI g.val ch.val) (fun y => { y with
          ph := .payload, frame := if h.dst = 0 ∨ h.dst = 4095 then some f.id else none, nsym := nsym, head := w, last := []
          report := some (nbHeadReport u g.val ch.val x w nsym) }) u))
  ∧ (∀ g ch rx s x k w fines gains keep z around t, x = nbOf s (nbI g.val ch.val) → k = x.done →
      x.ph = .payload ∨ (x.ph = .header ∧ k < 240) → w = nbSymSpan x.cfg x.stamp k → w.2 + nbDelay x.cfg ≤ rxTb s →
      fines = (nbHear s x.ports ch.val x.cfg).map (fun p => (p, nbFine s p ch.val x.cfg rx)) →
      gains = (if k % 32 = 0 then nbGains (nbSpan s ch.val x.cfg fines (w.1 - 8 * nbT x.cfg) w.1) else x.gains) →
      keep = fines.filter (fun e => !nbLeftOut s x ch.val e.1 k e.2 && gains.any (fun q => q.1 == e.1)) →
      z = nbCombine gains (nbSpan s ch.val x.cfg keep w.1 w.2) →
      around = nbCombine gains (nbSpan s ch.val x.cfg keep (w.1 - nbT x.cfg) (w.2 + nbT x.cfg)) →
      t = setNbRx (nbI g.val ch.val) (fun x => { (if keep.isEmpty then x else nbRuns s (rMean (z.map outPower)) x) with
        gains := gains }) s →
      exec (.nbSymbol g ch rx) s = .next
        ((if x.ph = .payload ∧ 240 + x.nsym ≤ k + 1 then (fun s => nbIdle g.val ch.val (lostCarrier g.val ch.val s)) else id)
          (nbStore g.val ch.val (keep.isEmpty || (nbOf t (nbI g.val ch.val)).armed) (nbSoft x around) z t)))
  ∧ (∀ g ch s x, x = nbOf s (nbI g.val ch.val) → x.ph = .header ∨ x.ph = .payload → x.armed = false → 8 ≤ x.above →
      exec (.nbCaptureArm g ch) s = .next (setNbRx (nbI g.val ch.val) (fun y => { y with
        armed := true, armedEver := true, det := rxTb s, last := y.last.map (fun _ => true) })
        (eraseLast (nbI g.val ch.val) s)))
  ∧ (∀ g ch rx s x t, x = nbOf s (nbI g.val ch.val) → x.armed = true → x.ph = .header ∨ x.ph = .payload →
      objF s 0 0x612 10 10 ≠ 0 → winOver s x = false →
      t = (match x.frame with | some id => abandonFrame id s | none => s) → exec (.nbCapture g ch rx) s = .next
      (match nbFind s (nbRxPorts s g.val ch.val) (nbMonPorts s g.val ch.val x.cfg) ch.val x.cfg x.det rx with
        | some f => enterHeader g.val ch.val (portsOf t g.val) (nbRxPorts s g.val ch.val) f true (nbCount ch.val 7 4 1 t)
        | none => s))
  ∧ (∀ g ch s x, x = nbOf s (nbI g.val ch.val) → x.ph = .payload → lossN s ≤ x.loss →
      exec (.nbLostCarrier g ch) s = .next (nbIdle g.val ch.val ((List.range (240 + x.nsym - x.done)).foldl
        (fun s _ => nbStore g.val ch.val true [] [] s)
        (setNbRx (nbI g.val ch.val) (reportFlag 2) (nbCount ch.val 3 0 1 s)))))
  ∧ (∀ g ch s, (nbOf s (nbI g.val ch.val)).cfg ≠ getObj s 0 (0x600 + ch.val) →
      (nbOf s (nbI g.val ch.val)).ph = .idle ∨ (nbOf s (nbI g.val ch.val)).ph = .settle →
      exec (.nbChannelTakesEffect g ch) s = .next (nbTakes g.val ch.val (getObj s 0 (0x600 + ch.val)) s))
  ∧ (∀ g ch s x, x = nbOf s (nbI g.val ch.val) → x.ph = .settle → nbEnabled x.cfg = true →
      (nbPorts s g.val).all (fun p => nbClean s p ch.val x.cfg) = true →
      exec (.nbChannelSettled g ch) s = .next (setNbRx (nbI g.val ch.val) (fun x => { x with ph := .idle }) s))
  ∧ (∀ p ch rx s g k x l, g = groupOf s p.val → k = 8 * p.val + ch.val → x = nbOf s (nbI g ch.val) →
      l = ((gridIntervals false 1 (coarseOuts s p.val ch.val x.cfg rx)).headD []).map outPower →
      (nbRxPorts s g ch.val).contains p.val = true → x.ph = .idle → nbEnabled x.cfg = true →
      txIn s p.val (rxTb s - (2 * nbT x.cfg).floor.toNat) (rxTb s + 2) = false →
      exec (.nbChannelFloorUpdate p ch rx) s = .next (if l.isEmpty then s else
        setNb (fun b => { b with floor := vSet b.floor k (some
          (match vAt s.nb.floor k with | some f => f + (rMean l - f) / 256 | none => rMean l)) }) s))

/-- 08 R246, 11 R323, R324: sealed link frames are opened, taken and joined. -/
def Obligations.LinkFrameCommands : Prop :=
  (∀ s d rest, s.lk.sealed = d :: rest → linkTurn .up s = true → linkLenOk d.bytes = false →
      exec .linkFrameOpen s = .next (authFail (takeJob .up (setLk (fun l => { l with sealed := rest }) s))))
  ∧ (∀ s d rest p gone, s.lk.sealed = d :: rest → linkTurn .up s = true → linkLenOk d.bytes = true →
      p = linkParts d.bytes → gone = takeJob .up (setLk (fun l => { l with sealed := rest }) s) →
      p.ct.length ≤ 65504 → p.orig = 4095 → p.ty = 3 →
      exec .linkFrameOpen s = .next (if joinOpen s then joinArrives d gone else gone))
  ∧ (∀ s d rest p gone t r, s.lk.sealed = d :: rest → linkTurn .up s = true → linkLenOk d.bytes = true →
      p = linkParts d.bytes → gone = takeJob .up (setLk (fun l => { l with sealed := rest }) s) →
      p.ct.length ≤ 65504 → p.orig ≠ 0 → p.orig ≠ 4095 → nState s p.orig ≠ 0 → kClass s (nKey s p.orig) = 1 →
      t = tryOpen s (nKey s p.orig) (kEui s (nKey s p.orig)) p →
      r = pushOpened d p (nKey s p.orig) (t.getD p.ct) (jobDone gone) → r.2 = true →
      exec .linkFrameOpen s = .next
        (if t.isNone then unheard d.src.toNat p.orig (authFail (abortOpen (jobDone gone)))
        else if fcOk s (nKey s p.orig) p.fc = false then unheard d.src.toNat p.orig (replayed (abortOpen (jobDone gone)))
        else r.1))
  ∧ (∀ s o rest t, s.lk.opened = o :: rest → t = setLk (fun l => { l with opened := rest }) s →
      exec .linkFrameReceive s = .next ((if o.orig = 4095 then joinReceived o else linkReceived o)
        ((qPop 0x0E t).elim t (·.2))))
  ∧ (∀ s o, nState s o.orig.toNat = 0 → linkReceived o s = s)
  ∧ (∀ s d, s.lk.trial = some d → objF s 0x50 0x800 31 31 ≠ 0 → drbgDead s = false →
      (List.range 16).any (fun e => onTrial s e) = true → joinHit (linkParts d.bytes) s = none →
      exec .joinTrial s = .next (endTrial (authFail (abortOpen s))))
  ∧ (∀ s d n b r, s.lk.trial = some d → objF s 0x50 0x800 31 31 ≠ 0 → drbgDead s = false →
      (List.range 16).any (fun e => onTrial s e) = true → joinHit (linkParts d.bytes) s = some (n, b) →
      r = pushOpened d (linkParts d.bytes) n b s → r.2 = true → exec .joinTrial s = .next (endTrial r.1))
  ∧ (∀ o s, objF s 0 0x700 15 15 = 1 → (netSlot s).isSome = true → s.pw.mcDown = false → joinReceived o s = joinNode o.slot o.body o s)

/-- 01 R18, R26, 09 R279, R281, R282, R284: accesses, scrubbing, bank switches, the mirror, wipes. -/
def Obligations.TrellisMaintenanceCommands : Prop :=
  (∀ client addr write data ecc wait within s, data.length ≠ 0 → addr.toNat % 64 + data.length ≤ 64 →
      accessHeld s addr.toNat = false → exec (.trellisAccess client addr write data ecc wait within) s = .next
        (fabricAccess ⟨client, addr, write, data, ecc, wait, within, .fabric⟩ s))
  ∧ (∀ client addr write data ecc wait within s, data.length ≠ 0 → addr.toNat % 64 + data.length ≤ 64 →
      accessHeld s addr.toNat = true → exec (.trellisAccess client addr write data ecc wait within) s = .next
        (setReg (place s addr.toNat).1 (fun g => { g with
          heldAcc := g.heldAcc ++ [⟨client, addr, write, data, ecc, wait, within, .fabric⟩] }) s))
  ∧ (∀ client addr write data ecc wait within s, data.length = 0 ∨ 64 < addr.toNat % 64 + data.length →
      exec (.trellisAccess client addr write data ecc wait within) s = .fault .illFormed)
  ∧ (∀ h s t, t = chargeGrant h s → (regionLost t (place t h.addr.toNat).1 = true ∨
      mayAccess t h.client.toNat h.addr.toNat h.write = true) → h.write = true → fabricAccess h s =
        emit (.writeAck h.client h.addr) ((maskRuns h.addr.toNat h.data).foldl (fun u e => trWrite e.1 e.2 u)
          ((eccFinds h).foldl (fun u e => eccReport h e u) t)))
  ∧ (∀ h s t, t = chargeGrant h s → regionLost t (place t h.addr.toNat).1 = false →
      mayAccess t h.client.toNat h.addr.toNat h.write = false → fabricAccess h s =
        emit (if h.write then .writeAck h.client h.addr
          else .readData h.client h.addr (List.replicate h.data.length 0) false)
          (windowFault h.client.toNat h.addr.toNat h.write t))
  ∧ (∀ r finds port s t u, objF s 0 0xF01 31 31 ≠ 0 → objF s (0x7C + r.val) 0xF08 31 30 = 0 → wipeOn s r.val = false →
      t = finds.foldl (fun t x => scrubFind r.val (regOf s r.val).scrubLine x t) s →
      u = port.elim t (fun b => bankFailing r.val b.1.val b.2 t) → (regOf s r.val).scrubLine ≠ 2047 →
      exec (.scrubRead r finds port) s = .next
        (setReg r.val (fun g => { g with scrubLine := (regOf s r.val).scrubLine + 1 }) u))
  ∧ (∀ r finds port s t u, objF s 0 0xF01 31 31 ≠ 0 → objF s (0x7C + r.val) 0xF08 31 30 = 0 → wipeOn s r.val = false →
      t = finds.foldl (fun t x => scrubFind r.val (regOf s r.val).scrubLine x t) s →
      u = port.elim t (fun b => bankFailing r.val b.1.val b.2 t) → (regOf s r.val).scrubLine = 2047 →
      exec (.scrubRead r finds port) s = .next (bumpF (0x7C + r.val) 0xF09 11 0 1
        (setReg r.val (fun g => { g with scrubLine := 0, ceWords := [] }) u)))
  ∧ (∀ r bad s, exec (.bankSwitch r bad) s = .next (bankSwitch r.val bad s))
  ∧ (∀ r bad s u t, (regOf s r).sub = some u → wipeOn s r = false → u.answers = false →
      t = setReg r (fun g => { g with
          sub := none, fenced := g.fenced ||| BitVec.ofNat 17 (2 ^ u.idx.val), rebuild := some (u.idx, u.mirror) })
        (setF (0x7C + r) 0xF08 29 28 2 (setF (0x7C + r) 0xF08 27 24 u.idx.val
          (setF (0x7C + r) 0xF08 23 7 (objF s (0x7C + r) 0xF08 23 7 ||| 2 ^ u.idx.val) s))) →
      bankSwitch r bad s = wipesBegin (raise (71 + r) (0x7C + r) .faultBank
        (beBytes 1 (bankCode r u.idx.val) ++ beBytes 1 (bankCode r 16) ++ beBytes 1 1) t))
  ∧ (∀ half s t, vAt s.tr.mirCopy half.val = true → wipeOn s (mirLoc s half.val) = false →
      t = setF (0x7C + mirLoc s half.val) 0xF08 6 6 0 { s with tr := { s.tr with
        mirCur := vSet s.tr.mirCur half.val true, mirCopy := vSet s.tr.mirCopy half.val false } } →
      exec (.mirrorCopyDone half) s = .next (raise (71 + mirLoc s half.val) (0x7C + mirLoc s half.val) .ntMirrorRestored
        (beBytes 1 half.val ++ beBytes 1 (bankCode (mirLoc s half.val) 16)) t))
  ∧ (∀ r s i, (regOf s r.val).rebuild = some i → wipeOn s r.val = false →
      exec (.bankRebuildDone r) s = .next (rebuildBank r.val i.1.val i.2
        (setF (0x7C + r.val) 0xF08 6 6 0 (setReg r.val (fun g => { g with rebuild := none }) s))))
  ∧ (∀ s w t u v x, s.tr.wiping.find? (fun w => w.started) = some w →
      t = ({ s with tr := { s.tr with wiping := s.tr.wiping.erase w } } : State) →
      u = (if objF t 0 0xF00 31 30 = 1 ∧ t.tr.wiping.all (fun y => !y.started) = true then setF 0 0xF00 31 30 0 t else t) →
      v = (if w.hi = trSize then coresDue u else u) →
      x = (match w.ask with | some (op, r) => sendReply op.toNat r stDone [] v | none => v) →
      exec .trellisWipeComplete s = .next ((List.range 4).foldl (fun y r => serveHeld r y) x))

/-- 10 R290, R292, R293, R294, R296, R300: what producers and consumers do at the one queue design. -/
def Obligations.QueuePortCommands : Prop :=
  (∀ q bytes mark tag s c d, qCat q.toNat = some c → c.crossing = false → (getQ s q.toNat).discarding = false →
      (getQ s q.toNat).writing = some d → exec (.packetCommit q bytes mark tag) s = .next (putQ q.toNat
        { getQ s q.toNat with
          pp := (getQ s q.toNat).wp
          pkts := (getQ s q.toNat).pkts ++ [⟨(getQ s q.toNat).pp, BitVec.ofNat 6 (producerOf q.toNat), false, mark, tag,
            s.clk.tb.truncate 32, payloadOf d bytes⟩]
          writing := none } (unpoison (unitAddr q.toNat (getQ s q.toNat).pp) 8 s)))
  ∧ (∀ q bytes mark tag s c, qCat q.toNat = some c → c.crossing = false → (getQ s q.toNat).discarding = false →
      (getQ s q.toNat).writing = none → exec (.packetCommit q bytes mark tag) s = .next
        (qPush q.toNat (producerOf q.toNat) mark tag.toNat [] s).1)
  ∧ (∀ q bytes mark tag s c, qCat q.toNat = some c → c.crossing = false → (getQ s q.toNat).discarding = true →
      exec (.packetCommit q bytes mark tag) s = .next
        (setQ q.toNat { getQ s q.toNat with discarding := false, writing := none } s))
  ∧ (∀ q s c, qCat q.toNat = some c → c.crossing = false → (getQ s q.toNat).discarding = true →
      exec (.packetAbort q) s = .next (setQ q.toNat { getQ s q.toNat with discarding := false } s))
  ∧ (∀ q s c, qCat q.toNat = some c → c.crossing = false → (getQ s q.toNat).discarding = false →
      (getQ s q.toNat).writing.isSome = true → exec (.packetAbort q) s = .next (putQ q.toNat (qAbort (getQ s q.toNat)) s))
  ∧ (∀ q s c, qCat q.toNat = some c → c.crossing = false → (getQ s q.toNat).discarding = false →
      (getQ s q.toNat).writing = none → exec (.packetAbort q) s = .next s)
  ∧ (∀ q unit s c x, qCat q.toNat = some c → c.crossing = true → x = getQ s q.toNat → x.heldR291 = false →
      qUsed c.size x < c.size → exec (.queueUnitWrite q unit) s = .next (putQ q.toNat { x with
        wp := ptrAdd c.size x.wp 1, pp := ptrAdd c.size x.wp 1
        words := x.words ++ [BitVec.ofNat 256 (unit.toNat % 2 ^ qWidth q.toNat)] } s))
  ∧ (∀ q unit s c x, qCat q.toNat = some c → c.crossing = true → x = getQ s q.toNat → x.heldR291 = false →
      c.size ≤ qUsed c.size x → exec (.queueUnitWrite q unit) s = .next
        (if c.drop then dropOwner q.toNat (setQ q.toNat { x with drops := min (x.drops + 1) 0xFFFF } s) else s))
  ∧ (∀ q unit s c x, qCat q.toNat = some c → c.crossing = false → x = getQ s q.toNat → x.discarding = false →
      x.heldR291 = false → qUsed c.size x + (if x.writing.isNone then 2 else 1) ≤ c.size →
      exec (.queueUnitWrite q unit) s = .next (putQ q.toNat { x with
        wp := ptrAdd c.size x.wp (if x.writing.isNone then 2 else 1)
        writing := some (x.writing.getD [] ++ beBytes 8 (unit.toNat % 2 ^ 64)) }
          (unpoison (unitAddr q.toNat (ptrAdd c.size x.wp ((if x.writing.isNone then 2 else 1) - 1))) 8 s)))
  ∧ (∀ q unit s c x, qCat q.toNat = some c → c.crossing = false → x = getQ s q.toNat → x.discarding = false →
      x.heldR291 = false → c.size < qUsed c.size x + (if x.writing.isNone then 2 else 1) →
      exec (.queueUnitWrite q unit) s = .next
        (if c.drop then dropOwner q.toNat (qDiscards q.toNat (qDrop q.toNat s))
        else if x.rp = x.pp then qDiscards q.toNat (qOversize q.toNat (x.writing.getD []).length s) else s))
  ∧ (∀ q unit s, (getQ s q.toNat).heldR291 = true → exec (.queueUnitWrite q unit) s = .next s)
  ∧ (∀ q pos s c x w rest, qCat q.toNat = some c → c.crossing = true → x = getQ s q.toNat → x.words = w :: rest →
      exec (.queueConsumerRead q pos) s = .next (putQ q.toNat { x with
        words := rest, rp := ptrAdd (qSize q.toNat) x.rp 1, lastRead := w } s))
  ∧ (∀ q pos s c x, qCat q.toNat = some c → x = getQ s q.toNat → (if c.crossing then x.words = [] else x.pkts = []) →
      exec (.queueConsumerRead q pos) s = .next (putQ q.toNat { x with
        underrun := true, underruns := min (x.underruns + 1) 0xFFFF } s))
  ∧ (∀ q pos s c p, qCat q.toNat = some c → c.crossing = false → c.retain = true →
      (getQ s q.toNat).pkts.find? (fun p => decide (p.pos = pos)) = some p → pktPoisoned q.toNat p s = false →
      exec (.queueConsumerRead q pos) s = .next (putQ q.toNat { getQ s q.toNat with lastRead := lastUnit p } s))
  ∧ (∀ q pos s c x, qCat q.toNat = some c → c.crossing = false → c.retain = true → x = getQ s q.toNat → x.pkts ≠ [] →
      x.pkts.find? (fun p => decide (p.pos = pos)) = none → exec (.queueConsumerRead q pos) s = .next s)
  ∧ (∀ q pos s c x p rest, qCat q.toNat = some c → c.crossing = false → c.retain = false → x = getQ s q.toNat →
      x.pkts = p :: rest → pktPoisoned q.toNat p s = false → exec (.queueConsumerRead q pos) s = .next (putQ q.toNat { x with
        pkts := rest, rp := ptrAdd (qSize q.toNat) x.rp (pktUnits p.data.length), lastRead := lastUnit p } s))
  ∧ (∀ q pos s c p, qCat q.toNat = some c → c.crossing = false → (getQ s q.toNat).pkts ≠ [] →
      (if c.retain then (getQ s q.toNat).pkts.find? (fun p => decide (p.pos = pos)) else (getQ s q.toNat).pkts.head?) = some p →
      pktPoisoned q.toNat p s = true →
      exec (.queueConsumerRead q pos) s = .next (qFault q.toNat 2 3 0 0 (queueLoses q.toNat s)))
  ∧ (∀ q pos s c x r, qCat q.toNat = some c → c.retain = true → x = getQ s q.toNat →
      r = releaseRun (x.pkts.map (fun p => if p.pos = pos then { p with released := true } else p)) →
      exec (.packetRelease q pos) s = .next (putQ q.toNat { x with
        pkts := r.2, rp := ptrAdd (qSize q.toNat) x.rp r.1 } s))
  ∧ (∀ q side ptr a b s c, qCat q.toNat = some c → a ≠ b → exec (.queuePointerMismatch q side ptr a b) s = .next
      (qFault q.toNat (b2n side) ptr.val a.toNat b.toNat (queueLoses q.toNat s)))
  ∧ (∀ q side ptr a s, exec (.queuePointerMismatch q side ptr a a) s = .next s)

/-- 11 R307, R309, R311, R312, R319, R328: the engines, the job stream, the entropy sources. -/
def Obligations.ClocheEngineCommands : Prop :=
  (∀ e s r rest, clocheUp s = true → engFree s e.val = true → s.clo.redo = r :: rest →
      exec (.clocheJobAssign e) s = .next
        (engTake e.val { r with start := now s } (setClo (fun c => { c with redo := rest }) s)))
  ∧ (∀ e s r j t key nonce u, clocheUp s = true → engFree s e.val = true → s.clo.redo = [] → pickJob s = some j →
      j = .host r → t = setClo (fun c => { c with lastReq := jobWho j }) (takeJob j s) →
      sampleJob (specOf r.params) 1 t = (u, .inr (key, nonce)) →
      exec (.clocheJobAssign e) s = .next (engLoad e.val j key nonce [] u))
  ∧ (∀ e s id j t k u fc, clocheUp s = true → engFree s e.val = true → s.clo.redo = [] → pickJob s = some j →
      j = .link id → t = takeJob j s → (t.lk.tx.find? (fun f => f.id == id)).bind (txKey t) = some k →
      kClass t k = 1 ∨ kClass t k = 2 → reserveCtr k t = (u, some fc) →
      exec (.clocheJobAssign e) s = .next (engLoad e.val j (keyBytes t k) (linkNonce Config.eui.toNat fc) [] u))
  ∧ (∀ e s n a j t key nonce u, clocheUp s = true → engFree s e.val = true → s.clo.redo = [] → pickJob s = some j →
      j = .core n a → t = setClo (fun c => { c with lastReq := jobWho j }) (takeJob j s) → coreRefused t n a = none →
      sampleJob (specOf (memRead t a 48)) 2 t = (u, .inr (key, nonce)) → exec (.clocheJobAssign e) s = .next
        (engLoad e.val j key nonce (memRead u a 48) (memSetNat (a + 44) 2 0xFFFF (memSetNat (a + 40) 4 0 u))))
  ∧ (∀ e s r q o, clocheUp s = true → vAt s.clo.eng e.val = some r → r.job = .host q →
      o = hostOutcome (specOf q.params) q.params r.key r.nonce (bumpF (0x40 + e.val) 0x808 23 0 1 (engRest e.val s)) →
      exec (.clocheJobComplete e) s = .next
        (sendReply 0x801 q o.2.1 (if o.2.1 = stDone then o.2.2 else beBytes 4 noField) o.1))
  ∧ (∀ e s r id, clocheUp s = true → vAt s.clo.eng e.val = some r → r.job = .link id →
      exec (.clocheJobComplete e) s = .next
        (sealTx id r.key r.nonce (bumpF (0x40 + e.val) 0x808 23 0 1 (engRest e.val s))))
  ∧ (∀ e s r n a, clocheUp s = true → vAt s.clo.eng e.val = some r → r.job = .core n a →
      exec (.clocheJobComplete e) s = .next
        (coreOutcome n a r (bumpF (0x40 + e.val) 0x808 23 0 1 (engRest e.val s))))
  ∧ (∀ e kat s, engState s e.val ≠ 4 → funcDown s (0x40 + e.val) = false →
      exec (.engineFault e kat) s = .next (retireEngine e.val (if kat then 2 else 1) s))
  ∧ (∀ e s, engFree s e.val = true → exec (.engineIdleKat e false) s = .next (retireEngine e.val 2 s))
  ∧ (∀ e s, exec (.engineIdleKat e true) s = .next s)
  ∧ (∀ src bits test s t, healthTest bits = some test → trngSt s src.val ≠ 2 → funcDown s 0x50 = false →
      t = setClo (fun c => { c with trngAt := vSet c.trngAt src.val (some s.clk.tb) }) s →
      exec (.trngFail src bits) s = .next (raise 42 0x50 .trngFail
        (beBytes 1 src.val ++ beBytes 1 (if objF s 0x50 0x800 31 31 = 1 then test else 2))
        (setTrng src.val (if trngAgain s src.val then 2 else 1) t)))
  ∧ (∀ src raw s, trngSt s src.val ≠ 2 → drbgDead s = false → funcDown s 0x50 = false → raw.length = 96 →
      rawFresh src.val s = true → healthTest (bitsOfBytes raw) = none → exec (.drbgReseed src raw) s = .next
        (setTrng src.val 0 (setDrbg (drbgUpdate (drbgSeed raw) (drbgOf s)) 0 s)))
  ∧ (∀ src raw s test, trngSt s src.val ≠ 2 → drbgDead s = false → funcDown s 0x50 = false → raw.length = 96 →
      rawFresh src.val s = true → healthTest (bitsOfBytes raw) = some test →
      exec (.drbgReseed src raw) s = .next (trngFails src.val test s))
  ∧ (∀ n s t, t = setClo (fun c => { c with drbgReq := c.drbgReq + n }) s → exec (.drbgHalt n) s = .next
        (if 2 ^ 22 ≤ s.clo.drbgReq + n then drbgHalts t else t))
  ∧ (∀ src raw s t, objF s 0x50 0x800 31 31 ≠ 1 → funcDown s 0x50 = false → s.phase = .running → raw.length = 96 →
      trngSt s src.val ≠ 2 → rawFresh src.val s = true → healthTest (bitsOfBytes raw) = none →
      t = setTrng src.val 0 (setDrbg (drbgUpdate (drbgSeed raw) (0, 0)) 0 s) →
      exec (.clocheReady src raw) s = .next (clocheReady (if t.clo.drawMask then drawMask t else t)))
  ∧ (∀ s t, t = raise 42 0x50 .clocheReady [] (slotsUsed (setF 0x50 0x800 31 31 1 (setClo (fun c => { c with waiting := [] }) s))) →
      clocheReady s = s.clo.waiting.foldl (fun u e => serveWaiting e u) t)

/-- 12 R334, R340, R341, R346, R355: Virer frames, lane states and the alignment hunt. -/
def Obligations.BackhaulLaneCommands : Prop :=
  (∀ s r, s.phase = .running → tapHold s = false →
      r = (List.range 16).foldl (fun (a : State × List (Nat × Array Byte)) g =>
        ((graftShare g a.1).1, a.2 ++ [(g, (graftShare g a.1).2.toArray)])) (if s.bh.cycleDue then cycleEnds s else s, []) →
      exec .virerFrameTransmit s = .next (setBh (fun b => { b with
          mfi := (b.mfi + 1) % 4096, cycleDue := (b.mfi + 1) % 8 == 0 })
        (((List.range 16).filter (fun g => (membersOf r.1 g).any (fun m =>
            laneOn r.1 m.lane && m.ts / 6 == r.1.bh.mfi % 8 && m.ann.1 != 0))).foldl
          (fun t g => setGraft g (fun k => match k.fresh with
            | _ :: rest => { k with fresh := rest }
            | [] => { k with turn := (k.turn + 1) % 6 }) t)
          ((List.range 8).foldl (fun t l => if laneOn r.1 l then
              emit (.virerFrame l (polarity (objF r.1 (bhFunc l) 0x900 (24 + l % 4) (24 + l % 4) == 1) (laneFrame r.1 r.2 l).1))
                (qStream (0x58 + l / 4) (words64 (laneFrame r.1 r.2 l).1)
                (setLaneRec l (fun x => { x with txBip := (laneFrame r.1 r.2 l).2 }) t)).1
            else t) r.1))))
  ∧ (∀ lane pos bytes s w y, laneOn s lane.val = true → bytes.length = 31250 →
      w = polarity (objF s (bhFunc lane.val) 0x900 (20 + lane.val % 4) (20 + lane.val % 4) == 1) bytes →
      y = qStream (0x50 + lane.val) (words64 w) s → exec (.virerFrameReceive lane pos bytes) s = .next
        (if laneOn y.1 lane.val = false ∨ laneF y.1 lane.val 29 29 = 1 ∨ y.2.isEmpty = true then y.1
        else if laneF y.1 lane.val 31 30 = 2 ∧ pos % 250000 = (laneRec s lane.val).pos then alignedFrame lane.val w y.1
        else match (laneRec s lane.val).cands.find? (fun c => c.pos == pos % 250000) with
          | some c => candFrame lane.val c w y.1
          | none => y.1))
  ∧ (∀ lane s, laneOn s lane.val = true → exec (.laneLos lane) s = .next (laneLos lane.val s))
  ∧ (∀ lane s, laneOn s lane.val = true → exec (.laneLosClear lane) s = .next
      (checkMembers (setLaneF lane.val 31 29 0 (setLaneRec lane.val (fun x => { x with cands := [], errs := 0 }) s))))
  ∧ (∀ lane pos s x, x = laneRec s lane.val → laneOn s lane.val = true → laneF s lane.val 29 29 ≠ 1 →
      laneF s lane.val 31 30 ≠ 2 → x.cands.any (fun c => c.pos == pos % 250000) = false → x.cands.length < 8 →
      exec (.fawMatch lane pos) s = .next (setLaneF lane.val 31 30 1 (setLaneRec lane.val (fun x => { x with
        cands := (laneRec s lane.val).cands ++ [⟨pos % 250000, 0, none, 0⟩] }) s)))
  ∧ (∀ s t, t = (List.range 16).foldl (fun s g => txCycle g s) (graftsOff (adoptBound .cycle
        (setBh (fun b => { b with cycleDue := false }) s))) →
      cycleEnds s = skewStatus (laneMembers (passDown 64 4 (passDown 64 5 (checkMembers t)))))
  ∧ (∀ s, s.bh.cycleDue = true → exec .controlCycleEnd s = .next (cycleEnds s))

/-- 12 R351, R353, R358, R359: Graft frames, packets and performance bins. -/
def Obligations.BackhaulGraftCommands : Prop :=
  (∀ gid s m l due, frameReady s gid.val = some m → l = heldLanes s gid.val m → due = frameDue s gid.val m → due ≤ now s →
      exec (.graftFrameRelease gid) s = .next (setGraft gid.val (fun k => { k with
        held := k.held.filter (fun e => e.mfi != m), next := some ((m + 1) % 4096)
        stream := k.stream ++ frameBytes s gid.val m
        wait := if l.isEmpty then k.wait else due - l.foldl (fun a x => max a (x.2 + us 10)) 0
        offs := if l.isEmpty then k.offs else l.map (fun x => (x.1, due - x.2)) }) s))
  ∧ (∀ gid s, exec (.graftRealign gid) s = .next (realign gid.val s))
  ∧ (∀ gid s, exec (.graftPacketReceive gid) s = .next
      (delineate (2 * (graftOf s gid.val).stream.length + 2) gid.val s))
  ∧ (∀ s, s.phase = .running → exec .pmSecond s = .next
      (setBh (fun b => { b with secs15 := b.secs15 + 1, secs24 := b.secs24 + 1 })
        ((List.range 16).foldl (fun s g => graftPm g s) ((List.range 8).foldl (fun s l => lanePm l s) s))))
  ∧ (∀ day s, exec (.pmBinClose day) s = .next
      (closeBins day (binBoundary s (400000000 * if day then 86400 else 900)) s))

/-- 13 R364, R365, R366, R370, R372: the sequencer, its slices and what they measure. -/
def Obligations.MeasurementCommands : Prop :=
  (∀ s i, measUp s = true → measRun s = true →
      (List.range 9).all (fun k => (sliceOf s k).calib || sliceFailed s k) = false →
      s.meas.due.find? (fun i => sliceFree s (seqEnt s i)) = some i →
      exec .seqEntryIssue s = .next (seqStatus
        (issueEntry i (seqEnt s i) false (setMeas (fun m => { m with due := m.due.erase i }) s))))
  ∧ (∀ s, measUp s = true → measRun s = true →
      (List.range 9).all (fun k => (sliceOf s k).calib || sliceFailed s k) = false →
      s.meas.due.find? (fun i => sliceFree s (seqEnt s i)) = none → s.meas.run = none →
      exec .seqEntryIssue s = .next (seqStatus (issueLoop s)))
  ∧ (∀ sl s, (sliceOf s sl.val).ph = .settling → cleanNow s sl.val = true → exec (.sliceSettled sl) s = .next
      (if contWave s sl.val then setSlice sl.val (fun x => { x with ph := .run }) s
      else setSlice sl.val (fun x => { x with ph := .delay, start := cleanTb s sl.val }) s))
  ∧ (∀ sl s i w a, (sliceOf s sl.val).ph = .delay → (sliceOf s sl.val).entry = some (i, w) →
      a = (sliceOf s sl.val).start + 40000 * fget w 15 8 → a ≤ now s →
      exec (.entryDelayEnd sl) s = .next
        (setSlice sl.val (fun x => { x with ph := .run, hold := tracksOut s, start := a, till := a + entrySpan s w a }) s))
  ∧ (∀ sl s t, (sliceOf s sl.val).ph = .switching → (sliceOf s sl.val).start + 8192 ≤ now s →
      t = setSlice sl.val (fun x => { x with ph := .settling, resetTb := now s }) s →
      exec (.sliceSyncReset sl) s = .next
        (setSlice sl.val (fun x => { x with start := measFineTb t sl.val (sliceCfg t sl.val) 0 }) t))
  ∧ (∀ sl rx s x i w cfg fine l t, x = sliceOf s sl.val → x.entry = some (i, w) → x.ph = .run → eMode w = 3 →
      cfg = sliceCfg s sl.val → fine = measFine s sl.val cfg rx → l = waveReady s sl.val w fine →
      l ≠ [] ∨ x.cut = true → t = waveRecords sl.val i w x.cut l s →
      exec (.measIntervalEnd sl rx) s = .next (if eCont w ∧ x.cut = false then
          setSlice sl.val (fun x => { x with hold := tracksOut t, start := x.start + fineTicks cfg * l.length }) t
        else intervalNext sl.val w t))
  ∧ (∀ sl rx s x i w cfg fine, x = sliceOf s sl.val → x.entry = some (i, w) → x.ph = .run → eMode w ≠ 3 →
      cfg = sliceCfg s sl.val → fine = measFine s sl.val cfg rx → x.cut = true ∨ reaches x.till (fineTicks cfg) fine = true →
      exec (.measIntervalEnd sl rx) s = .next (intervalNext sl.val w (cycleRecord sl.val i w x.cut x.start
        (intervalOf x.start x.till (fineTicks cfg) fine (measCoarse s sl.val cfg rx)) s)))
  ∧ (∀ s, measUp s = true → s.clk.lockSeen = true → exec .phase4000Instant s = .next ((List.range 9).foldl (fun s k =>
      match (sliceOf s k).entry with
      | some (_, w) =>
        if !eCont w then s
        else if (sliceOf s k).ending then
          (if (sliceOf s k).ph = .run then setSlice k (fun x => { x with cut := true, stop := true, ending := false }) s
            else freeSlice k s)
        else if (getShadow s 0x60 (0xA08 + eCh w)).isSome
            || decide ((sliceOf s k).set ≠ some (eCh w, getObj s 0x60 (0xA08 + eCh w))) then changeNow k w s
        else s
      | none => s) s))
  ∧ (∀ s u t, s.meas.trigAt = some u → u.toNat ≤ now s → t = setMeas (fun m => { m with trigAt := none }) s →
      exec .triggerArmedInstant s = .next (if measUp t && trigEn t && measRun t then (trigger 1 t).1 else t))

/-- 13 R375, R377, R378, R381, 16 R451: load steps, slices at rest, failing and relieved, and the forwarding of results. -/
def Obligations.SliceAndForwardingCommands : Prop :=
  (∀ sl rx s x i w, x = sliceOf s sl.val → x.entry = some (i, w) → measUp s = true → eCont w = true →
      x.ph = .run ∨ x.ph = .delay ∨ x.ph = .settling → fget (sliceCfg s sl.val) 24 24 ≠ 0 →
      exec (.loadStepDetect sl rx) s = .next (match stepFound s sl.val (sliceCfg s sl.val) rx with
        | some d => stepDeclared sl.val i w (sliceCfg s sl.val) d s
        | none => s))
  ∧ (∀ s t, measUp s = true → objF s 0x60 0xA00 28 28 ≠ 0 → spareSlice s ≠ 15 → objF s 0x60 0xA01 18 18 ≠ 1 →
      objF s 0x60 0xA01 9 9 ≠ 1 → t = rotStatus (setMeas (fun m => { m with rot := oldestSlice s }) s) →
      exec .sliceRotation s = .next (match t.meas.rot with | some k => spareFollows k t | none => t))
  ∧ (∀ s k l, s.meas.rot = some k → logOf s k = some l → spareSlice s ≠ 15 → (sliceOf s k).cut = false →
      spareReady s k = true →
      exec .rotationExchange s = .next (rotStatus (setF 0x60 0xA01 31 28 15 (setMap l (spareSlice s)
        (setMeas (fun m => { m with rot := none, relieved := some k })
        (setSlice k (fun y => { y with
          entry := none, trig := false, ph := .idle, set := none, ending := false, cut := false, stop := false, calib := true })
        (setSlice (spareSlice s) (fun y => { sliceOf s k with
          calib := false, calTb := y.calTb, cal := y.cal, resetTb := y.resetTb }) s)))))))
  ∧ (∀ sl refs gainBad s t, (sliceOf s sl.val).calib = true → measUp s = true →
      (refs.map calOf).toList.any (fun e => decide (160000 < e.1 * e.2) || decide (e.1 * e.2 < -160000)) = true →
      t = setSlice sl.val (fun x => { x with calib := false, calTb := s.clk.tb, cal := refs.map calOf }) s →
      exec (.sliceCalibrationDone sl refs gainBad) s = .next (retireSlice sl.val 0 t))
  ∧ (∀ sl refs s t, (sliceOf s sl.val).calib = true → measUp s = true →
      (refs.map calOf).toList.any (fun e => decide (160000 < e.1 * e.2) || decide (e.1 * e.2 < -160000)) = false →
      t = setSlice sl.val (fun x => { x with calib := false, calTb := s.clk.tb, cal := refs.map calOf }) s →
      exec (.sliceCalibrationDone sl refs true) s = .next (retireSlice sl.val 1 t))
  ∧ (∀ sl refs s t, (sliceOf s sl.val).calib = true → measUp s = true →
      (refs.map calOf).toList.any (fun e => decide (160000 < e.1 * e.2) || decide (e.1 * e.2 < -160000)) = false →
      t = setSlice sl.val (fun x => { x with calib := false, calTb := s.clk.tb, cal := refs.map calOf }) s →
      exec (.sliceCalibrationDone sl refs false) s = .next (rotStatus (if t.meas.relieved = some sl.val then
        setF 0x60 0xA01 31 28 sl.val (setMeas (fun m => { m with relieved := none }) t) else t)))
  ∧ (∀ sl reason s, measUp s = true → exec (.sliceRetire sl reason) s = .next (retireSlice sl.val reason.val s))
  ∧ (∀ s r, (measFwd s).isEmpty = false → s.pw.mcDown = false → r = popResults 512 s →
      exec .measForward s = .next ((measFwd s).foldl (fun s n =>
        let s := setCore n (fun c => { c with
          meas := c.meas ++ r.2, measTb := if c.meas.isEmpty then r.1.clk.tb else c.measTb }) s
        let s := (List.range ((coreOf s n).meas.length / 16)).foldl (fun s _ => sendMeas n s) s
        if (coreOf s n).meas ≠ [] ∧ (coreOf s n).measTb.toNat + 400000 ≤ now s then sendMeas n s else s) r.1))

/-- 15 R420, R421, R422, R424, R425, R426, R427, R430: the console line. -/
def Obligations.ConsoleAndCaseriCommands : Prop :=
  (∀ r (c : ConChar) s x u v w t, conUp s = true → conStuckNow s = false → conChar s.con.cfgRx r = some c → x = c.data →
      u = setF 0x68 0xB01 31 31 0 (setCon (fun k => { k with afterIdle := objF s 0x68 0xB01 31 31 == 1 }) s) →
      v = (if c.noise then bumpF 0x68 0xB02 15 8 1 u else u) → w = (if c.parityErr then bumpF 0x68 0xB02 7 4 1 v else v) →
      t = (if c.framingErr then bumpF 0x68 0xB02 23 16 1 w else w) →
      exec (.conCharReceive r) s = .next (
        if (objF t 0x68 0xB00 23 23 == 1) && x == 0x13 then
          setF 0x68 0xB01 30 30 1 t
        else if (objF t 0x68 0xB00 23 23 == 1) && x == 0x11 then conResume t
        else conStore (BitVec.ofNat 9 (x.toNat + 256 * b2n (c.noise || c.parityErr || c.framingErr))) t))
  ∧ (∀ r s t, conUp s = true → conStuckNow s = false → conIsBreak s.con.cfgRx r = true →
      t = setF 0x68 0xB01 31 31 0 (bumpF 0x68 0xB02 3 0 1 s) →
      exec (.conBreak r) s = .next (if t.con.frame.isSome then t else lineDrop t))
  ∧ (∀ s, conUp s = true → conStuckNow s = false → exec .conIdle s = .next (setF 0x68 0xB01 31 31 1 s))
  ∧ (∀ s, conUp s = true → conStuckNow s = false → objF s 0x68 0xB01 31 31 ≠ 0 → s.con.block ≠ [] →
      exec .conRxTimeout s = .next (conDrain (handBlock s)))
  ∧ (∀ s, conUp s = true → objF s 0x68 0xB01 30 30 ≠ 0 → exec .xoffTimeout s = .next (conResume s))
  ∧ (∀ s, conUp s = true → conStuckNow s = false → exec .conStuck s = .next (raise 65 0x68 .lineStuck [0, 0]
      (frameShut (lineDrop (setF 0x68 0xB01 31 31 0 (setF 0x68 0xB01 28 28 1 s))))))
  ∧ (∀ s, conUp s = true → conStuckNow s = true →
      exec .conStuckClear s = .next (raise 65 0x68 .lineStuck [0, 1] (setF 0x68 0xB01 28 28 0 s)))
  ∧ (∀ tx s v t, conUp s = true → s.con.cfgWait = false → v = nextObj s 0x68 0xB00 →
      t = setCon (fun c => if tx then { c with cfgTx := v } else { c with cfgRx := v }) s →
      exec (.conCfgSwitch tx) s = .next (if t.con.cfgTx = v ∧ t.con.cfgRx = v then adopt 0x68 0xB00 t else t))
  ∧ (∀ s l bad rest t, conUp s = true → accepting s = true → s.con.wait = [] → s.con.lines = (l, true, bad) :: rest →
      t = setCon (fun c => { c with lines := rest }) s →
      exec .caseriLine s = .next (conDrain (conPrompt (conSend (ascii "ERR LONG" ++ crlf) t))))
  ∧ (∀ s l rest t, conUp s = true → accepting s = true → s.con.wait = [] → s.con.lines = (l, false, true) :: rest →
      t = setCon (fun c => { c with lines := rest }) s →
      exec .caseriLine s = .next (conDrain (conPrompt (conSend (ascii "ERR CHAR" ++ crlf) t))))
  ∧ (∀ s l rest t, conUp s = true → accepting s = true → s.con.wait = [] → s.con.lines = (l, false, false) :: rest →
      t = setCon (fun c => { c with lines := rest }) s → exec .caseriLine s = .next (conDrain (caseriText l t)))
  ∧ (∀ s f rest t, conUp s = true → accepting s = true → s.con.wait = [] → s.con.frames = f :: rest →
      t = setCon (fun c => { c with frames := rest }) s → byteAt f 0 = 0x6B →
      exec .caseriFrame s = .next (conDrain (receiveCmd .console f t)))
  ∧ (∀ s f rest t, conUp s = true → accepting s = true → s.con.wait = [] → s.con.frames = f :: rest →
      t = setCon (fun c => { c with frames := rest }) s → byteAt f 0 ≠ 0x6B →
      exec .caseriFrame s = .next (conDrain t))
  ∧ (∀ s, conUp s = true → exec .caseriFrameGap s = .next (conDrain
      (if (handBlock s).con.frame.isSome then frameShut (handBlock s) else handBlock s)))

/-- 15 R431, R432, R433, R439: messages on the chain, sent, lost, received. -/
def Obligations.ChainMessageCommands : Prop :=
  (∀ chars bytes eni s t x, t = setChain (fun c => { c with justSent := false, eni := eni }) (chainSettle s) →
      chainUp (chainSettle s) = true → x = qStream 0x70 (chainWords (chars.map chainByte)) t →
      bytes = x.2.map (BitVec.ofNat 8) → chars.any chainFraming = false → beAt bytes 2 2 ≤ 2068 → bytes.length = 6 + beAt bytes 2 2 →
      beAt bytes (4 + beAt bytes 2 2) 2 = crc16 (bytes.take (4 + beAt bytes 2 2)) →
      exec (.chainMessageReceive chars eni) s = .next (dispatchMsg bytes x.1))
  ∧ (∀ chars eni s t, t = setChain (fun c => { c with justSent := false, eni := eni }) (chainSettle s) →
      chainUp (chainSettle s) = true → chars.any chainFraming = true →
      exec (.chainMessageReceive chars eni) s = .next
        (bumpF 0x69 0xB0A 23 16 1 (qStream 0x70 (chainWords (chars.map chainByte)) t).1))
  ∧ (∀ eni s t m rest, t = setChain (fun c => { c with eni := eni }) (chainSettle s) → mayBegin t = true →
      t.chain.justSent = false →
      takeMsg t.chain.packetsOff t.chain.txq = some (m, rest) → exec (.chainTxStart eni) s = .next
        (setChain (fun c => { c with sending := some (withSrc t m), txq := rest })
          (qStream 0x71 (chainWords (withSrc t m)) t).1))
  ∧ (∀ eni s t, t = setChain (fun c => { c with eni := eni }) (chainSettle s) → mayBegin t = true →
      t.chain.justSent = true →
      exec (.chainTxStart eni) s = .next (setChain (fun c => { c with justSent := false }) t))
  ∧ (∀ s, s.chain.sending.isSome = true → exec .chainArbitrationLost s = .next (bumpF 0x69 0xB0A 31 24 1 (chainRetract s)))
  ∧ (∀ s, chainUp s = true → exec .chainMessageAbort s = .next (bumpF 0x69 0xB0A 15 8 1 (chainRetract s)))
  ∧ (∀ s t, t = chainSettle s → chainUp t = true → chainStuckNow t = false →
      exec .chainStuck s = .next (raise 66 0x69 .lineStuck [1, 0] (setF 0x69 0xB09 23 23 1 t)))
  ∧ (∀ s, chainUp s = true → chainStuckNow s = true →
      exec .chainStuckClear s = .next (raise 66 0x69 .lineStuck [1, 1] (setF 0x69 0xB09 23 23 0 s)))

/-- 15 R436, R438, 17 R469: addressing, waking. -/
def Obligations.ChainAddressingCommands : Prop :=
  (∀ s, chainUp (chainSettle s) = true → exec .assignStart s = .next (assignStarts (chainSettle s)))
  ∧ (∀ n eni s, chainUp (chainSettle s) = true → exec (.assignOffer n eni) s = .next
      (assignOffered n (setChain (fun c => { c with eni := eni }) (chainSettle s))))
  ∧ (∀ n eui s, chainUp (chainSettle s) = true → exec (.assignAck n eui) s = .next (assignAcked n eui (chainSettle s)))
  ∧ (∀ s t r, t = chainSettle s → t.chain.run = some r → r.ended = false → r.tries = 1 →
      exec .assignOfferTimeout s = .next (setChain (fun c => { c with run := some { r with tries := 2 } })
        (chainSend 1 63 (assignBody 1 r.n []) t)))
  ∧ (∀ s t r, t = chainSettle s → t.chain.run = some r → r.ended = false → 2 ≤ r.tries →
      exec .assignOfferTimeout s = .next (assignEnds r t))
  ∧ (∀ s, chainUp (chainSettle s) = true → exec .assignEnd s = .next (assignOver (chainSettle s)))
  ∧ (∀ s, chainUp s = true → exec .assignResumeTimeout s = .next
      (setF 0x69 0xB09 22 22 0 (setChain (fun c => { c with packetsOff := false }) s)))
  ∧ (∀ s, chainUp (chainSettle s) = true → exec .wakeNotice s = .next (wakeNoticed (chainSettle s)))
  ∧ (∀ a b s, s.phase = .asleep → s.aon.addr ≠ 0 → s.aon.addr ≠ 63 → a.toNat = 0xC0 + s.aon.addr.toNat → b = ~~~a →
      exec (.wakeCharacters a b) s = .next (beginReset 7 .resetRun s))

/-- 14 R389, R390, R391, R393, R395: forwarding between devices, and what the host links carry. -/
def Obligations.ForwardingAndHostLinkCommands : Prop :=
  (∀ idx s t f, t = chainSettle s → t.cmd.fwd[idx.val]? = some f → f.sent.isSome = true →
      exec (.forwardTimeout idx) s = .next (deliver f.req.src f.req.tag.toNat f.req.func.toNat stTimeout.toNat
        (beBytes 4 noField) (cmdPacket (f.op.toNat ||| 0x8000) f.req.tag.toNat (f.req.dest.toNat % 64) f.req.func.toNat
          stTimeout.toNat (lastEsn t) (beBytes 4 noField)) { t with cmd := { t.cmd with fwd := t.cmd.fwd.eraseIdx idx.val } }))
  ∧ (∀ op r s pkt q, pkt = cmdPacket op.toNat r.tag.toNat r.dest.toNat r.func.toNat 0 0 r.params →
      q = ({ r with crc := BitVec.ofNat 32 (beAt pkt (pkt.length - 4) 4) } : Req) →
      destRule s.aon.addr.toNat r.dest.toNat (viaChain r) = .forward →
      exec (.commandForward op r) s = .next (forwardReq op.toNat q pkt s))
  ∧ (∀ packet s, chainUp (chainSettle s) = true →
      exec (.forwardedReply packet) s = .next (replyRelayed packet (chainSettle s)))
  ∧ (∀ link f s, hlRuns s link.val = true → f.fcsOk = false ∨ f.len < 64 ∨ 9216 < f.len →
      exec (.hostFrameReceive link f) s = .next (bumpF (0x5C + link.val) 0x31 31 20 1 s))
  ∧ (∀ link f s y, hlRuns s link.val = true → f.fcsOk = true → 64 ≤ f.len → f.len ≤ 9216 → frameForUs s link.val f = true →
      y = qStream (0x5A + link.val) (words64 f.payload) s → y.2.isEmpty = false → byteAt f.payload 0 = 0x6B →
      exec (.hostFrameReceive link f) s = .next (hostRequest link f y.1))
  ∧ (∀ link f s y x, hlRuns s link.val = true → f.fcsOk = true → 64 ≤ f.len → f.len ≤ 9216 → frameForUs s link.val f = true →
      y = qStream (0x5A + link.val) (words64 f.payload) s → y.2.isEmpty = false → byteAt f.payload 0 = 0x6C →
      dataPacketOk f.payload = true → x = qPush link.val (0x1B + link.val) false 0 f.payload y.1 →
      exec (.hostFrameReceive link f) s = .next
        (if x.2 = .stored then x.1 else bumpF (0x5C + link.val) 0x31 19 8 1 x.1))
  ∧ (∀ link quanta s, hlRuns s link.val = true → quanta = 0 →
      exec (.pauseReceive link quanta) s = .next (pauseEnds link.val s))
  ∧ (∀ link quanta s t, hlRuns s link.val = true → quanta ≠ 0 → t = setF (0x5C + link.val) 0x30 28 28 1 s →
      exec (.pauseReceive link quanta) s = .next { t with hl := { t.hl with
        pauseEnd := vSet t.hl.pauseEnd link.val (some (t.clk.tb + BitVec.ofNat 64 (pauseTicks quanta.toNat))) } })
  ∧ (∀ link s u, vAt s.hl.pauseEnd link.val = some u → u.toNat ≤ now s →
      exec (.pauseExpire link) s = .next (pauseEnds link.val s))
  ∧ (∀ link lock hiBer errs s t u v w, hlRuns s link.val = true →
      t = setF (0x5C + link.val) 0x30 31 31 (b2n lock) (setF (0x5C + link.val) 0x30 30 30 (b2n hiBer) s) →
      u = (if hlLock s link.val && !lock then bumpF (0x5C + link.val) 0x31 3 0 1 t else t) →
      v = (if objF u (0x5C + link.val) 0x32 16 16 = 1 then bumpF (0x5C + link.val) 0x30 27 16 errs.toNat u else u) →
      w = eventLinkMoved (eventLink s) (if hlUp v link.val && !hlUp s link.val then
          { v with hl := { v.hl with upSince := vSet v.hl.upSince link.val (some v.clk.tb) } }
        else if !hlUp v link.val then { v with hl := { v.hl with upSince := vSet v.hl.upSince link.val none } } else v) →
      exec (.hostLinkState link lock hiBer errs) s = .next (if (eventLink s).isSome ∧ eventLink w = none then
        raise (53 + link.val) (0x5C + link.val) .faultUnabsorbed (beBytes 1 (0x5C + link.val)) w else w))
  ∧ (∀ link s u, vAt s.hl.upSince link.val = some u → u.toNat + 400000000 ≤ now s → hlUp s link.val = true →
      exec (.hostLinkUp link) s = .next (raise (53 + link.val) (0x5C + link.val) .hostLinkUp (beBytes 1 link.val)
        { s with hl := { s.hl with upSince := vSet s.hl.upSince link.val none } }))

/-- 14 R411, R412: data packets from and to the host. -/
def Obligations.DataPacketCommands : Prop :=
  (∀ link mac vlan packet s p u t r, qPop link.val s = some (p, u) → p.data = packet → t = hostRequests link u →
      beAt packet 2 2 = 2 → dataPacketOk packet = true → byteAt packet 0 = 0x6C →
      destRule t.aon.addr.toNat (byteAt packet 6) false = .here →
      r = downlinkData (beAt packet 12 4 % 2 ^ 18) (slice packet 16 (beAt packet 8 2)) t → r.2 = none →
      exec (.dataPacketDownlink link mac vlan packet) s = .next r.1)
  ∧ (∀ link mac vlan packet s p u t k, qPop link.val s = some (p, u) → p.data = packet → t = hostRequests link u →
      beAt packet 2 2 = 2 → dataPacketOk packet = true → byteAt packet 0 = 0x6C →
      destRule t.aon.addr.toNat (byteAt packet 6) false ≠ .here → replyLink t link.val = some k →
      exec (.dataPacketDownlink link mac vlan packet) s = .next (hostSend k mac vlan (dataRefusal packet stBadDest) t))
  ∧ (∀ s n g nb body rest t, s.lk.uplink = (n, g, nb, body) :: rest → t = setLk (fun l => { l with uplink := rest }) s →
      eventLink t = none →
      exec .uplinkDataSend s = .next (bumpF (0x5C + objF t 0 0xE20 30 30) 0x31 19 8 1 t))
  ∧ (∀ s n g nb body rest t l, s.lk.uplink = (n, g, nb, body) :: rest → t = setLk (fun l => { l with uplink := rest }) s →
      eventLink t = some l → body.length ≤ 9000 →
      exec .uplinkDataSend s = .next (hostSend l (eventDst t).1 (eventDst t).2
        (dataPacket 1 0 (ownDest t) (g + 8 * b2n nb) 0 (t.aon.addr.toNat * 4096 + n.toNat) body) t))
  ∧ (∀ s n g nb body rest t l, s.lk.uplink = (n, g, nb, body) :: rest → t = setLk (fun l => { l with uplink := rest }) s →
      eventLink t = some l → 9000 < body.length →
      exec .uplinkDataSend s = .next (bumpF (0x5C + l) 0x31 19 8 1 (raise 75 0 .hostDataOversize
        (beBytes 2 n.toNat ++ beBytes 2 (min 0xFFFF body.length)) t)))

/-- 16 R440, R443, R444, R446, R452, R453: starting, checking and stopping the application cores. -/
def Obligations.CoreControlCommands : Prop :=
  (∀ ofs sfdp image s n rest, loading s = n :: rest → bootOfs s n = ofs.toNat →
      exec (.flashBoot ofs true sfdp image) s = .next ((n :: rest.filter (fun m => bootOfs s m == ofs.toNat)).foldl
        (fun s m => setCoreState m 2 (trWrite (winBase s m) (image.take (winSize s m)) s)) s))
  ∧ (∀ ofs sfdp image s n rest, loading s = n :: rest → bootOfs s n = ofs.toNat →
      exec (.flashBoot ofs false sfdp image) s = .next ((n :: rest.filter (fun m => bootOfs s m == ofs.toNat)).foldl
        (fun s m => startAnswer m stNotInState
          (startFault m 5 (setCoreState m 0 (setCore m (fun c => { c with starting := none }) s)))) s))
  ∧ (∀ n s t, (coreOf s n.val).due = true → mayStart s n.val = true →
      t = setCore n.val (fun c => { c with due := false }) s → bootSrc t n.val = 1 →
      exec (.coreStart n) s = .next (setCoreState n.val 1 (setCore n.val (fun c => { c with starting := some true }) t)))
  ∧ (∀ n s t, (coreOf s n.val).due = true → mayStart s n.val = true →
      t = setCore n.val (fun c => { c with due := false }) s → bootSrc t n.val = 2 →
      exec (.coreStart n) s = .next (raise (67 + n.val) (acf n.val) .appReloadRequest (beBytes 1 (2 ^ n.val))
        (setCoreState n.val 0 t)))
  ∧ (∀ n s t, (coreOf s n.val).due = true → mayStart s n.val = true →
      t = setCore n.val (fun c => { c with due := false }) s → bootSrc t n.val ≠ 1 → bootSrc t n.val ≠ 2 →
      exec (.coreStart n) s = .next (setCoreState n.val 0 t))
  ∧ (∀ n s r, coreState s n.val = 2 → funcDown s (acf n.val) = false → r = checkImage n.val s → r.2 = true →
      exec (.imageCheckVerdict n) s = .next (startAnswer n.val stDone (releaseCore n.val r.1)))
  ∧ (∀ n s r, coreState s n.val = 2 → funcDown s (acf n.val) = false → r = checkImage n.val s → r.2 = false →
      exec (.imageCheckVerdict n) s = .next (startAnswer n.val stAuthFail (startFault n.val 4
        (setCoreState n.val 4 (setCore n.val (fun c => { c with starting := none }) r.1)))))
  ∧ (∀ n mepc mtval s t, coreRuns s n.val = true → objF s (acf n.val) 0xC02 31 24 ≠ 0 →
      (coreOf s n.val).wdog.toNat + 400000 * objF s (acf n.val) 0xC02 31 24 ≤ now s →
      t = haltCore n.val (appFault n.val 2 mepc mtval s) →
      exec (.coreWatchdogExpire n mepc mtval) s = .next (if objF t (acf n.val) 0xC02 23 23 = 1 then
        bumpF (acf n.val) 0xC03 23 16 1 (setCore n.val (fun c => { c with due := true }) t) else t))
  ∧ (∀ n poisoned mepc mtval s, coreRuns s n.val = true →
      exec (.coreAccessFault n poisoned mepc mtval) s = .next (appFault n.val (if poisoned then 1 else 3) mepc mtval
        (setCore n.val (fun c => { c with mepc := mepc, mtval := mtval }) s)))
  ∧ (∀ n s, coreRuns s n.val = true → (coreOf s n.val).mtimecmp.toNat ≤ now s →
      exec (.coreTimerInterrupt n) s = .next (setCore n.val (fun c => { c with mtip := true }) s))
  ∧ (∀ n s d, findDeferred 0xC03 (acf n.val) s = some d →
      exec (.appStopDone n) s = .next (finish d stDone [] (stopCore n.val (d.aux.headD 0 == 1) s)))

/-- 16 R440, R447, R448, R450, R452: the registers through which a core reaches its queues, Cloche, the other cores and
its watchdog. -/
def Obligations.CoreRegisterWriteCommands : Prop :=
  (∀ n v s t, coreRuns s n.val = true →
      t = (if v.getLsbD 3 then setCore n.val (fun c => { c with cjDone := false }) s else s) →
      exec (.intClrWrite n v) s = .next
        (if v.getLsbD 1 then setQ (0x10 + n.val) { getQ t (0x10 + n.val) with up := false } t else t))
  ∧ (∀ n s p t, coreRuns s n.val = true → qPop (0x10 + n.val) s = some (p, t) → exec (.inPopWrite n) s = .next t)
  ∧ (∀ n v s, coreRuns s n.val = true → exec (.outReqWrite n v) s = .next
      (setCore n.val (fun c => { c with out := some (v.truncate 8, fget v 31 16) }) (outAbort n.val s)))
  ∧ (∀ n payload s tag bytes t p u, (coreOf s n.val).out = some (tag, bytes) → coreRuns s n.val = true →
      outReady s n.val = true →
      t = (qPush (0x14 + n.val) (0x1D + n.val) false tag.toNat (slice payload 0 bytes)
        (setCore n.val (fun c => { c with out := none }) s)).1 →
      qPop (0x14 + n.val) t = some (p, u) →
      exec (.outCommitWrite n payload) s = .next (takeOutbound n p.tag p.data u))
  ∧ (∀ n s, coreRuns s n.val = true → exec (.outAbortWrite n) s = .next (outAbort n.val s))
  ∧ (∀ n addr s a, coreRuns s n.val = true → 0x40000000 ≤ addr.toNat → addr.toNat % 8 = 0 →
      a = partBase s 7 + (addr.toNat - 0x40000000) → inWindow s n.val a 48 = true → (coreOf s n.val).cj.length < 16 →
      exec (.cjSubmitWrite n addr) s = .next (setClo (fun c => { c with jobs := c.jobs ++ [.core n.val a] })
        (setCore n.val (fun c => { c with cj := c.cj ++ [a] }) s)))
  ∧ (∀ n addr s a, coreRuns s n.val = true → 0x40000000 ≤ addr.toNat → addr.toNat % 8 = 0 →
      a = partBase s 7 + (addr.toNat - 0x40000000) → inWindow s n.val a 48 = true → 16 ≤ (coreOf s n.val).cj.length →
      exec (.cjSubmitWrite n addr) s = .next (setCore n.val (fun c => { c with cjDone := true })
        (memSetNat (a + 44) 2 stNoResource.toNat s)))
  ∧ (∀ n v s, coreRuns s n.val = true → exec (.mboxWrite n v) s = .next ((List.range 4).foldl
      (fun s m => if v.getLsbD m then setCore m (fun c => { c with msip := true }) s else s) s))
  ∧ (∀ n s, coreRuns s n.val = true →
      exec (.mboxClrWrite n) s = .next (setCore n.val (fun c => { c with msip := false }) s))
  ∧ (∀ n s, coreRuns s n.val = true →
      exec (.wdogKickWrite n) s = .next (setCore n.val (fun c => { c with wdog := s.clk.tb }) s))

/-- 17 R477, 18 R481, R484, 19 R496, R498, R499: the life-cycle commit, the meter, the locate and test lights, the test
access port. -/
def Obligations.ServiceAndTestPortCommands : Prop :=
  (∀ f s new t u, s.pw.lcNext = some new → s.phase = .running →
      t = ({ s with
        cmd := { s.cmd with deferred := [] }
        fuse := { s.fuse with
          records := s.fuse.records ++ [new], svcGens := if new.val = 2 then [] else s.fuse.svcGens } } : State) →
      u = (if new.val = 3 ∨ new.val = 4 then wipeKeys (revokeKek t) else t) →
      exec (.lifeCycleCommit f) s = .next (wholeReset f (beginReset 5 .resetRun
        (setPw (fun p => { p with lcDone := some (Fin.ofNat 5 (lifeCycle s), new) }) u))))
  ∧ (∀ reading s m, accepting s = true → meterLevel s (meterSel s) reading = some m →
      exec (.meterRefresh reading) s = .next (setSvc (fun c => { c with meter := m }) s))
  ∧ (∀ s e, s.svc.locate = some e → s.phase = .running → e.toNat ≤ now s →
      exec .locateEnd s = .next (setSvc (fun c => { c with locate := none }) s))
  ∧ (∀ s, s.phase = .running → s.svc.ledTest = true → exec .ledTestEnd s = .next (setSvc (fun c => { c with
      ledTest := false
      locate := match c.locate with | some e => if now s < e.toNat then some e else none | none => none }) s))
  ∧ (∀ s, exec .tapReset s = .next (tapSelects (setSvc (fun c => { c with tapIr := 2 }) s)))
  ∧ (∀ op s t, t = tapSelects (setSvc (fun c => { c with tapIr := op }) s) → tapHold t = true →
      exec (.tapInstructionUpdate op) s = .next (driversOff t))
  ∧ (∀ op s t, t = tapSelects (setSvc (fun c => { c with tapIr := op }) s) → tapHold t = false →
      exec (.tapInstructionUpdate op) s = .next t)
  ∧ (∀ addr s a m, tapPrivate 0x20 s = true → a = 8 * (addr.toNat / 8) → heldAt s a 8 = none → m = mcRead a 8 s →
      exec (.peekUpdate addr) s = .next (tapSelects { m.2.2 with svc := { m.2.2.svc with
        peek := BitVec.ofNat 72 (beNat m.2.1 * 256 + m.1) } }))
  ∧ (∀ addr s a l, tapPrivate 0x20 s = true → a = 8 * (addr.toNat / 8) → heldAt s a 8 = some l →
      exec (.peekUpdate addr) s = .next (tapSelects (holdAccess (mcAccess .tap a 8) l s)))
  ∧ (∀ v s, tapPrivate 0x21 s = true → exec (.meterSelUpdate v) s = .next (meterSelect v.toNat s))

/-- 02 R42, 14 R403, R409, R517: what reads the device and its objects. -/
def Obligations.IdentityAndObjectReads : Prop :=
  (∀ r s t, Serves 0x001 s → t = takeMgmt 0x001 r s → r.func = 0 → r.params.length ≤ 2040 →
      exec (.ping r) s = .next (sendReply 0x001 r stDone (beBytes 8 t.clk.tb.toNat ++ r.params) t))
  ∧ (∀ r s t, Serves 0x002 s → t = takeMgmt 0x002 r s → r.func = 0 → r.params = [] →
      exec (.identify r) s = .next (sendReply 0x002 r stDone (identityBlock t) t))
  ∧ (∀ r s t a, Serves 0x101 s → t = takeMgmt 0x101 r s → funcDefined r.func.toNat = true → listLen r 4 255 = none →
      badRead r.func.toNat (chunks 4 r.params) = none → a = sampleAll r.func.toNat (chunks 4 r.params) t →
      exec (.paramRead r) s = .next (sendReply 0x101 r stDone a.2 a.1)
      ∧ exec (.rcObjectRead r) s = .next (sendReply 0x101 r stDone a.2 a.1)
      ∧ exec (.tbLoRead r) s = .next (sendReply 0x101 r stDone a.2 a.1))
  ∧ (∀ r s t d, Serves 0x101 s → t = takeMgmt 0x101 r s → funcDefined r.func.toNat = true → listLen r 4 255 = none →
      badRead r.func.toNat (chunks 4 r.params) = some d →
      exec (.paramRead r) s = .next (sendReply 0x101 r stBadObject (beBytes 4 d) t))

/-- 02 R519, 07 R192, R199, 12 R351, 13 R368, R370, 14 R405, R406, R416, 15 R426, 18 R481: what writes objects, under the
names the table gives to some of them. -/
def Obligations.ObjectWrites : Prop :=
  (∀ r s t u, Serves 0x102 s → t = takeMgmt 0x102 r s → funcDefined r.func.toNat = true → listLen r 8 256 = none →
      writeEntries r 8 0 (chunks 8 r.params) t = .ok u →
      exec (.paramWrite r) s = .next (sendReply 0x102 r stDone [] u))
  ∧ (∀ r s t d st, Serves 0x102 s → t = takeMgmt 0x102 r s → funcDefined r.func.toNat = true → listLen r 8 256 = none →
      writeEntries r 8 0 (chunks 8 r.params) t = .error (d, st) →
      exec (.paramWrite r) s = .next (sendReply 0x102 r st (beBytes 4 d) t))
  ∧ (∀ r s t u, Serves 0x103 s → t = takeMgmt 0x103 r s → funcDefined r.func.toNat = true → listLen r 12 170 = none →
      writeEntries r 12 0 (chunks 12 r.params) t = .ok u →
      exec (.paramModify r) s = .next (sendReply 0x103 r stDone [] u))
  ∧ (∀ r s t u, Serves 0x102 s → isModify r s = false → t = takeMgmt 0x102 r s → funcDefined r.func.toNat = true →
      listLen r 8 256 = none → writeEntries r 8 0 (chunks 8 r.params) t = .ok u →
      ∀ c ∈ [Instr.mainsCtrlWrite r, .nbChWrite r, .nbSyncWrite r, .measChWrite r, .measSeqWrite r, .graftCfgWrite r,
        .conCfgWrite r, .evtCfgWrite r, .meterCtrlWrite r], exec c s = .next (sendReply 0x102 r stDone [] u))
  ∧ (∀ r s t u, Serves 0x103 s → isModify r s = true → t = takeMgmt 0x103 r s → funcDefined r.func.toNat = true →
      listLen r 12 170 = none → writeEntries r 12 0 (chunks 12 r.params) t = .ok u →
      ∀ c ∈ [Instr.mainsCtrlWrite r, .nbChWrite r, .nbSyncWrite r, .measChWrite r, .measSeqWrite r, .graftCfgWrite r,
        .conCfgWrite r, .evtCfgWrite r, .meterCtrlWrite r], exec c s = .next (sendReply 0x103 r stDone [] u))
  ∧ (∀ func id v setNow s old, old = ((s.w1c.find? (fun e => e.1 == okey func.toNat id.toNat)).map (·.2)).getD 0 →
      exec (.w1cObjectWrite func id v setNow) s = .next { s with
        w1c := (okey func.toNat id.toNat, (old &&& ~~~v) ||| setNow)
          :: s.w1c.filter (fun e => e.1 != okey func.toNat id.toNat) })

/-- 17 R459, R460, R463, R468: the requests that reset, power and put to sleep. -/
def Obligations.ResetAndPowerRequests : Prop :=
  (∀ r s t, Serves 0x201 s → t = takeMgmt 0x201 r s → r.func = 0 → r.params = [] →
      exec (.devReset r) s = .next (sendReply 0x201 r stAccepted [] (setPw (fun p => { p with resetSoon := true }) t)))
  ∧ (∀ r s t, Serves 0x202 s → t = takeMgmt 0x202 r s → funcDefined r.func.toNat = true → r.func.toNat ≠ 0 →
      r.params.length = 4 → resetRefused r.func.toNat t = none → deferRule r t = none →
      exec (.funcReset r) s = .next (if throughSelf r then
        sendReply 0x202 r stDone [] (startFuncReset r.func.toNat (nbit (beAt r.params 0 4) 31) t)
        else deferStart 0x202 r [] (startFuncReset r.func.toNat (nbit (beAt r.params 0 4) 31) t)))
  ∧ (∀ r s t, Serves 0x203 s → t = takeMgmt 0x203 r s → funcDefined r.func.toNat = true → r.func.toNat ≠ 0 → r.params = [] →
      funcHeld t r.func.toNat = true → deferRule r t = none →
      exec (.funcRelease r) s = .next (deferStart 0x203 r [] (setPw (fun p => { p with
        held := p.held.filter (fun g => g.toNat != r.func.toNat)
        resetting := p.resetting ++ [⟨r.func, false, false, true, t.clk.tb⟩] }) t)))
  ∧ (∀ r s t d, Serves 0x210 s → t = takeMgmt 0x210 r s → r.func = 0 → r.params.length = 4 → d = byteAt r.params 0 →
      d ≤ 29 → byteAt r.params 1 = 0 → pdSetOk t d false = true → domOf t d ≠ .off →
      exec (.pdSet r) s = .next (sendReply 0x210 r stDone []
        ((domFuncs d).foldl (fun s f => if funcHeld s f then s else enterReset f s) (setDom d .off t))))
  ∧ (∀ r s t d, Serves 0x210 s → t = takeMgmt 0x210 r s → r.func = 0 → r.params.length = 4 → d = byteAt r.params 0 →
      d ≤ 29 → byteAt r.params 1 = 1 → pdSetOk t d true = true → domOf t d ≠ .on →
      exec (.pdSet r) s = .next (sendReply 0x210 r stDone []
        ((domFuncs d).foldl (fun s f => if funcDown s f then s else leaveReset f s) (setDom d .on t))))
  ∧ (∀ r s t, Serves 0x220 s → t = takeMgmt 0x220 r s → r.func = 0 → r.params = [] → objF t 0x69 0xB09 22 22 ≠ 1 →
      exec (.sleep r) s = .next (sendReply 0x220 r stDone [] (setPw (fun p => { p with sleepSoon := true }) t)))

/-- 17 R475: the five life-cycle requests; the state they name is entered when LIFE_CYCLE_COMMIT burns its record. -/
def Obligations.LifeCycleRequests : Prop :=
  (∀ r low s u t, u = (if tapHold s then s else setPw (fun p => { p with svcLow := low }) s) → Serves 0x301 u →
      t = takeMgmt 0x301 r u → r.func = 0 → r.params.length = 4 → beAt r.params 0 4 = Config.eui.toNat % 2 ^ 32 →
      t.pw.lcNext = none → (viaHost r || viaConsole r) = true → lifeCycle t = 0 → kekOk t t.fuse.kekGen = true →
      t.fuse.records.length < 31 →
      exec (.lcProvision r low) s = .next (sendReply 0x301 r stDone [] (setPw (fun p => { p with lcNext := some 1 }) t)))
  ∧ (∀ r low s u t, u = (if tapHold s then s else setPw (fun p => { p with svcLow := low }) s) → Serves 0x302 u →
      t = takeMgmt 0x302 r u → r.func = 0 → r.params.length = 4 → beAt r.params 0 4 = Config.eui.toNat % 2 ^ 32 →
      t.pw.lcNext = none → viaHost r = true → lifeCycle t = 1 → (netSlot t).isSome = true →
      t.fuse.records.length < 31 →
      exec (.lcCommit r low) s = .next (sendReply 0x302 r stDone [] (setPw (fun p => { p with lcNext := some 2 }) t)))
  ∧ (∀ r low s u t, u = (if tapHold s then s else setPw (fun p => { p with svcLow := low }) s) → Serves 0x303 u →
      t = takeMgmt 0x303 r u → r.func = 0 → r.params.length = 4 → beAt r.params 0 4 = Config.eui.toNat % 2 ^ 32 →
      t.pw.lcNext = none → viaConsole r = true → lifeCycle t = 1 ∨ lifeCycle t = 2 → t.pw.svcLow = true →
      t.fuse.records.length < 31 →
      exec (.lcService r low) s = .next (sendReply 0x303 r stDone [] (setPw (fun p => { p with lcNext := some 3 }) t)))
  ∧ (∀ r low s u t, u = (if tapHold s then s else setPw (fun p => { p with svcLow := low }) s) → Serves 0x304 u →
      t = takeMgmt 0x304 r u → r.func = 0 → r.params.length = 4 → beAt r.params 0 4 = Config.eui.toNat % 2 ^ 32 →
      t.pw.lcNext = none → viaHost r = true → lifeCycle t = 3 → t.pw.svcLow = false → t.fuse.svcGens ≠ [] →
      t.fuse.records.length < 31 →
      exec (.lcReturn r low) s = .next (sendReply 0x304 r stDone [] (setPw (fun p => { p with lcNext := some 2 }) t)))
  ∧ (∀ r low s u t, u = (if tapHold s then s else setPw (fun p => { p with svcLow := low }) s) → Serves 0x305 u →
      t = takeMgmt 0x305 r u → r.func = 0 → r.params.length = 4 → beAt r.params 0 4 = Config.eui.toNat % 2 ^ 32 →
      t.pw.lcNext = none → viaHost r = true ∨ (viaConsole r = true ∧ t.pw.svcLow = true) →
      exec (.lcRetire r low) s = .next (sendReply 0x305 r stDone [] (setPw (fun p => { p with lcNext := some 4 }) t)))

/-- 03 R77, R83, R85, R86: the requests on a line port. -/
def Obligations.PortRequests : Prop :=
  (∀ r s t, Serves 0x401 s → t = takeMgmt 0x401 r s → portFunc r = true → r.params = [] → funcDown s r.func.toNat = false →
      testRefused t (reqPort r) = false → deferRule r t = none →
      exec (.portSound r) s = .next (deferStart 0x401 r [] (setPort (reqPort r) (fun k => { k with testWaiting := true }) t)))
  ∧ (∀ r s t b, Serves 0x402 s → t = takeMgmt 0x402 r s → portFunc r = true → r.params = [] →
      funcDown s r.func.toNat = false → (portOf t (reqPort r)).sound = some b →
      exec (.portSoundRead r) s = .next (sendReply 0x402 r stDone b t))
  ∧ (∀ r s t, Serves 0x403 s → t = takeMgmt 0x403 r s → portFunc r = true → r.params.length = 4 →
      funcDown s r.func.toNat = false → portState t (reqPort r) = 2 →
      nbit (beAt r.params 0 4) 0 = true ∨ dependsOn t (reqPort r) = false →
      exec (.portRemove r) s = .next (sendReply 0x403 r stAccepted [] (losePort (reqPort r) 0xB 4 t)))
  ∧ (∀ r s t u, Serves 0x404 s → t = takeMgmt 0x404 r s → portFunc r = true → r.params = [] →
      funcDown s r.func.toNat = false →
      portState t (reqPort r) = 3 ∨ portState t (reqPort r) = 4 ∨ portState t (reqPort r) = 5 →
      (portOf t (reqPort r)).passTb = some u → now t ≤ u.toNat + 24000000000 → needsReset t (reqPort r) = false →
      exec (.portAdmit r) s = .next (sendReply 0x404 r stAccepted []
        (setPort (reqPort r) (fun k => { k with move := some .admitReq }) t)))

/-- 04 R107, R114, R115, R117: masks and shaping coefficients. -/
def Obligations.MaskAndShapeRequests : Prop :=
  (∀ r s t, Serves 0x501 s → t = takeMgmt 0x501 r s → r.func = 0 → r.params.length = 216 →
      exec (.bbMaskWrite r) s = .next (sendReply 0x501 r stAccepted [] { t with bb := { t.bb with maskNext := some r.params } }))
  ∧ (∀ r s t, Serves 0x502 s → t = takeMgmt 0x502 r s → r.func = 0 → r.params = [] →
      exec (.bbMaskRead r) s = .next (sendReply 0x502 r stDone (maskBytes t) t))
  ∧ (∀ r s t p h, Serves 0x510 s → t = takeMgmt 0x510 r s → portFunc r = true → r.params.length = 132 → p = reqPort r →
      funcDown s r.func.toNat = false → h = (List.range 64).map (fun i => BitVec.ofNat 16 (beAt r.params (4 + 2 * i) 2)) →
      byteAt r.params 0 = 0 → shapeRefusal t p 0 = none →
      exec (.shapeWrite r) s = .next (sendReply 0x510 r stDone []
        (setF (pf p) 0x503 19 17 7 (setPort p (fun k => { k with coefA := h }) t))))
  ∧ (∀ r s t p h, Serves 0x510 s → t = takeMgmt 0x510 r s → portFunc r = true → r.params.length = 132 → p = reqPort r →
      funcDown s r.func.toNat = false → h = (List.range 64).map (fun i => BitVec.ofNat 16 (beAt r.params (4 + 2 * i) 2)) →
      byteAt r.params 0 = 1 → shapeRefusal t p 1 = none →
      exec (.shapeWrite r) s = .next (sendReply 0x510 r stDone []
        (setF (pf p) 0x503 16 14 7 (setPort p (fun k => { k with coefB := h }) t))))
  ∧ (∀ r s t b, Serves 0x511 s → t = takeMgmt 0x511 r s → portFunc r = true → r.params.length = 4 →
      funcDown s r.func.toNat = false → b = byteAt r.params 0 → b ≤ 1 → byteAt r.params 1 ≤ 3 →
      shapeRefusal t (reqPort r) b = none →
      exec (.shapePreset r) s = .next (sendReply 0x511 r stDone []
        (loadPreset (reqPort r) (b == 1) (byteAt r.params 1) t)))
  ∧ (∀ r s t p, Serves 0x512 s → t = takeMgmt 0x512 r s → portFunc r = true → r.params = [] → p = reqPort r →
      funcDown s r.func.toNat = false → objF t (pf p) 0x503 13 13 ≠ 1 → (portOf t p).fadeAt = none →
      (portOf t p).fadeWait = false →
      exec (.shapeSwap r) s = .next (sendReply 0x512 r (if driverOn t p then stAccepted else stDone) []
        (swapTo p (1 - objF t (pf p) 0x503 31 31) t)))
  ∧ (∀ r s t p u q, Serves 0x512 s → t = takeMgmt 0x512 r s → portFunc r = true → r.params = [] → p = reqPort r →
      funcDown s r.func.toNat = false → objF t (pf p) 0x503 13 13 ≠ 1 → (portOf t p).fadeAt = some u →
      q = min (portOf t p).fadeLen (now t - u) →
      exec (.shapeSwap r) s = .next (sendReply 0x512 r stAccepted [] (bumpF (pf p) 0x503 12 5 1 (setF (pf p) 0x503 31 31
        (1 - objF t (pf p) 0x503 31 31)
        (setPort p (fun k => { k with fadeAt := some (now t - ((portOf t p).fadeLen - q)) }) t)))))
  ∧ (∀ r s t p, Serves 0x512 s → t = takeMgmt 0x512 r s → portFunc r = true → r.params = [] → p = reqPort r →
      funcDown s r.func.toNat = false → objF t (pf p) 0x503 13 13 ≠ 1 → (portOf t p).fadeAt = none →
      (portOf t p).fadeWait = true →
      exec (.shapeSwap r) s = .next (sendReply 0x512 r stAccepted []
        (setF (pf p) 0x503 31 31 (1 - objF t (pf p) 0x503 31 31) (setPort p (fun k => { k with fadeWait := false }) t))))
  ∧ (∀ r s t b id h, Serves 0x513 s → t = takeMgmt 0x513 r s → portFunc r = true → r.params.length = 4 →
      funcDown s r.func.toNat = false → b = byteAt r.params 0 → b ≤ 1 →
      id = (if b = 1 then objF t (pf (reqPort r)) 0x503 16 14 else objF t (pf (reqPort r)) 0x503 19 17) →
      h = (if b = 1 then (portOf t (reqPort r)).coefB else (portOf t (reqPort r)).coefA) →
      exec (.shapeRead r) s = .next (sendReply 0x513 r stDone (beBytes 1 b ++ [0, 0, 0] ++ (List.range 64).flatMap (fun i =>
        beBytes 2 (toBits 16 (if id = 7 then (h.getD (if i < 64 then i else 127 - i) 0).toInt
          else (Config.presetCoef id (if i < 64 then i else 127 - i)).toInt)))) t))

/-- 04 R113, 05 R145, R150, R151: what reads the broadband receivers and starts their tests and captures. -/
def Obligations.BroadbandRequests : Prop :=
  (∀ r s t v, Serves 0x530 s → t = takeMgmt 0x530 r s → portFunc r = true → r.params.length = 4 →
      funcDown s r.func.toNat = false → v = beAt r.params 0 4 → 1 ≤ nfield v 31 26 → nfield v 31 26 ≤ 60 →
      1 ≤ nfield v 25 22 → nfield v 25 22 ≤ 12 → nfield v 21 20 ≠ 3 → testRefused t (reqPort r) = false →
      deferRule r t = none →
      exec (.bbTxTest r) s = .next (deferStart 0x530 r [v] (setPort (reqPort r) (fun k => { k with testWaiting := true }) t)))
  ∧ (∀ r s t b, Serves 0x520 s → t = takeMgmt 0x520 r s → r.func = 0 → r.params.length = 4 → byteAt r.params 0 ≤ 5 →
      (rxOf t (byteAt r.params 0)).report = some b → exec (.bbRxLast r) s = .next (sendReply 0x520 r stDone b t))
  ∧ (∀ r s t, Serves 0x521 s → t = takeMgmt 0x521 r s → r.func = 0 → r.params.length = 4 → 1 ≤ reqNode r → reqNode r ≤ 4094 →
      nState t (reqNode r) ≠ 0 → exec (.bbSnrArm r) s = .next (sendReply 0x521 r stAccepted []
        (setBb (fun b => { b with snrArm := some (BitVec.ofNat 12 (reqNode r)) }) t)))
  ∧ (∀ r s t v n idx t0 views, Serves 0x522 s → t = takeMgmt 0x522 r s → r.func = 0 → r.params.length = 4 →
      v = byteAt r.params 0 → v ≤ 6 → t.bb.snrCap = some (n, idx, t0, views) →
      exec (.bbSnrRead r) s = .next (sendReply 0x522 r stDone (beBytes 2 n.toNat ++ beBytes 1 v ++ beBytes 1 idx
        ++ beBytes 8 t0 ++ beBytes 4 0 ++ slice (views.getD v []) 0 1728) t))
  ∧ (∀ r s t, Serves 0x523 s → t = takeMgmt 0x523 r s → portFunc r = true → r.params = [] → funcDown s r.func.toNat = false →
      exec (.bbNoiseRead r) s = .next (sendReply 0x523 r stDone ((List.range 64).flatMap (fun b =>
        (List.range 24).map (fun g =>
          if noiseMap t (reqPort r) b g < 0 then (0 : Byte) else BitVec.ofNat 8 (halfDbfs 523 (noiseMap t (reqPort r) b g)))
        ++ [BitVec.ofNat 8 (roundAny 5231 (255 * smGet (fun _ => 0) t.bb.imp (64 * reqPort r + b))).toNat]
        ++ List.replicate 7 0)) t))

/-- 06 R176, 07 R197, R214, R224, 14 R398: the decoder and the narrowband receivers. -/
def Obligations.DecoderAndNarrowbandRequests : Prop :=
  (∀ r s t b, Serves 0x540 s → t = takeMgmt 0x540 r s → r.func = 0 → r.params.length = 4 → byteAt r.params 0 ≤ 5 →
      vAt t.dec.report (byteAt r.params 0) = some b → exec (.decLast r) s = .next (sendReply 0x540 r stDone b t))
  ∧ (∀ r s t, Serves 0x541 s → t = takeMgmt 0x541 r s → 0x20 ≤ r.func.toNat → r.func.toNat ≤ 0x33 → r.params = [] →
      funcHeld s r.func.toNat = false → s.pw.resetting.any (fun x => decide (x.func = r.func)) = false →
      (funcDomains r.func.toNat).any (fun d => decide (domOf t d ≠ .on)) = false →
      clOf t (r.func.toNat - 0x20) ≠ .active → deferRule r t = none →
      exec (.codecTest r) s = .next (deferStart 0x541 r [] t))
  ∧ (∀ r s t b, Serves 0x601 s → t = takeMgmt 0x601 r s → r.func = 0 → r.params.length = 4 → byteAt r.params 0 ≤ 5 →
      byteAt r.params 1 ≤ 7 → (nbOf t (nbI (byteAt r.params 0) (byteAt r.params 1))).report = some b →
      exec (.nbRxLast r) s = .next (sendReply 0x601 r stDone b t))
  ∧ (∀ r s t, Serves 0x602 s → t = takeMgmt 0x602 r s → portFunc r = true → r.params = [] → funcDown s r.func.toNat = false →
      exec (.nbLevel r) s = .next (sendReply 0x602 r stDone ((List.range 8).flatMap (fun k =>
        beBytes 1 ((vAt t.nb.floor (8 * reqPort r + k)).elim 0 halfDb) ++ beBytes 1 ((vAt t.nb.level (8 * reqPort r + k)).elim 0 halfDb)
          ++ beBytes 1 (vAt t.nb.sq (8 * reqPort r + k)) ++ [0])) t))
  ∧ (∀ r s t v, Serves 0x603 s → t = takeMgmt 0x603 r s → portFunc r = true → r.params.length = 4 →
      funcDown s r.func.toNat = false → v = beAt r.params 0 4 → 1 ≤ nfield v 31 26 → nfield v 31 26 ≤ 60 →
      testRefused t (reqPort r) = false →
      nbEnabled (nbOf t (nbI (groupOf t (reqPort r)) (nfield v 25 23))).cfg = true → deferRule r t = none →
      exec (.nbTxTest r) s = .next (deferStart 0x603 r [v] (setPort (reqPort r) (fun k => { k with testWaiting := true }) t)))

/-- 04 R106, 08 R234, R251, R252, R255, R256, R267, 14 R413: the requests on nodes, routes, schedules and destinations. -/
def Obligations.NodeRequests : Prop :=
  (∀ r s t, Serves 0x710 s → t = takeMgmt 0x710 r s → r.func = 0 → r.params.length = 4 → reqNode r ≤ 4094 →
      hasEntry t (reqNode r) = true → exec (.nodeRead r) s = .next (sendReply 0x710 r stDone (nodeEntry t (reqNode r)) t))
  ∧ (∀ r s t n, Serves 0x711 s → t = takeMgmt 0x711 r s → r.func = 0 → r.params.length = 8 →
      nodeOfEui t (beAt r.params 0 8) = some n →
      exec (.nodeFind r) s = .next (sendReply 0x711 r stDone (beBytes 4 (n * 2 ^ 20)) t))
  ∧ (∀ r s t n, Serves 0x712 s → t = takeMgmt 0x712 r s → r.func = 0 → r.params.length = 4 → n = reqNode r → n ≤ 4094 →
      n ≠ 0 → nState t n ≠ 0 → exec (.nodeEvict r) s = .next (sendReply 0x712 r stAccepted []
        (nodeFrame n 6 (beBytes 1 (if nbit (beAt r.params 0 4) 19 then 2 else 1)) (setLeaving n 1 t))))
  ∧ (∀ r s t n v c, Serves 0x713 s → t = takeMgmt 0x713 r s → r.func = 0 → r.params.length = 4 → n = reqNode r → n ≤ 4094 →
      v = beAt r.params 0 4 → mapSlot t n (nfield v 19 19) (nfield v 18 16) = some c →
      exec (.tonemapRead r) s = .next (sendReply 0x713 r stDone (memRead t (cacheBase c) 1024) t))
  ∧ (∀ r s t n, Serves 0x714 s → t = takeMgmt 0x714 r s → r.func = 0 → r.params.length = 4 → n = reqNode r → n ≤ 4094 →
      hasEntry t n = true → exec (.routeRead r) s = .next (sendReply 0x714 r stDone
        (beBytes 1 (if n = 0 then 0 else nHops t n) ++ [0] ++ slice (((nodePath t n).take 7).flatMap (beBytes 2)) 0 14) t))
  ∧ (∀ r s t b, Serves 0x715 s → t = takeMgmt 0x715 r s → r.func = 0 → r.params.length = 4 → byteAt r.params 0 ≤ 5 →
      (grpL t (byteAt r.params 0)).beacon = some b → exec (.schedRead r) s = .next (sendReply 0x715 r stDone b t))
  ∧ (∀ r s t n, Serves 0x716 s → t = takeMgmt 0x716 r s → r.func = 0 → r.params.length = 4 → n = reqNode r → n ≤ 4094 →
      n ≠ 0 → nState t n ≠ 0 → exec (.nodeRefresh r) s = .next (sendReply 0x716 r stAccepted [] (refreshNode n t)))
  ∧ (∀ r s t n v, Serves 0x720 s → t = takeMgmt 0x720 r s → r.func = 0 → r.params.length = 4 → n = reqNode r → n ≤ 4094 →
      v = beAt r.params 0 4 → nbit v 11 = true → n ≠ 0 → nState t n ≠ 0 →
      exec (.destSet r) s = .next (sendReply 0x720 r stDone []
        (setLk (fun l => { l with dest := l.dest.filter (fun e => e.1 != n) }) t)))
  ∧ (∀ r s t n v kind idx, Serves 0x720 s → t = takeMgmt 0x720 r s → r.func = 0 → r.params.length = 4 → n = reqNode r →
      n ≤ 4094 → v = beAt r.params 0 4 → kind = nfield v 19 18 → idx = nfield v 15 12 →
      nbit v 11 = false ∨ n = 0 → nbit v 11 = true ∨ kind ≠ 2 ∨ idx ≤ 3 → n = 0 ∨ nState t n ≠ 0 →
      kind ≠ 1 ∨ objF t 0 (0x910 + idx) 31 31 ≠ 0 →
      exec (.destSet r) s = .next (sendReply 0x720 r stDone []
        (setLk (fun l => { l with dest := l.dest.filter (fun e => e.1 != n) ++ [(n, (kind, idx))] }) t)))
  ∧ (∀ r s t n d, Serves 0x721 s → t = takeMgmt 0x721 r s → r.func = 0 → r.params.length = 4 → n = reqNode r → n ≤ 4094 →
      d = destOf t n → exec (.destRead r) s = .next (sendReply 0x721 r stDone
        (beBytes 4 (n * 2 ^ 20 + d.1 * 2 ^ 18 + d.2.1 * 2 ^ 12 + b2n d.2.2 * 2 ^ 11)) t))

/-- 11 R307, R310, R313, R316, R318, R325, R330, R331, R332: the requests on Cloche and its keys. -/
def Obligations.ClocheRequests : Prop :=
  (∀ r s t j, Serves 0x801 s → t = takeMgmt 0x801 r s → r.func = 0 → 40 ≤ r.params.length → funcDown s 0x50 = false →
      j = specOf r.params → j.opOk = true → j.lensOk = true →
      r.params.length = 40 + j.adLen + j.dataLen + (if j.seals then 0 else j.tagLen) →
      (if clocheUp t ∧ t.clo.jobs.isEmpty ∧ t.clo.redo.isEmpty then freeEngine t else none) = none →
      exec (.crypt r) s = .next (setClo (fun c => { c with jobs := c.jobs ++ [.host r] }) t))
  ∧ (∀ r s t j e u key nonce o, Serves 0x801 s → t = takeMgmt 0x801 r s → r.func = 0 → 40 ≤ r.params.length →
      funcDown s 0x50 = false → j = specOf r.params → j.opOk = true → j.lensOk = true →
      r.params.length = 40 + j.adLen + j.dataLen + (if j.seals then 0 else j.tagLen) →
      (if clocheUp t ∧ t.clo.jobs.isEmpty ∧ t.clo.redo.isEmpty then freeEngine t else none) = some e →
      sampleJob j 1 t = (u, .inr (key, nonce)) →
      o = hostOutcome j r.params key nonce (bumpF (0x40 + e) 0x808 23 0 1
        (splitKey key (setClo (fun c => { c with lastReq := 0 }) u)).2) →
      exec (.crypt r) s = .next (sendReply 0x801 r o.2.1 (if o.2.1 = stDone then o.2.2 else beBytes 4 noField) o.1))
  ∧ (∀ r s t n, Serves 0x802 s → t = takeMgmt 0x802 r s → r.func = 0 → r.params.length = 4 →
      n = nfield (beAt r.params 0 4) 31 21 → 1 ≤ n → funcDown s 0x50 = false →
      objF t 0x50 0x800 31 31 ≠ 0 → drbgDead t = false →
      exec (.rngRead r) s = .next (sendReply 0x802 r stDone (drawBytes n t).1 (drawBytes n t).2))
  ∧ (∀ r s t, Serves 0x802 s → t = takeMgmt 0x802 r s → r.func = 0 → r.params.length = 4 →
      1 ≤ nfield (beAt r.params 0 4) 31 21 → funcDown s 0x50 = false → objF t 0x50 0x800 31 31 = 0 →
      exec (.rngRead r) s = .next (setClo (fun c => { c with waiting := c.waiting ++ [(0x802, r)] }) t))
  ∧ (∀ r s t g, Serves 0x803 s → t = takeMgmt 0x803 r s → r.func = 0 → r.params.length = 32 → funcDown s 0x50 = false →
      lifeCycle t = 0 ∨ lifeCycle t = 3 → g = t.fuse.kekGen + 1 → g ≤ 15 →
      exec (.kekLoad r) s = .next (sendReply 0x803 r stDone (beBytes 1 g ++ [0, 0, 0]) (kekStatus { t with fuse := { t.fuse with
        kekGen := g, kek := t.fuse.kek ++ [(g, r.params)]
        svcGens := t.fuse.svcGens ++ (if lifeCycle t = 3 then [g] else []) } })))
  ∧ (∀ r s t n u d, Serves 0x810 s → t = takeMgmt 0x810 r s → r.func = 0x50 → r.params.length = 60 →
      funcDown s 0x50 = false → objF t 0x50 0x800 31 31 ≠ 0 → n = reqSlot r → keyLife t = true →
      kekOk t t.fuse.kekGen = true → kClass t n ≠ 4 →
      u = kwUnwrap (kekKey t t.fuse.kekGen) (slice r.params 4 56) → u.2 = true → d = u.1 → byteAt d 11 ≤ 1 →
      keyFits t n (beAt d 0 8) (byteAt d 8) (byteAt d 9) (byteAt d 11 == 1) = true →
      exec (.keyUnwrap r) s = .next (sendReply 0x810 r stDone [] (resetUse n (storeKey n (beAt d 0 8) (byteAt d 8) (byteAt d 9)
        (byteAt d 10) (slice d 12 4) (slice d 16 32) (byteAt d 11 == 1) 0 (freshCtr (byteAt d 8) (byteAt d 9)) t))))
  ∧ (∀ r s t n u d, Serves 0x811 s → t = takeMgmt 0x811 r s → r.func = 0x50 → r.params.length = 4 →
      funcDown s 0x50 = false → objF t 0x50 0x800 31 31 ≠ 0 → n = reqSlot r → keyLife t = true →
      kekOk t t.fuse.kekGen = true → kClass t n ≠ 4 →
      kClass t n ≠ 0 → u = resetUse n (setKFlag n 2 false t) →
      d = slice (keySlot u n) 16 12 ++ slice (keySlot u n) 28 4 ++ keyCtr u n ++ List.replicate 6 0 ++ slice (keyBytes u n) 0 32 →
      exec (.keySave r) s = .next (sendReply 0x811 r stDone (beBytes 1 t.fuse.kekGen ++ [1] ++ beBytes 2 n ++ [0, 0, 0, 0]
        ++ kwWrap (kekKey u t.fuse.kekGen) d) u))
  ∧ (∀ r s t g n u d c, Serves 0x812 s → t = takeMgmt 0x812 r s → r.func = 0x50 → r.params.length = 80 →
      funcDown s 0x50 = false → objF t 0x50 0x800 31 31 ≠ 0 → g = byteAt r.params 0 →
      n = beAt r.params 2 2 % 4096 → keyLife t = true → kekOk t g = true → u = kwUnwrap (kekKey t g) (slice r.params 8 72) → u.2 = true →
      d = u.1 → c = restoredCtr (byteAt d 8) (byteAt d 9) (slice d 16 10) →
      keyFits t n (beAt d 0 8) (byteAt d 8) (byteAt d 9) (nbit (byteAt d 11) 4) = true →
      exec (.keyRestore r) s = .next (sendReply 0x812 r stDone [] (storeKey n (beAt d 0 8) (byteAt d 8) (byteAt d 9)
        (byteAt d 10) (slice d 12 4) (slice d 32 32) (nbit (byteAt d 11) 4)
        (if c.2 then byteAt d 11 ||| 2 else byteAt d 11) c.1 t)))
  ∧ (∀ r s t n u, Serves 0x813 s → t = takeMgmt 0x813 r s → r.func = 0x50 → r.params.length = 4 →
      funcDown s 0x50 = false → n = reqSlot r → keyLife t = true → kClass t n ≠ 4 →
      u = setKeyCtr n ctr0 (setKeySlot n slot0 t) →
      exec (.keyErase r) s = .next (sendReply 0x813 r stDone [] (slotsUsed (resetUse n
        (if nbit (kFlags t n) 4 then setKeyCtr (n + 1) ctr0 (setKeySlot (n + 1) slot0 u) else u)))))
  ∧ (∀ r s t n, Serves 0x814 s → t = takeMgmt 0x814 r s → r.func = 0x50 → r.params.length = 4 →
      funcDown s 0x50 = false → n = reqSlot r → kClass t n ≠ 4 →
      exec (.keyInfo r) s = .next (sendReply 0x814 r stDone (slice (keySlot t n) 16 16 ++ slice (keyCtr t n) 0 8) t))
  ∧ (∀ r s t e, Serves 0x820 s → t = takeMgmt 0x820 r s → engFunc r = true → r.params = [] → funcDown s r.func.toNat = false →
      e = r.func.toNat - 0x40 → deferRule r t = none →
      exec (.ceTest r) s = .next (deferStart 0x820 r [engState t e]
        (if (vAt t.clo.eng e).isNone then setF (0x40 + e) 0x808 31 28 3 t else t)))

/-- 12 R339, R348, R350, R355, R358, R359, 14 R398: the requests on Grafts, lanes and performance bins. -/
def Obligations.BackhaulRequests : Prop :=
  (∀ r s t g l ts n ms top, Serves 0x901 s → t = takeMgmt 0x901 r s → r.func = 0 → r.params.length = 4 →
      graftArgs r = (g, l, ts, n) → graftRange r = true → graftEn t g = true → laneOn t l = true →
      t.bh.members.any (fun m => m.lane == l && decide (ts ≤ m.ts ∧ m.ts < ts + n)) = false → graftPending t g = false →
      ms = membersOf t g → ms.length + n ≤ 48 → skewSum t g (maxSkew t g) (skewMembers t g + n) ≤ skewLimit t →
      top = ms.foldl (fun a m => if m.ann.1 = 1 ∨ isPay m.ann then max a (m.ann.2 + 1) else a) 0 →
      exec (.graftAdd r) s = .next (sendReply 0x901 r stAccepted [] (graftStatus g (skewStatus (laneMembers
        (setBh (fun b => { b with members := b.members ++ (List.range n).map (fun i =>
          ({ gid := g, lane := l, ts := ts + i, ann := (1, top + i), prev := (0, 0), eff := (0, 0), farOk := false, okRun := 0
             auto := false, leave := false, rx := (0, 0), words := [], gce := 0, delay := 0
             skew := false, bad := true } : BhMember)) }) t))))))
  ∧ (∀ r s t g l ts n, Serves 0x902 s → t = takeMgmt 0x902 r s → r.func = 0 → r.params.length = 4 →
      graftArgs r = (g, l, ts, n) → graftRange r = true → graftEn t g = true → graftPending t g = false →
      (List.range n).all (fun i => t.bh.members.any (fun m => (m.gid == g && m.lane == l && decide (ts ≤ m.ts ∧ m.ts < ts + n))
        && m.ts == ts + i && m.ann.1 != 0)) = true →
      exec (.graftRemove r) s = .next (sendReply 0x902 r stAccepted [] (graftStatus g (setMembers (fun m =>
        if m.gid == g && m.lane == l && decide (ts ≤ m.ts ∧ m.ts < ts + n) then { m with leave := true } else m) t))))
  ∧ (∀ r s t ms, Serves 0x903 s → t = takeMgmt 0x903 r s → r.func = 0 → r.params.length = 4 →
      ms = membersOf t (nfield (beAt r.params 0 4) 31 28) →
      exec (.graftRead r) s = .next (sendReply 0x903 r stDone (beBytes 1 ms.length ++ [0, 0, 0] ++ ms.flatMap (fun m =>
        beBytes 1 m.ann.2 ++ beBytes 1 (16 * memberCode (m.farOk || m.ann.1 == 1) m.ann.1 + memberCode (!m.bad) m.rx.1)
          ++ beBytes 2 (64 * m.lane + m.ts) ++ be16s (clampInt (-32768) 32767 (m.delay / 4000)))) t))
  ∧ (∀ r s t, Serves 0x910 s → t = takeMgmt 0x910 r s → r.func = 0 → r.params.length = 4 → byteAt r.params 0 ≤ 23 →
      byteAt r.params 1 ≤ 1 → byteAt r.params 2 ≤ (if byteAt r.params 1 = 0 then 32 else 1) →
      exec (.bhPmRead r) s = .next (sendReply 0x910 r stDone
        (binRecord t (byteAt r.params 0) (byteAt r.params 1) (byteAt r.params 2)) t))
  ∧ (∀ r s t u, Serves 0x911 s → t = takeMgmt 0x911 r s → r.func = 0 → r.params.length = 8 →
      u = setBh (fun b => { b with secs15 := 0, secs24 := 0, align := BitVec.ofNat 64 (beAt r.params 0 8) }) t →
      exec (.bhPmAlign r) s = .next (sendReply 0x911 r stDone [] (closeBins true u.clk.tb (closeBins false u.clk.tb u))))
  ∧ (∀ r s t l, Serves 0x920 s → t = takeMgmt 0x920 r s → bhReq r = true → r.params.length = 4 → byteAt r.params 0 ≤ 3 →
      funcDown s r.func.toNat = false → l = reqLane r → laneF t l 31 30 = 2 →
      exec (.bhTraceRead r) s = .next (sendReply 0x920 r stDone
        (slice (laneRec t l).trace 0 16 ++ slice (laneRec t l).learned 0 16) t))
  ∧ (∀ r s t l, Serves 0x921 s → t = takeMgmt 0x921 r s → bhReq r = true → r.params.length = 4 → byteAt r.params 0 ≤ 3 →
      funcDown s r.func.toNat = false → l = reqLane r → laneF t l 31 30 = 2 → (laneRec t l).trace ≠ [] →
      exec (.bhTraceLearn r) s = .next (sendReply 0x921 r stDone []
        (setLaneRec l (fun x => { x with learned := x.trace, differ := 0, equal := 0 }) t)))
  ∧ (∀ r s t l, Serves 0x930 s → t = takeMgmt 0x930 r s → bhReq r = true → r.params.length = 4 → byteAt r.params 0 ≤ 3 →
      1 ≤ byteAt r.params 1 → byteAt r.params 1 ≤ 60 → funcDown s r.func.toNat = false → l = reqLane r → laneOn t l = true →
      t.bh.members.any (fun m => m.lane == l) = false → deferRule r t = none →
      exec (.bhLaneTest r) s = .next (deferStart 0x930 r [l] (setLaneF l 24 24 1
        (setLaneRec l (fun x => { x with testBits := 0, testErrs := 0 }) t))))

/-- 13 R364, R372, R379, R383: the requests on the measurement sequencer. -/
def Obligations.MeasurementRequests : Prop :=
  (∀ r s t n, Serves 0xA01 s → t = takeMgmt 0xA01 r s → r.func = 0x60 → r.params.length = 4 → n = byteAt r.params 0 →
      1 ≤ n → n ≤ 64 → funcDown s 0x60 = false → (measFwd t).isEmpty = true →
      exec (.measRead r) s = .next (sendReply 0xA01 r stDone (popResults n t).2.flatten (popResults n t).1))
  ∧ (∀ r s t n, Serves 0xA01 s → t = takeMgmt 0xA01 r s → r.func = 0x60 → r.params.length = 4 → n = byteAt r.params 0 →
      1 ≤ n → n ≤ 64 → funcDown s 0x60 = false → (measFwd t).isEmpty = false →
      exec (.measRead r) s = .next (sendReply 0xA01 r stDone [] t))
  ∧ (∀ r s t, Serves 0xA02 s → t = takeMgmt 0xA02 r s → r.func = 0x60 → r.params = [] → funcDown s 0x60 = false →
      trigEn t = true → measRun t = true → (trigger 0 t).2 = true →
      exec (.measTrigger r) s = .next (sendReply 0xA02 r stAccepted [] (trigger 0 t).1))
  ∧ (∀ r s t, Serves 0xA03 s → t = takeMgmt 0xA03 r s → r.func = 0x60 → r.params.length = 8 → funcDown s 0x60 = false →
      trigEn t = true → measRun t = true → now t < beAt r.params 0 8 →
      exec (.measTrigAt r) s = .next (sendReply 0xA03 r stAccepted []
        (setMeas (fun m => { m with trigAt := some (BitVec.ofNat 64 (beAt r.params 0 8)) }) t)))
  ∧ (∀ r s t, Serves 0xA03 s → t = takeMgmt 0xA03 r s → r.func = 0x60 → r.params.length = 8 → funcDown s 0x60 = false →
      trigEn t = true → measRun t = true → beAt r.params 0 8 ≤ now t →
      exec (.measTrigAt r) s = .next (sendReply 0xA03 r stAccepted []
        (trigger 1 (setMeas (fun m => { m with trigAt := none }) t)).1))
  ∧ (∀ r s t p, Serves 0xA04 s → t = takeMgmt 0xA04 r s → r.func = 0x60 → p = r.params → p.length = 8 → byteAt p 0 ≤ 23 →
      byteAt p 1 ≤ 1 → 1 ≤ byteAt p 2 → funcDown s 0x60 = false → objF t 0x60 0xA01 18 18 ≠ 1 →
      objF t 0x60 0xA01 9 9 ≠ 1 → spareSlice t ≠ 15 → deferRule r t = none →
      exec (.measSyscal r) s = .next (deferStart 0xA04 r [byteAt p 0, byteAt p 1, byteAt p 2, beAt p 5 3]
        (syscalStarts (byteAt p 0) (byteAt p 2) t)))
  ∧ (∀ r s t b, Serves 0xA05 s → t = takeMgmt 0xA05 r s → r.func = 0x60 → r.params.length = 4 → byteAt r.params 0 ≤ 23 →
      funcDown s 0x60 = false → b = smGet (fun _ => []) t.meas.last (byteAt r.params 0) → b ≠ [] →
      exec (.measLast r) s = .next (sendReply 0xA05 r stDone b t))

/-- 15 R436, R438, 16 R443, R446, R453: the requests on the chain and the cores. -/
def Obligations.ChainAndCoreRequests : Prop :=
  (∀ r s t, Serves 0xB01 s → t = takeMgmt 0xB01 r s → r.func = 0x69 → r.params = [] → funcDown s 0x69 = false →
      chainStuckNow t = false → objF t 0x69 0xB09 22 22 ≠ 1 → t.chain.run = none → deferRule r t = none →
      exec (.chainAssign r) s = .next (deferStart 0xB01 r [] (setChain (fun c => { c with run := some ⟨1, 0, [], false⟩ })
        (chainSend 1 63 (assignBody 0 0 []) t))))
  ∧ (∀ r s t a, Serves 0xB02 s → t = takeMgmt 0xB02 r s → r.func = 0x69 → r.params.length = 4 → a = byteAt r.params 0 →
      1 ≤ a → a ≤ 62 → funcDown s 0x69 = false → chainStuckNow t = false → t.aon.addr ≠ 0 → deferRule r t = none →
      exec (.chainWake r) s = .next (deferStart 0xB02 r [] (setChain (fun c => { c with wake := some (a, false) })
        (chainSend 3 a [] t))))
  ∧ (∀ r s t n o, Serves 0xC01 s → t = takeMgmt 0xC01 r s → coreFunc r = true → 8 ≤ r.params.length →
      r.params.length - 4 ≤ 2044 → (r.params.length - 4) % 4 = 0 → funcDown s r.func.toNat = false → n = coreNo r →
      o = beAt r.params 0 4 → coreStopped t n = true → inWindow t n (winBase t n + o) (r.params.length - 4) = true →
      exec (.appLoad r) s = .next (sendReply 0xC01 r stDone [] (trWrite (winBase t n + o) (r.params.drop 4) t)))
  ∧ (∀ r s t n f, Serves 0xC02 s → t = takeMgmt 0xC02 r s → coreFunc r = true → r.params.length = 4 →
      funcDown s r.func.toNat = false → n = coreNo r → f = nbit (beAt r.params 0 4) 31 → coreStopped t n = true →
      windowOk t n = true → mayStart t n = true → deferRule r t = none →
      exec (.appStart r) s = .next (deferStart 0xC02 r [] (setCoreState n (if f then 1 else 2)
        (setCore n (fun c => { c with starting := some f, due := false }) t))))
  ∧ (∀ r s t, Serves 0xC03 s → t = takeMgmt 0xC03 r s → coreFunc r = true → r.params.length = 4 →
      funcDown s r.func.toNat = false → deferRule r t = none →
      exec (.appStop r) s = .next (deferStart 0xC03 r [b2n (nbit (beAt r.params 0 4) 31)] t))

/-- 14 R414, R417, 18 R484, R485: the requests of field service, events and performance. -/
def Obligations.ServiceAndEventRequests : Prop :=
  (∀ r s t, Serves 0xD01 s → t = takeMgmt 0xD01 r s → r.func = 0 → r.params = [] → deferRule r t = none →
      exec (.svcSelftest r) s = .next (deferStart 0xD01 r [] t))
  ∧ (∀ r s t n, Serves 0xD02 s → t = takeMgmt 0xD02 r s → r.func = 0 → r.params.length = 4 → n = byteAt r.params 0 →
      exec (.ledLocate r) s = .next (sendReply 0xD02 r stDone [] (setSvc (fun c => { c with
        locate := if n = 0 then none else some (t.clk.tb + BitVec.ofNat 64 (400000000 * n)) }) t)))
  ∧ (∀ r s t, Serves 0xD03 s → t = takeMgmt 0xD03 r s → r.func = 0 → r.params = [] →
      exec (.ledTest r) s = .next (sendReply 0xD03 r stDone [] (setSvc (fun c => { c with ledTest := true }) t)))
  ∧ (∀ r s t, Serves 0xE01 s → t = takeMgmt 0xE01 r s → r.func = 0 → r.params.length = 8 → 1 ≤ beAt r.params 2 2 →
      beAt r.params 2 2 ≤ 63 → exec (.evtRead r) s = .next (sendReply 0xE01 r stDone
        (evtSelect t (beAt r.params 0 2 * 2 ^ 32 + beAt r.params 4 4) (beAt r.params 2 2)).flatten t))
  ∧ (∀ r s t obj day n, Serves 0xE10 s → t = takeMgmt 0xE10 r s → r.func = 0 → r.params.length = 4 →
      obj = byteAt r.params 0 → obj ≤ 23 → day = byteAt r.params 1 → day ≤ 1 → n = (if day = 0 then 33 else 2) →
      exec (.pmReadBlock r) s = .next (sendReply 0xE10 r stDone (beBytes 1 obj ++ beBytes 1 day ++ beBytes 1 n ++ [0]
        ++ beBytes 8 (if day = 0 then t.bh.start15 else t.bh.start24).toNat ++ [0, 0, 0, 0]
        ++ (List.range n).flatMap (fun i => binRecord t obj day i)) t))

/-- 09 R278, R283, R285, R287, 10 R303: the requests on the Trellis and the queues. -/
def Obligations.TrellisAndQueueRequests : Prop :=
  (∀ r s t, Serves 0xF01 s → t = takeMgmt 0xF01 r s → r.func = 0 → r.params.length = 4 → byteAt r.params 0 = 6 →
      allDown t [0x58, 0x59] = true →
      exec (.trWipe r) s = .next (startWipe (partBase t 6) (partEnd t 6) 0xF01 r t))
  ∧ (∀ r s t, Serves 0xF01 s → t = takeMgmt 0xF01 r s → r.func = 0 → r.params.length = 4 → byteAt r.params 0 = 7 →
      (List.range 4).all (fun n => coreStopped t n) = true →
      exec (.trWipe r) s = .next (startWipe (partBase t 7) (partEnd t 7) 0xF01 r t))
  ∧ (∀ r s t v, Serves 0xF02 s → t = takeMgmt 0xF02 r s → r.func = 0 → r.params.length = 4 → v = byteAt r.params 0 →
      2 ≤ v → v ≤ 8 → allDown t [0x58, 0x59, 0x70, 0x71, 0x72, 0x73] = true →
      exec (.trRepart r) s = .next (startWipe 0x680000 trSize 0xF02 r (setF 0 0xF00 25 22 v t)))
  ∧ (∀ lo hi op r s, startWipe lo hi op r s = wipesBegin { s with tr := { s.tr with
      wiping := s.tr.wiping ++ [⟨lo, hi, false, some (BitVec.ofNat 16 op, r)⟩] } })
  ∧ (∀ r s t b, Serves 0xF03 s → t = takeMgmt 0xF03 r s → 0x7C ≤ r.func.toNat → r.func.toNat ≤ 0x7F → r.params.length = 4 →
      b = byteAt r.params 0 → b ≤ 16 → regionLost s (r.func.toNat - 0x7C) = false → funcDown s r.func.toNat = false →
      (b = 16 ∧ spareFree t (r.func.toNat - 0x7C) = true) ∨ nbit (objF t r.func.toNat 0xF08 23 7) b = true → deferRule r t = none →
      exec (.trBankTest r) s = .next (deferStart 0xF03 r [b] t))
  ∧ (∀ r s t a n m, Serves 0xF04 s → t = takeMgmt 0xF04 r s → r.func = 0 → r.params.length = 8 → a = beAt r.params 0 4 →
      n = beAt r.params 4 4 → a < trSize → 1 ≤ n → n ≤ 1024 → a + n ≤ trSize → lifeCycle t = 0 ∨ lifeCycle t = 3 →
      heldAt t a n = none → m = mcRead a n t →
      exec (.trPeek r) s = .next (sendReply 0xF04 r stDone (beBytes 4 m.1 ++ m.2.1) m.2.2))
  ∧ (∀ r s t a n l, Serves 0xF04 s → t = takeMgmt 0xF04 r s → r.func = 0 → r.params.length = 8 → a = beAt r.params 0 4 →
      n = beAt r.params 4 4 → a < trSize → 1 ≤ n → n ≤ 1024 → a + n ≤ trSize → lifeCycle t = 0 ∨ lifeCycle t = 3 →
      heldAt t a n = some l → exec (.trPeek r) s = .next (holdAccess (mcAccess (.peek r) a n) l t))
  ∧ (∀ r s t q c, Serves 0xF10 s → t = takeMgmt 0xF10 r s → r.func = 0 → r.params.length = 4 → q = byteAt r.params 0 →
      qCat q = some c → exec (.qRead r) s = .next (sendReply 0xF10 r stDone (qStatus q t)
        (if nbit (byteAt r.params 1) 0 then qClear q t else t)))
  ∧ (∀ r s t q c, Serves 0xF11 s → t = takeMgmt 0xF11 r s → r.func = 0 → r.params.length = 4 → q = byteAt r.params 0 →
      qCat q = some c → exec (.qWm r) s = .next (sendReply 0xF11 r stDone []
        (qMarks q (BitVec.ofNat 8 (byteAt r.params 1)) (BitVec.ofNat 8 (byteAt r.params 2)) t)))

/-- 03 R77, 04 R113, 07 R197, 09 R287, 11 R307, 13 R379, 14 R398, 15 R436, R438, 18 R485: tests of ports, clusters,
engines and lanes end. -/
def Obligations.TestCompletions : Prop :=
  (∀ p m s d r, findDeferred 0x401 (pf p.val) s = some d → r = soundRecord s p.val m true (portOf s p.val).testAt →
      exec (.portSoundDone p m) s = .next (finish d stDone r.2 (checkOutcome p.val r.1 r.2 m
        (setPort p.val (fun k => { k with passTb := if r.1 = 0 then some (portRests p.val s).clk.tb else k.passTb })
          (portRests p.val s)))))
  ∧ (∀ p rms clipped bursts s d, findDeferred 0x530 (pf p.val) s = some d →
      exec (.bbTxTestDone p rms clipped bursts) s = .next (finish d stDone
        (beBytes 2 rms.toNat ++ beBytes 2 clipped.toNat ++ beBytes 2 bursts.toNat ++ [0, 0])
        (testEnds p.val (bumpF (pf p.val) 0x504 31 16 bursts.toNat (bumpF (pf p.val) 0x504 7 0 clipped.toNat s)))))
  ∧ (∀ p rms bursts s d, findDeferred 0x603 (pf p.val) s = some d →
      exec (.nbTxTestDone p rms bursts) s = .next (finish d stDone
        (beBytes 2 rms.toNat ++ beBytes 2 bursts.toNat ++ beBytes 4 0)
        (testEnds p.val (bumpF (pf p.val) 0x621 31 16 bursts.toNat s))))
  ∧ (∀ c codewords mean failed s d, findDeferred 0x541 (cf c.val) s = some d →
      exec (.codecTestDone c codewords mean failed) s = .next (finish d stDone
        (beBytes 1 (if failed = 0 then 0 else 1) ++ [0] ++ beBytes 2 codewords.toNat ++ beBytes 2 mean.toNat
          ++ beBytes 2 failed.toNat) (if failed = 0 then unitTested c.val true s
          else codecFails c.val (unitTested c.val false s))))
  ∧ (∀ e s d t, findDeferred 0x820 (0x40 + e.val) s = some d → vAt s.clo.eng e.val = none → d.aux.headD 1 ≠ 4 →
      engState s e.val ≠ 4 → t = setF (0x40 + e.val) 0x808 31 28 1 s →
      exec (.ceTestDone e 0) s = .next (finish d stDone [0, 0, 0, 0] t)
      ∧ ∀ k : Fin 8, k ≠ 0 → exec (.ceTestDone e k) s = .next (finish d stDone (beBytes 1 1 ++ beBytes 1 k.val ++ [0, 0])
          (retireEngine e.val (if k.val = 7 then 1 else 2) t)))
  ∧ (∀ (k : Fin 8) e s d, findDeferred 0x820 (0x40 + e.val) s = some d → vAt s.clo.eng e.val = none →
      d.aux.headD 1 = 4 ∨ engState s e.val = 4 → exec (.ceTestDone e k) s = .next (finish d stDone
        (beBytes 1 (if k.val = 0 then 0 else 1) ++ beBytes 1 k.val ++ [0, 0]) (setF (0x40 + e.val) 0x808 31 28 4 s)))
  ∧ (∀ lane s d, findDeferred 0x930 (bhFunc lane.val) s = some d → d.aux.headD 8 = lane.val →
      exec (.bhLaneTestDone lane) s = .next (finish d stDone (laneTestReply s lane.val) (setLaneF lane.val 24 24 0 s)))
  ∧ (∀ finds s d, findDeferred 0xD01 0 s = some d → exec (.svcSelftestDone finds) s = .next (finish d stDone
      ([10, 0, 0, 0] ++ (List.range 10).flatMap (selfItem finds (finds.foldl (fun s f => selfActs f s) s)))
      (finds.foldl (fun s f => selfActs f s) s)))
  ∧ (∀ r result line bits bad s d t, findDeferred 0xF03 (0x7C + r.val) s = some d → wipeOn s r.val = false →
      t = finish d stDone (beBytes 1 result.val ++ [0] ++ beBytes 2 line.toNat ++ beBytes 2 bits.toNat ++ [0, 0])
        (wordsLost r.val (d.aux.headD 0) bad s) →
      exec (.trBankTestDone r result line bits bad) s = .next (if result ≠ 0 ∧ d.aux.headD 0 = 16 then
        bankFailing r.val 16 (decide (result = 1)) t
        else if result = 2 then bankDies r.val (d.aux.headD 0) t else t))
  ∧ (∀ s t r d, t = chainSettle s → t.chain.run = some r → r.ended = true →
      findDeferred 0xB01 0x69 (setChain (fun c => { c with run := none }) t) = some d →
      exec .chainAssignDone s = .next (finish d stDone (beBytes 1 r.recs.length ++ [0, 0, 0]
        ++ r.recs.flatMap (fun e => beBytes 1 e.1 ++ [0] ++ beBytes 8 e.2.toNat))
        (setChain (fun c => { c with run := none }) t)))
  ∧ (∀ s t a u d, t = chainSettle s → t.chain.wake = some (a, true) →
      u = emit (.wakeChars a) (setChain (fun c => { c with wake := none }) t) → findDeferred 0xB02 0x69 u = some d →
      exec .chainWakeSent s = .next (finish d stDone [] u))
  ∧ (∀ rx s d, findDeferred 0xA04 0x60 s = some d → spareSlice s = 15 → exec (.measSyscalDone rx) s = .next
      (finish d stNoResource (beBytes 4 noField) (setF 0x60 0xA01 9 9 0 s)))
  ∧ (∀ rx s d p ch w fine r t, findDeferred 0xA04 0x60 s = some d → p = spareSlice s → p ≠ 15 → ch = d.aux.getD 0 0 →
      w = sliceCfg s p → fine = measFine s p w rx →
      r = intervalOf (sliceOf s p).start (sliceOf s p).till (fineTicks w) fine (measCoarse s p w rx) →
      t = syscalStore ch (d.aux.getD 1 0) (d.aux.getD 3 0) r s →
      exec (.measSyscalDone rx) s = .next (if reaches (sliceOf s p).till (fineTicks w) fine = false then s
        else syscalAnswer d t.2 (0xA20 + ch) r t.1))
end

