-- ==== Sys2Proof/Laws/Frames.lean ====
section
/-!
SUPPORT. What the shared operations can change: one lemma for each says every field it may write, so that a proof about a
meaning need not unfold the operations it calls.
-/
namespace Sys2Proof.Machine

theorem srcStore_frame (r : EvRec) (s : State) : ∃ ev regs, srcStore r s = { s with ev := ev, regs := regs } := by
  by_cases h : (vAt s.ev.srcs r.src).q.length + (if (vAt s.ev.srcs r.src).dropped = 0 then 1 else 2) ≤ 4
  · exact ⟨_, s.regs, by unfold srcStore; dsimp only; rw [if_pos h]⟩
  · exact ⟨_, _, by unfold srcStore; dsimp only; rw [if_neg h]; rfl⟩

/-- Raising an event writes the source's queue, EVT_LOST, and the memory of FAULT_UNABSORBED. -/
theorem raise_frame (src func : Nat) (e : Ev) (d : Bytes) (s : State) :
    ∃ ev regs svc, raise src func e d s = { s with ev := ev, regs := regs, svc := svc } := by
  unfold raise noteUnabsorbed
  obtain ⟨ev, regs, h⟩ := srcStore_frame
    ⟨src, BitVec.ofNat 8 func, false, BitVec.ofNat 3 (evSev e), s.clk.tb, BitVec.ofNat 16 (evCode e), d⟩ s
  rw [h]
  split
  · exact ⟨_, _, _, rfl⟩
  · exact ⟨ev, regs, s.svc, rfl⟩

theorem putQ_frame (qid : Nat) (q : Que) (s : State) :
    ∃ queues ev regs svc, putQ qid q s = { s with queues := queues, ev := ev, regs := regs, svc := svc } := by
  unfold putQ setQ
  dsimp only
  split
  · obtain ⟨ev, regs, svc, h⟩ := raise_frame 76 0 .queueWatermark
      (beBytes 1 qid ++ [0] ++ beBytes 4 (qLevel (qSize qid) q))
      { s with queues := smPut (fun _ => que0) qid (qWater (qSize qid) q).1 s.queues }
    rw [h]
    exact ⟨_, ev, regs, svc, rfl⟩
  · exact ⟨_, s.ev, s.regs, s.svc, rfl⟩

/-- Two changes of queues, event sources, counting objects and the memory of FAULT_UNABSORBED are one. -/
theorem frame_trans {s t u : State}
    (h : ∃ queues ev regs svc, t = { s with queues := queues, ev := ev, regs := regs, svc := svc })
    (h' : ∃ queues ev regs svc, u = { t with queues := queues, ev := ev, regs := regs, svc := svc }) :
    ∃ queues ev regs svc, u = { s with queues := queues, ev := ev, regs := regs, svc := svc } := by
  obtain ⟨_, _, _, _, rfl⟩ := h
  obtain ⟨queues, ev, regs, svc, rfl⟩ := h'
  exact ⟨queues, ev, regs, svc, rfl⟩

theorem raise_queues (src func : Nat) (e : Ev) (d : Bytes) (s : State) :
    ∃ queues ev regs svc, raise src func e d s = { s with queues := queues, ev := ev, regs := regs, svc := svc } := by
  obtain ⟨ev, regs, svc, h⟩ := raise_frame src func e d s
  exact ⟨s.queues, ev, regs, svc, h⟩

theorem qOversize_frame (qid n : Nat) (s : State) :
    ∃ queues ev regs svc, qOversize qid n s = { s with queues := queues, ev := ev, regs := regs, svc := svc } := by
  unfold qOversize
  dsimp only
  generalize hq : ({ qAbort (getQ s qid) with oversize := _ } : Que) = q
  refine frame_trans (putQ_frame qid q s) (frame_trans (t := bumpF 0 0xF20 15 8 1 (putQ qid q s)) ?_ (raise_queues _ _ _ _ _))
  exact ⟨(putQ qid q s).queues, (putQ qid q s).ev, _, (putQ qid q s).svc, rfl⟩

theorem qPush_frame (qid client : Nat) (mark : Bool) (tag : Nat) (data : Bytes) (s : State) :
    ∃ queues ev regs svc, (qPush qid client mark tag data s).1 = { s with queues := queues, ev := ev, regs := regs, svc := svc } := by
  unfold qPush
  dsimp only
  split
  · exact ⟨s.queues, s.ev, s.regs, s.svc, rfl⟩
  · split
    · exact putQ_frame _ _ s
    · split
      · exact putQ_frame _ _ s
      · split
        · exact qOversize_frame _ _ s
        · exact ⟨s.queues, s.ev, s.regs, s.svc, rfl⟩

theorem qPop_frame {qid : Nat} {s t : State} {p : Pkt} (h : qPop qid s = some (p, t)) :
    ∃ queues ev regs svc, t = { s with queues := queues, ev := ev, regs := regs, svc := svc } := by
  dsimp only [qPop] at h
  split at h
  · cases h
  · cases h
    exact putQ_frame _ _ s

theorem qRelease_frame (qid pos : Nat) (s : State) :
    ∃ queues ev regs svc, qRelease qid pos s = { s with queues := queues, ev := ev, regs := regs, svc := svc } :=
  putQ_frame _ _ s

theorem qWord_frame (qid w : Nat) (s : State) :
    ∃ queues ev regs svc, (qWord qid w s).1 = { s with queues := queues, ev := ev, regs := regs, svc := svc } := by
  unfold qWord
  dsimp only
  split
  · exact ⟨s.queues, s.ev, s.regs, s.svc, rfl⟩
  · split
    · exact putQ_frame _ _ s
    · split
      · split
        · exact ⟨_, s.ev, s.regs, s.svc, rfl⟩
        · exact ⟨s.queues, s.ev, s.regs, s.svc, rfl⟩
      · exact ⟨s.queues, s.ev, s.regs, s.svc, rfl⟩

theorem qRead1_frame (qid : Nat) (s : State) :
    ∃ queues ev regs svc, (qRead1 qid s).1 = { s with queues := queues, ev := ev, regs := regs, svc := svc } := by
  unfold qRead1
  dsimp only
  split
  · exact putQ_frame _ _ s
  · exact putQ_frame _ _ s

theorem qPass_frame (qid client tag : Nat) (data : Bytes) (s : State) :
    ∃ queues ev regs svc, (qPass qid client tag data s).1 = { s with queues := queues, ev := ev, regs := regs, svc := svc } := by
  unfold qPass
  dsimp only
  split
  · rename_i h
    exact frame_trans (qPush_frame qid client false tag data s) (qPop_frame h)
  · exact qPush_frame qid client false tag data s

theorem qEmpty_frame (qid : Nat) (held producer : Bool) (s : State) :
    ∃ queues ev regs svc, qEmpty qid held producer s = { s with queues := queues, ev := ev, regs := regs, svc := svc } :=
  putQ_frame _ _ s

theorem qFault_frame (qid dom ptr first second : Nat) (s : State) :
    ∃ queues ev regs svc, qFault qid dom ptr first second s = { s with queues := queues, ev := ev, regs := regs, svc := svc } := by
  unfold qFault
  dsimp only
  generalize hq : ({ qCleared (getQ s qid) with faults := _ } : Que) = q
  obtain ⟨queues, ev, regs, svc, h⟩ := putQ_frame qid q s
  rw [h]
  exact (raise_frame _ _ _ _ _).elim fun ev h => h.elim fun regs h => h.elim fun svc h => ⟨queues, ev, regs, svc, h.trans rfl⟩

theorem qStream_frame (qid : Nat) (ws : List Nat) (s : State) :
    ∃ queues ev regs svc, (qStream qid ws s).1 = { s with queues := queues, ev := ev, regs := regs, svc := svc } := by
  unfold qStream
  dsimp only
  split
  · exact ⟨s.queues, s.ev, s.regs, s.svc, rfl⟩
  · split
    · split
      · exact ⟨_, s.ev, s.regs, s.svc, rfl⟩
      · exact ⟨s.queues, s.ev, s.regs, s.svc, rfl⟩
    · generalize hq : ({ getQ s qid with wp := _, pp := _ } : Que) = q
      obtain ⟨queues, ev, regs, svc, h⟩ := putQ_frame qid q s
      rw [h]
      exact (putQ_frame _ _ _).elim fun a h => h.elim fun b h => h.elim fun c h => h.elim fun d h => ⟨a, b, c, d, h.trans rfl⟩

theorem hostLeaves_frame (l : Nat) (dst : BitVec 48) (vlan : Option (BitVec 12)) (pkt : Bytes) (s : State) :
    ∃ queues ev regs svc hl out, hostLeaves l dst vlan pkt s =
      { s with queues := queues, ev := ev, regs := regs, svc := svc, hl := hl, out := out } := by
  unfold hostLeaves emit
  obtain ⟨queues, ev, regs, svc, h⟩ := qStream_frame (0x5C + l) (words64 pkt) s
  rw [h]
  exact ⟨queues, ev, regs, svc, s.hl, _, rfl⟩

theorem hostWaits_frame (l : Nat) (dst : BitVec 48) (vlan : Option (BitVec 12)) (pkt : Bytes) (s : State) :
    ∃ queues ev regs svc hl out, hostWaits l dst vlan pkt s =
      { s with queues := queues, ev := ev, regs := regs, svc := svc, hl := hl, out := out } := by
  unfold hostWaits setWaiting
  dsimp only
  split
  · obtain ⟨queues, ev, regs, svc, h⟩ := qPush_frame (2 + l) 0x16 false 0 pkt s
    rw [h]
    exact ⟨queues, ev, regs, svc, _, s.out, rfl⟩
  · exact ⟨s.queues, s.ev, s.regs, s.svc, _, s.out, rfl⟩

theorem hostSend_frame (l : Nat) (dst : BitVec 48) (vlan : Option (BitVec 12)) (pkt : Bytes) (s : State) :
    ∃ queues ev regs svc hl out, hostSend l dst vlan pkt s =
      { s with queues := queues, ev := ev, regs := regs, svc := svc, hl := hl, out := out } := by
  unfold hostSend
  split
  · exact ⟨s.queues, s.ev, s.regs, s.svc, s.hl, s.out, rfl⟩
  · split
    · exact hostWaits_frame l dst vlan pkt s
    · obtain ⟨queues, ev, regs, svc, h⟩ := qPass_frame (2 + l) 0x16 0 pkt s
      dsimp only
      rw [h]
      split
      · obtain ⟨a, b, c, d, e, f, h⟩ := hostLeaves_frame l dst vlan pkt { s with queues := queues, ev := ev, regs := regs, svc := svc }
        exact ⟨a, b, c, d, e, f, h.trans rfl⟩
      · obtain ⟨a, b, c, d, e, f, h⟩ := hostWaits_frame l dst vlan pkt { s with queues := queues, ev := ev, regs := regs, svc := svc }
        exact ⟨a, b, c, d, e, f, h.trans rfl⟩
      · exact ⟨queues, ev, regs, svc, s.hl, s.out, rfl⟩

theorem mcPass_frame (pkt : Bytes) (s : State) :
    ∃ queues ev regs svc, mcPass pkt s = { s with queues := queues, ev := ev, regs := regs, svc := svc } :=
  qPass_frame 0x19 0x21 0 pkt s

theorem conHold_frame (s : State) (x : Byte) :
    ∃ queues ev regs svc con, conHold s x = { s with queues := queues, ev := ev, regs := regs, svc := svc, con := con } := by
  unfold conHold
  dsimp only
  obtain ⟨queues, ev, regs, svc, h⟩ := qWord_frame 0x73 x.toNat s
  split
  · rw [h]; exact ⟨queues, ev, regs, svc, s.con, rfl⟩
  · exact ⟨s.queues, s.ev, s.regs, s.svc, _, rfl⟩

theorem conSend_frame (b : Bytes) (s : State) :
    ∃ queues ev regs svc con out,
      conSend b s = { s with queues := queues, ev := ev, regs := regs, svc := svc, con := con, out := out } := by
  have fold : ∀ (b : Bytes) (s : State), ∃ queues ev regs svc con,
      b.foldl conHold s = { s with queues := queues, ev := ev, regs := regs, svc := svc, con := con } := by
    intro b
    induction b with
    | nil => intro s; exact ⟨s.queues, s.ev, s.regs, s.svc, s.con, rfl⟩
    | cons x t ih =>
      intro s
      obtain ⟨_, _, _, _, _, h⟩ := conHold_frame s x
      obtain ⟨queues, ev, regs, svc, con, h'⟩ := ih (conHold s x)
      rw [List.foldl_cons, h', h]
      exact ⟨queues, ev, regs, svc, con, rfl⟩
  unfold conSend emit
  split
  · exact ⟨s.queues, s.ev, s.regs, s.svc, s.con, s.out, rfl⟩
  · split
    · obtain ⟨queues, ev, regs, svc, con, h⟩ := fold b s
      rw [h]
      exact ⟨queues, ev, regs, svc, con, s.out, rfl⟩
    · exact ⟨s.queues, s.ev, s.regs, s.svc, s.con, _, rfl⟩

theorem adopt_frame (func id : Nat) (s : State) : ∃ regs shadow, adopt func id s = { s with regs := regs, shadow := shadow } := by
  unfold adopt
  split
  · exact ⟨s.regs, s.shadow, rfl⟩
  · exact ⟨_, _, rfl⟩

theorem conPrompt_frame (s : State) :
    ∃ queues ev regs svc con out shadow, conPrompt s =
      { s with queues := queues, ev := ev, regs := regs, svc := svc, con := con, out := out, shadow := shadow } := by
  unfold conPrompt
  dsimp only
  obtain ⟨queues, ev, regs, svc, con, out, h⟩ := conSend_frame prompt s
  rw [h]
  split
  · obtain ⟨regs, shadow, h'⟩ := adopt_frame 0x68 0xB00
      { s with queues := queues, ev := ev, regs := regs, svc := svc, con := con, out := out }
    rw [h']
    exact ⟨queues, ev, regs, svc, _, out, shadow, rfl⟩
  · exact ⟨queues, ev, regs, svc, con, out, s.shadow, rfl⟩

theorem conReply_frame (tag func status : Nat) (params pkt : Bytes) (s : State) :
    ∃ queues ev regs svc con out shadow, conReply tag func status params pkt s =
      { s with queues := queues, ev := ev, regs := regs, svc := svc, con := con, out := out, shadow := shadow } := by
  have sent : ∀ (b : Bytes) (s : State), ∃ queues ev regs svc con out shadow, conSend b s =
      { s with queues := queues, ev := ev, regs := regs, svc := svc, con := con, out := out, shadow := shadow } := by
    intro b s
    obtain ⟨queues, ev, regs, svc, con, out, h⟩ := conSend_frame b s
    exact ⟨queues, ev, regs, svc, con, out, s.shadow, h⟩
  have prompted : ∀ s t : State, (∃ queues ev regs svc con out shadow, t =
      { s with queues := queues, ev := ev, regs := regs, svc := svc, con := con, out := out, shadow := shadow }) →
      ∃ queues ev regs svc con out shadow, (if t.con.asked.isEmpty then conPrompt t else t) =
      { s with queues := queues, ev := ev, regs := regs, svc := svc, con := con, out := out, shadow := shadow } := by
    rintro s _ ⟨queues, ev, regs, svc, con, out, shadow, rfl⟩
    split
    · obtain ⟨queues, ev, regs, svc, con, out, shadow, h⟩ := conPrompt_frame
        { s with queues := queues, ev := ev, regs := regs, svc := svc, con := con, out := out, shadow := shadow }
      exact ⟨queues, ev, regs, svc, con, out, shadow, h.trans rfl⟩
    · exact ⟨queues, ev, regs, svc, con, out, shadow, rfl⟩
  unfold conReply
  split
  · exact sent _ s
  · split
    · exact sent _ s
    · rename_i e _
      dsimp only
      apply prompted s
      split
      · obtain ⟨queues, ev, regs, svc, con, out, shadow, h⟩ := sent _
          { s with con := { s.con with asked := s.con.asked.filter (fun x => x.1.toNat != tag) } }
        exact ⟨queues, ev, regs, svc, con, out, shadow, h.trans rfl⟩
      · exact ⟨s.queues, s.ev, s.regs, s.svc, _, _, s.shadow, rfl⟩

/-- What delivering a reply can change, whatever its source. -/
theorem deliver_frame (src : Source) (tag func status : Nat) (params pkt : Bytes) (s : State) :
    ∃ queues ev regs svc con out shadow hl chain, deliver src tag func status params pkt s =
      { s with queues := queues, ev := ev, regs := regs, svc := svc, con := con, out := out, shadow := shadow, hl := hl,
               chain := chain } := by
  unfold deliver
  split
  · split
    · obtain ⟨queues, ev, regs, svc, h⟩ := mcPass_frame pkt s
      rw [h]
      obtain ⟨queues, ev, regs, svc, hl, out, h⟩ := hostSend_frame _ _ _ pkt _
      exact ⟨queues, ev, regs, svc, s.con, out, s.shadow, hl, s.chain, h.trans rfl⟩
    · exact ⟨s.queues, s.ev, s.regs, s.svc, s.con, s.out, s.shadow, s.hl, s.chain, rfl⟩
  · obtain ⟨queues, ev, regs, svc, con, out, shadow, h⟩ := conReply_frame tag func status params pkt s
    exact ⟨queues, ev, regs, svc, con, out, shadow, s.hl, s.chain, h⟩
  · exact ⟨s.queues, s.ev, s.regs, s.svc, s.con, s.out, s.shadow, s.hl, _, rfl⟩
  · obtain ⟨queues, ev, regs, svc, h⟩ := frame_trans (mcPass_frame pkt s) (qPush_frame _ 0x16 false 2 pkt _)
    exact ⟨queues, ev, regs, svc, s.con, s.out, s.shadow, s.hl, s.chain, h⟩

/-- What a reply can change besides the reply store: the queues, the event sources, the objects that count, the console,
the chain, the host links and what was sent. -/
theorem sendReply_frame (op : Nat) (r : Req) (status : W16) (params : Bytes) (s : State) :
    ∃ queues ev regs svc con out shadow hl chain cmd, sendReply op r status params s =
      { s with queues := queues, ev := ev, regs := regs, svc := svc, con := con, out := out, shadow := shadow, hl := hl,
               chain := chain, cmd := cmd } ∧ cmd.deferred = s.cmd.deferred ∧ cmd.mgmt = s.cmd.mgmt := by
  have kept : ∀ pkt, ∃ cmd, keepReply op r pkt s = { s with cmd := cmd } ∧ cmd.deferred = s.cmd.deferred
      ∧ cmd.mgmt = s.cmd.mgmt := fun _ => ⟨_, rfl, rfl, rfl⟩
  unfold sendReply
  dsimp only
  generalize replyPacket s op r.tag.toNat r.func.toNat status.toNat params = pkt
  obtain ⟨cmd, h, h1, h2⟩ := kept pkt
  rw [h]
  split
  · exact ⟨s.queues, s.ev, s.regs, s.svc, s.con, s.out, s.shadow, s.hl, s.chain, cmd, rfl, h1, h2⟩
  · obtain ⟨queues, ev, regs, svc, con, out, shadow, hl, chain, h⟩ :=
      deliver_frame r.src r.tag.toNat r.func.toNat status.toNat params pkt { s with cmd := cmd }
    exact ⟨queues, ev, regs, svc, con, out, shadow, hl, chain, cmd, h, h1, h2⟩

/-- A request that joins queue 0x18 changes the queues and what State holds of the commands, deferred ones apart. -/
theorem mgmtJoins_frame (s : State) :
    ∃ queues ev regs svc cmd, mgmtJoins s = { s with queues := queues, ev := ev, regs := regs, svc := svc, cmd := cmd }
      ∧ cmd.deferred = s.cmd.deferred := by
  unfold mgmtJoins
  split
  · exact ⟨s.queues, s.ev, s.regs, s.svc, s.cmd, rfl, rfl⟩
  · rename_i e t _
    obtain ⟨queues, ev, regs, svc, h⟩ := qPush_frame 0x18 0x16 false 0 e.2.2 s
    dsimp only
    split
    · rw [h]
      exact ⟨queues, ev, regs, svc, _, rfl, rfl⟩
    · exact ⟨s.queues, s.ev, s.regs, s.svc, s.cmd, rfl, rfl⟩

theorem mgmtRefill_frame (s : State) :
    ∃ queues ev regs svc cmd, mgmtRefill s = { s with queues := queues, ev := ev, regs := regs, svc := svc, cmd := cmd }
      ∧ cmd.deferred = s.cmd.deferred := by
  unfold mgmtRefill
  generalize s.cmd.mgmtWait = l
  induction l generalizing s with
  | nil => exact ⟨s.queues, s.ev, s.regs, s.svc, s.cmd, rfl, rfl⟩
  | cons e l ih =>
    rw [List.foldl_cons]
    obtain ⟨a, b, c, d, cmd, h, hd⟩ := mgmtJoins_frame s
    obtain ⟨queues, ev, regs, svc, cmd', h', hd'⟩ := ih (mgmtJoins s)
    rw [h] at h' hd'
    rw [h, h']
    exact ⟨queues, ev, regs, svc, cmd', rfl, hd'.trans hd⟩

theorem takeMgmt_frame (op : Nat) (r : Req) (s : State) :
    ∃ queues ev regs svc cmd, takeMgmt op r s = { s with queues := queues, ev := ev, regs := regs, svc := svc, cmd := cmd }
      ∧ cmd.deferred = s.cmd.deferred := by
  unfold takeMgmt
  split
  · split
    · dsimp only
      split
      · rename_i h
        obtain ⟨queues, ev, regs, svc, h'⟩ := qPop_frame h
        rw [h']
        obtain ⟨queues, ev, regs, svc, cmd, h, hd⟩ := mgmtRefill_frame _
        exact ⟨queues, ev, regs, svc, cmd, h, hd⟩
      · exact ⟨s.queues, s.ev, s.regs, s.svc, _, rfl, rfl⟩
    · exact ⟨s.queues, s.ev, s.regs, s.svc, s.cmd, rfl, rfl⟩
  · exact ⟨s.queues, s.ev, s.regs, s.svc, s.cmd, rfl, rfl⟩

/-- A fold of steps that write queues, event sources, counting objects and the memory of FAULT_UNABSORBED writes no more. -/
theorem foldl_frame {α : Type} {f : State → α → State}
    (hf : ∀ s a, ∃ queues ev regs svc, f s a = { s with queues := queues, ev := ev, regs := regs, svc := svc })
    (l : List α) (s : State) :
    ∃ queues ev regs svc, l.foldl f s = { s with queues := queues, ev := ev, regs := regs, svc := svc } := by
  induction l generalizing s with
  | nil => exact ⟨s.queues, s.ev, s.regs, s.svc, rfl⟩
  | cons a l ih =>
    obtain ⟨queues, ev, regs, svc, h⟩ := hf s a
    obtain ⟨queues', ev', regs', svc', h'⟩ := ih (f s a)
    rw [List.foldl_cons, h', h]
    exact ⟨queues', ev', regs', svc', rfl⟩

theorem coreCopies_frame (sev : Nat) (rec : Bytes) (s : State) :
    ∃ queues ev regs svc, coreCopies sev rec s = { s with queues := queues, ev := ev, regs := regs, svc := svc } := by
  refine foldl_frame (fun s n => ?_) _ s
  split
  · dsimp only
    split
    · exact frame_trans (mcPass_frame rec s) (qPush_frame (0x10 + n) 0x16 false 3 rec _)
    · exact ⟨s.queues, s.ev, _, s.svc, rfl⟩
  · exact ⟨s.queues, s.ev, s.regs, s.svc, rfl⟩

theorem packetPut_frame (a : Nat) (b : Byte) (s : State) :
    ∃ mem poison queues, packetPut a b s = { s with mem := mem, poison := poison, queues := queues } := by
  unfold packetPut
  split
  · exact ⟨_, _, _, rfl⟩
  · exact ⟨_, _, s.queues, rfl⟩

/-- A write of the fabric changes Trellis bytes, poison, and the packets that a ring holds. -/
theorem trWrite_frame (a : Nat) (b : Bytes) (s : State) :
    ∃ mem poison queues, trWrite a b s = { s with mem := mem, poison := poison, queues := queues } := by
  have fold : ∀ (l : List (Byte × Nat)) (s : State), ∃ mem poison queues,
      l.foldl (fun s e => packetPut (a + e.2) e.1 s) s = { s with mem := mem, poison := poison, queues := queues } := by
    intro l
    induction l with
    | nil => intro s; exact ⟨s.mem, s.poison, s.queues, rfl⟩
    | cons e l ih =>
      intro s
      obtain ⟨_, _, _, h⟩ := packetPut_frame (a + e.2) e.1 s
      obtain ⟨mem, poison, queues, h'⟩ := ih (packetPut (a + e.2) e.1 s)
      rw [List.foldl_cons, h', h]
      exact ⟨mem, poison, queues, rfl⟩
  unfold trWrite
  split
  · exact ⟨s.mem, s.poison, s.queues, rfl⟩
  · split
    · obtain ⟨_, _, queues, h⟩ := fold b.zipIdx s
      rw [h]
      exact ⟨_, _, queues, rfl⟩
    · exact ⟨_, _, s.queues, rfl⟩

/-- What issuing a record can change: the event store in the Trellis, and what a copy to the cores changes. -/
theorem storeRecord_frame (esn : Nat) (r : EvRec) (s : State) :
    ∃ queues ev regs svc mem poison, storeRecord esn r s =
      { s with queues := queues, ev := ev, regs := regs, svc := svc, mem := mem, poison := poison } := by
  unfold storeRecord
  obtain ⟨mem, poison, queues, h⟩ := trWrite_frame (0x640000 + 32 * s.ev.storeAt) (recordBytes esn s.aon.epoch.toNat r) s
  dsimp only
  rw [h]
  have copied : ∀ (rec : Bytes) (t : State),
      (∃ ev regs, t = { s with ev := ev, regs := regs, mem := mem, poison := poison, queues := queues }) →
      ∃ queues ev regs svc mem poison, coreCopies r.sev.toNat rec t =
        { s with queues := queues, ev := ev, regs := regs, svc := svc, mem := mem, poison := poison } := by
    rintro rec _ ⟨ev, regs, rfl⟩
    obtain ⟨queues, ev, regs, svc, h⟩ := coreCopies_frame r.sev.toNat rec
      { s with ev := ev, regs := regs, mem := mem, poison := poison, queues := queues }
    exact ⟨queues, ev, regs, svc, mem, poison, h.trans rfl⟩
  apply copied
  have counted : ∃ regs, (if s.ev.storeN = 2048 then
      bumpF 0x78 0xE0A 31 16 1 { s with mem := mem, poison := poison, queues := queues }
      else { s with mem := mem, poison := poison, queues := queues }) =
        { s with regs := regs, mem := mem, poison := poison, queues := queues } := by
    split
    · exact ⟨_, rfl⟩
    · exact ⟨s.regs, rfl⟩
  obtain ⟨regs, h2⟩ := counted
  rw [h2]
  dsimp only
  split
  · exact ⟨_, _, rfl⟩
  · exact ⟨_, _, rfl⟩

/-- What is kept by one item and by the collector is kept by a list of items in turn. -/
theorem inTurn_keeps {α : Type} {P : State → Prop} {src : Nat} {f : α → State → State} (hf : ∀ x s, P s → P (f x s))
    (ha : ∀ s, P s → P (acceptOldest src s)) (l : List α) {s : State} (h : P s) : P (inTurn src f l s) := by
  unfold inTurn
  induction l generalizing s with
  | nil => exact h
  | cons x l ih =>
    rw [List.foldl_cons]
    apply ih
    dsimp only
    split
    · exact ha _ (hf x s h)
    · exact hf x s h

end Sys2Proof.Machine
end

