-- ==== Sys2Proof/Laws/Memory.lean ====
section
/-!
SUPPORT. The sorted maps keep their canonical form and read back what was written; so do the Trellis contents and the object
file, which are two of them.
-/
namespace Sys2Proof.Machine

section maps

variable {α : Type} [DecidableEq α] {d : Nat → α}

/-- Every key of a list lies above k. -/
def keysAbove (k : Nat) (m : List (Nat × α)) : Prop := ∀ e ∈ m, k < e.1

theorem smWf_cons {k : Nat} {v : α} {t : List (Nat × α)} :
    smWf d ((k, v) :: t) = true ↔ v ≠ d k ∧ keysAbove k t ∧ smWf d t = true := by
  simp [smWf, keysAbove, and_assoc]

omit [DecidableEq α] in
theorem smGet_above {k : Nat} {m : List (Nat × α)} (h : keysAbove k m) : smGet d m k = d k := by
  induction m with
  | nil => rfl
  | cons e t ih =>
    obtain ⟨j, a⟩ := e
    have hj : k < j := h (j, a) (by simp)
    rw [smGet, if_neg (by omega)]
    exact ih fun e he => h e (by simp [he])

theorem keysAbove_smPut {j k : Nat} {v : α} {m : List (Nat × α)} (hj : j < k) (h : keysAbove j m) :
    keysAbove j (smPut d k v m) := by
  induction m with
  | nil => simp only [smPut]; split <;> simp [keysAbove, hj]
  | cons e t ih =>
    obtain ⟨i, a⟩ := e
    have hi : j < i := h (i, a) (by simp)
    have ht : keysAbove j t := fun e he => h e (by simp [he])
    have := ih ht
    simp only [smPut]
    split_ifs
    · exact h
    · simp [keysAbove, hj, hi]; exact fun a b hb => ht _ hb
    · exact ht
    · simp [keysAbove, hj]; exact fun a b hb => ht _ hb
    · simp [keysAbove, hi]; exact fun a b hb => this _ hb

/-- A put keeps the canonical form. -/
theorem smWf_smPut {k : Nat} {v : α} {m : List (Nat × α)} (h : smWf d m = true) : smWf d (smPut d k v m) = true := by
  induction m with
  | nil => simp only [smPut]; split_ifs with hv <;> simp [smWf, hv]
  | cons e t ih =>
    obtain ⟨j, a⟩ := e
    obtain ⟨ha, hk, ht⟩ := smWf_cons.mp h
    simp only [smPut]
    split_ifs with h1 h2 h3 h4
    · exact h
    · exact smWf_cons.mpr ⟨h2, fun e he => by
        simp only [List.mem_cons] at he
        rcases he with rfl | he
        · exact h1
        · exact Nat.lt_trans h1 (hk _ he), h⟩
    · exact ht
    · subst h3; exact smWf_cons.mpr ⟨h4, hk, ht⟩
    · exact smWf_cons.mpr ⟨ha, keysAbove_smPut (by omega) hk, ih ht⟩

/-- A filter keeps the canonical form. -/
theorem smWf_filter {p : Nat × α → Bool} {m : List (Nat × α)} (h : smWf d m = true) : smWf d (m.filter p) = true := by
  induction m with
  | nil => rfl
  | cons e t ih =>
    obtain ⟨j, a⟩ := e
    obtain ⟨ha, hk, ht⟩ := smWf_cons.mp h
    rw [List.filter_cons]
    split
    · exact smWf_cons.mpr ⟨ha, fun e he => hk e (List.mem_of_mem_filter he), ih ht⟩
    · exact ih ht

theorem smWf_smErase {p : Nat → Bool} {m : List (Nat × α)} (h : smWf d m = true) : smWf d (smErase p m) = true :=
  smWf_filter h

/-- A key reads back what was put. -/
theorem smGet_smPut_same {k : Nat} {v : α} {m : List (Nat × α)} (h : smWf d m = true) : smGet d (smPut d k v m) k = v := by
  induction m with
  | nil => simp only [smPut]; split_ifs with hv <;> simp [smGet, hv]
  | cons e t ih =>
    obtain ⟨j, a⟩ := e
    obtain ⟨ha, hk, ht⟩ := smWf_cons.mp h
    simp only [smPut]
    split_ifs with h1 h2 h3 h4
    · rw [smGet, if_neg (by omega), h2]
      exact smGet_above fun e he => Nat.lt_trans h1 (hk e he)
    · rw [smGet, if_pos rfl]
    · subst h3; rw [h4]; exact smGet_above hk
    · rw [smGet, if_pos rfl]
    · rw [smGet, if_neg (by omega)]; exact ih ht

/-- Every other key reads as before. -/
theorem smGet_smPut_other {j k : Nat} {v : α} {m : List (Nat × α)} (hjk : j ≠ k) :
    smGet d (smPut d k v m) j = smGet d m j := by
  induction m with
  | nil => simp only [smPut]; split_ifs <;> simp [smGet]; omega
  | cons e t ih =>
    obtain ⟨i, a⟩ := e
    simp only [smPut]
    split_ifs with h1 h2 h3 h4
    · rfl
    · rw [smGet, if_neg (by omega)]
    · subst h3
      rw [smGet, if_neg (by omega)]
    · subst h3
      rw [smGet, if_neg (by omega), smGet, if_neg (by omega)]
    · rw [smGet, smGet, ih]

end maps

-- The object file.

theorem regs_setObj {func id : Nat} {v : W32} {s : State} (h : smWf regD s.regs = true) :
    smWf regD (setObj func id v s).regs = true := smWf_smPut h

theorem getObj_setObj_same {func id : Nat} {v : W32} {s : State} (h : smWf regD s.regs = true) :
    getObj (setObj func id v s) func id = v := smGet_smPut_same h

theorem getObj_setObj_other {func id f i : Nat} {v : W32} {s : State} (hk : okey f i ≠ okey func id) :
    getObj (setObj func id v s) f i = getObj s f i := smGet_smPut_other hk

theorem regs_setF {func id hi lo v : Nat} {s : State} (h : smWf regD s.regs = true) :
    smWf regD (setF func id hi lo v s).regs = true := regs_setObj h

theorem regs_bumpF {func id hi lo k : Nat} {s : State} (h : smWf regD s.regs = true) :
    smWf regD (bumpF func id hi lo k s).regs = true := regs_setObj h

theorem regs_resetObjs {func : Nat} {keep : Nat → Bool} {s : State} (h : smWf regD s.regs = true) :
    smWf regD (resetObjs func keep s).regs = true := by
  unfold resetObjs; exact smWf_filter h

-- The Trellis contents (09 R270): every operation on them keeps the canonical form.

theorem mem_memPutL {b : Bytes} : ∀ {a : Nat} {m : List Host.Cell}, smWf memD m = true → smWf memD (memPutL a b m) = true := by
  induction b with
  | nil => intro a m h; exact h
  | cons x t ih => intro a m h; exact ih (smWf_smPut h)

theorem wf_memWrite {a : Nat} {b : Bytes} {s : State} (h : Memory.wf s = true) : Memory.wf (memWrite a b s) = true :=
  mem_memPutL h

theorem wf_memSetNat {a n v : Nat} {s : State} (h : Memory.wf s = true) : Memory.wf (memSetNat a n v s) = true :=
  wf_memWrite h

theorem wf_memWipe {lo hi : Nat} {s : State} (h : Memory.wf s = true) : Memory.wf (memWipe lo hi s) = true :=
  smWf_filter h

theorem wf_wipeWindow {n : Nat} {s : State} (h : Memory.wf s = true) : Memory.wf (wipeWindow n s) = true :=
  smWf_filter h

theorem wf_bankLost {r i : Nat} {s : State} (h : Memory.wf s = true) : Memory.wf (bankLost r i s) = true :=
  smWf_filter h

theorem wf_reset : Memory.wf State.reset = true := rfl

-- Reading after a write.

theorem smGet_memPutL_other {b : Bytes} : ∀ {a x : Nat} {m : List Host.Cell},
    (∀ i, i < b.length → x ≠ (a + i) % trSize) → smGet memD (memPutL a b m) x = smGet memD m x := by
  induction b with
  | nil => intro a x m _; rfl
  | cons c t ih =>
    intro a x m hx
    rw [memPutL, memPut, ih fun i hi => ?_]
    · exact smGet_smPut_other (hx 0 (by simp))
    · have := hx (i + 1) (by simp; omega)
      rwa [show a + (i + 1) = a + 1 + i by omega] at this

/-- A byte that the write covers reads back. -/
theorem memByte_memWrite_same {a i : Nat} {b : Bytes} {s : State} (h : Memory.wf s = true) (hi : i < b.length)
    (hb : b.length ≤ trSize) : memByte (memWrite a b s) (a + i) = b.getD i 0 := by
  suffices H : ∀ (b : Bytes) (a i : Nat) (m : List Host.Cell), smWf memD m = true → i < b.length → b.length ≤ trSize →
      smGet memD (memPutL a b m) ((a + i) % trSize) = b.getD i 0 from H b a i s.mem h hi hb
  intro b
  induction b with
  | nil => intro a i m _ hi; simp at hi
  | cons c t ih =>
    intro a i m h hi hb
    simp only [List.length_cons] at hi hb
    cases i with
    | zero =>
      rw [memPutL, memPut, smGet_memPutL_other]
      · simpa using smGet_smPut_same h
      · intro k hk
        unfold trSize at *
        omega
    | succ j =>
      rw [memPutL, memPut, show a + (j + 1) = a + 1 + j by omega, ih (a + 1) j _ (smWf_smPut h) (by omega) (by omega)]
      simp

/-- Every byte outside the write reads as before. -/
theorem memByte_memWrite_other {a x : Nat} {b : Bytes} {s : State} (hx : x < trSize)
    (ha : a + b.length ≤ trSize) (ho : x < a ∨ a + b.length ≤ x) : memByte (memWrite a b s) x = memByte s x := by
  refine smGet_memPutL_other fun i hi => ?_
  rw [Nat.mod_eq_of_lt hx, Nat.mod_eq_of_lt (by omega)]
  omega

end Sys2Proof.Machine
end

