-- ==== Sys2Proof/Laws/Requests.lean ====
section
/-!
SUPPORT. What the one flow of every request does (14 R387, R396 to R399): one lemma per shared operation.
-/
namespace Sys2Proof.Machine

@[simp] theorem srcStore_fuse (r : EvRec) (s : State) : (srcStore r s).fuse = s.fuse := by
  simp [srcStore, apply_ite State.fuse, bumpF, setObj]

@[simp] theorem raise_fuse (src func : Nat) (e : Ev) (d : Bytes) (s : State) : (raise src func e d s).fuse = s.fuse := by
  simp [raise, noteUnabsorbed, apply_ite State.fuse]

@[simp] theorem putQ_fuse (q : Nat) (v : Que) (s : State) : (putQ q v s).fuse = s.fuse := by
  simp [putQ, apply_ite State.fuse, setQ]

/-- Popping a queue leaves the fuses as they are. -/
theorem qPop_fuse {q : Nat} {s t : State} {p : Pkt} (h : qPop q s = some (p, t)) : t.fuse = s.fuse := by
  dsimp only [qPop] at h
  split at h
  · cases h
  · cases h; simp

/-- Filling queue 0x18 leaves the fuses as they are. -/
@[simp] theorem mgmtRefill_fuse (s : State) : (mgmtRefill s).fuse = s.fuse := by
  obtain ⟨_, _, _, _, _, h, _⟩ := mgmtRefill_frame s
  rw [h]

@[simp] theorem takeMgmt_fuse (op : Nat) (r : Req) (s : State) : (takeMgmt op r s).fuse = s.fuse := by
  dsimp only [takeMgmt]
  split
  · split
    · cases h : qPop 0x18 { s with cmd := { s.cmd with mgmt := _ } } with
      | none => rfl
      | some x => obtain ⟨p, t⟩ := x; exact (mgmtRefill_fuse t).trans ((qPop_fuse h).trans rfl)
    · rfl
  · rfl

@[simp] theorem takeMgmt_lifeCycle (op : Nat) (r : Req) (s : State) : lifeCycle (takeMgmt op r s) = lifeCycle s := by
  unfold lifeCycle; rw [takeMgmt_fuse]

/-- A request that is served with FUNC and parameters in order is executed by its body, and answered (R398). -/
theorem execReq_runs {op : Nat} {s : State} (h : Serves op s) (r : Req) (body : State → Ans) :
    execReq op r true none false body s = match body (takeMgmt op r s) with
      | .reply st p t => sendReply op r st p t
      | .hold t => t
      | .defer aux t => deferStart op r aux t := by
  obtain ⟨h1, h2⟩ := h
  have h3 : ¬ (lifeCycle s = 4 ∧ op ∉ retiredOps) := fun ⟨a, b⟩ => b (h2 a)
  simp only [execReq, h1, takeMgmt_lifeCycle, Bool.not_true, Bool.false_eq_true, if_false]
  rewrite [if_neg h3]
  rfl

/-- A request with a FUNC that the command does not take (step 8). -/
theorem execReq_badFunc {op : Nat} {s : State} (h : accepting s = true) (r : Req) (bad : Option Nat) (down : Bool)
    (body : State → Ans) :
    execReq op r false bad down body s = sendReply op r stBadFunc (beBytes 4 noField) (takeMgmt op r s) := by
  simp [execReq, h, refuse]

/-- A request with parameters that the command does not take (step 9). -/
theorem execReq_badLength {op d : Nat} {s : State} (h : accepting s = true) (r : Req) (down : Bool) (body : State → Ans) :
    execReq op r true (some d) down body s = sendReply op r stBadLength (beBytes 4 d) (takeMgmt op r s) := by
  simp [execReq, h, refuse]

/-- RETIRED refuses all but five commands (17 R474). -/
theorem execReq_retired {op : Nat} {s : State} (h : accepting s = true) (h4 : lifeCycle s = 4) (ho : op ∉ retiredOps)
    (r : Req) (down : Bool) (body : State → Ans) :
    execReq op r true none down body s = sendReply op r stNotInState (beBytes 4 noField) (takeMgmt op r s) := by
  simp [execReq, h, h4, ho, refuse]

/-- While the management controller does not execute commands, a request waits (17 R466). -/
theorem execReq_waits {op : Nat} {s : State} (h : accepting s = false) (r : Req) (f : Bool) (bad : Option Nat) (down : Bool)
    (body : State → Ans) : execReq op r f bad down body s = s := by
  simp [execReq, h]

end Sys2Proof.Machine
end

