-- ==== Sys2Proof/Laws/State.lean ====
section
/-!
SUPPORT. The updates of the state, field by field: what each writes and what it leaves alone, so that no proof unfolds a record
update.
-/
namespace Sys2Proof.Machine

@[simp] theorem setPw_pending (f : PowerSt → PowerSt) (s : State) : (setPw f s).pending = s.pending := rfl
@[simp] theorem setPw_phase (f : PowerSt → PowerSt) (s : State) : (setPw f s).phase = s.phase := rfl
@[simp] theorem setPw_regs (f : PowerSt → PowerSt) (s : State) : (setPw f s).regs = s.regs := rfl
@[simp] theorem setPw_shadow (f : PowerSt → PowerSt) (s : State) : (setPw f s).shadow = s.shadow := rfl
@[simp] theorem setPw_shadowLate (f : PowerSt → PowerSt) (s : State) : (setPw f s).shadowLate = s.shadowLate := rfl
@[simp] theorem setPw_w1c (f : PowerSt → PowerSt) (s : State) : (setPw f s).w1c = s.w1c := rfl
@[simp] theorem setPw_aon (f : PowerSt → PowerSt) (s : State) : (setPw f s).aon = s.aon := rfl
@[simp] theorem setPw_fuse (f : PowerSt → PowerSt) (s : State) : (setPw f s).fuse = s.fuse := rfl
@[simp] theorem setPw_pw (f : PowerSt → PowerSt) (s : State) : (setPw f s).pw = f s.pw := rfl
@[simp] theorem setPw_clk (f : PowerSt → PowerSt) (s : State) : (setPw f s).clk = s.clk := rfl
@[simp] theorem setPw_ev (f : PowerSt → PowerSt) (s : State) : (setPw f s).ev = s.ev := rfl
@[simp] theorem setPw_cmd (f : PowerSt → PowerSt) (s : State) : (setPw f s).cmd = s.cmd := rfl
@[simp] theorem setPw_hl (f : PowerSt → PowerSt) (s : State) : (setPw f s).hl = s.hl := rfl
@[simp] theorem setPw_cl (f : PowerSt → PowerSt) (s : State) : (setPw f s).cl = s.cl := rfl
@[simp] theorem setPw_tr (f : PowerSt → PowerSt) (s : State) : (setPw f s).tr = s.tr := rfl
@[simp] theorem setPw_mem (f : PowerSt → PowerSt) (s : State) : (setPw f s).mem = s.mem := rfl
@[simp] theorem setPw_poison (f : PowerSt → PowerSt) (s : State) : (setPw f s).poison = s.poison := rfl
@[simp] theorem setPw_queues (f : PowerSt → PowerSt) (s : State) : (setPw f s).queues = s.queues := rfl
@[simp] theorem setPw_port (f : PowerSt → PowerSt) (s : State) : (setPw f s).port = s.port := rfl
@[simp] theorem setPw_bb (f : PowerSt → PowerSt) (s : State) : (setPw f s).bb = s.bb := rfl
@[simp] theorem setPw_dec (f : PowerSt → PowerSt) (s : State) : (setPw f s).dec = s.dec := rfl
@[simp] theorem setPw_nb (f : PowerSt → PowerSt) (s : State) : (setPw f s).nb = s.nb := rfl
@[simp] theorem setPw_lk (f : PowerSt → PowerSt) (s : State) : (setPw f s).lk = s.lk := rfl
@[simp] theorem setPw_clo (f : PowerSt → PowerSt) (s : State) : (setPw f s).clo = s.clo := rfl
@[simp] theorem setPw_bh (f : PowerSt → PowerSt) (s : State) : (setPw f s).bh = s.bh := rfl
@[simp] theorem setPw_meas (f : PowerSt → PowerSt) (s : State) : (setPw f s).meas = s.meas := rfl
@[simp] theorem setPw_core (f : PowerSt → PowerSt) (s : State) : (setPw f s).core = s.core := rfl
@[simp] theorem setPw_con (f : PowerSt → PowerSt) (s : State) : (setPw f s).con = s.con := rfl
@[simp] theorem setPw_chain (f : PowerSt → PowerSt) (s : State) : (setPw f s).chain = s.chain := rfl
@[simp] theorem setPw_svc (f : PowerSt → PowerSt) (s : State) : (setPw f s).svc = s.svc := rfl
@[simp] theorem setPw_free (f : PowerSt → PowerSt) (s : State) : (setPw f s).free = s.free := rfl
@[simp] theorem setPw_out (f : PowerSt → PowerSt) (s : State) : (setPw f s).out = s.out := rfl

@[simp] theorem setClk_pending (f : ClockSt → ClockSt) (s : State) : (setClk f s).pending = s.pending := rfl
@[simp] theorem setClk_phase (f : ClockSt → ClockSt) (s : State) : (setClk f s).phase = s.phase := rfl
@[simp] theorem setClk_regs (f : ClockSt → ClockSt) (s : State) : (setClk f s).regs = s.regs := rfl
@[simp] theorem setClk_shadow (f : ClockSt → ClockSt) (s : State) : (setClk f s).shadow = s.shadow := rfl
@[simp] theorem setClk_shadowLate (f : ClockSt → ClockSt) (s : State) : (setClk f s).shadowLate = s.shadowLate := rfl
@[simp] theorem setClk_w1c (f : ClockSt → ClockSt) (s : State) : (setClk f s).w1c = s.w1c := rfl
@[simp] theorem setClk_aon (f : ClockSt → ClockSt) (s : State) : (setClk f s).aon = s.aon := rfl
@[simp] theorem setClk_fuse (f : ClockSt → ClockSt) (s : State) : (setClk f s).fuse = s.fuse := rfl
@[simp] theorem setClk_pw (f : ClockSt → ClockSt) (s : State) : (setClk f s).pw = s.pw := rfl
@[simp] theorem setClk_clk (f : ClockSt → ClockSt) (s : State) : (setClk f s).clk = f s.clk := rfl
@[simp] theorem setClk_ev (f : ClockSt → ClockSt) (s : State) : (setClk f s).ev = s.ev := rfl
@[simp] theorem setClk_cmd (f : ClockSt → ClockSt) (s : State) : (setClk f s).cmd = s.cmd := rfl
@[simp] theorem setClk_hl (f : ClockSt → ClockSt) (s : State) : (setClk f s).hl = s.hl := rfl
@[simp] theorem setClk_cl (f : ClockSt → ClockSt) (s : State) : (setClk f s).cl = s.cl := rfl
@[simp] theorem setClk_tr (f : ClockSt → ClockSt) (s : State) : (setClk f s).tr = s.tr := rfl
@[simp] theorem setClk_mem (f : ClockSt → ClockSt) (s : State) : (setClk f s).mem = s.mem := rfl
@[simp] theorem setClk_poison (f : ClockSt → ClockSt) (s : State) : (setClk f s).poison = s.poison := rfl
@[simp] theorem setClk_queues (f : ClockSt → ClockSt) (s : State) : (setClk f s).queues = s.queues := rfl
@[simp] theorem setClk_port (f : ClockSt → ClockSt) (s : State) : (setClk f s).port = s.port := rfl
@[simp] theorem setClk_bb (f : ClockSt → ClockSt) (s : State) : (setClk f s).bb = s.bb := rfl
@[simp] theorem setClk_dec (f : ClockSt → ClockSt) (s : State) : (setClk f s).dec = s.dec := rfl
@[simp] theorem setClk_nb (f : ClockSt → ClockSt) (s : State) : (setClk f s).nb = s.nb := rfl
@[simp] theorem setClk_lk (f : ClockSt → ClockSt) (s : State) : (setClk f s).lk = s.lk := rfl
@[simp] theorem setClk_clo (f : ClockSt → ClockSt) (s : State) : (setClk f s).clo = s.clo := rfl
@[simp] theorem setClk_bh (f : ClockSt → ClockSt) (s : State) : (setClk f s).bh = s.bh := rfl
@[simp] theorem setClk_meas (f : ClockSt → ClockSt) (s : State) : (setClk f s).meas = s.meas := rfl
@[simp] theorem setClk_core (f : ClockSt → ClockSt) (s : State) : (setClk f s).core = s.core := rfl
@[simp] theorem setClk_con (f : ClockSt → ClockSt) (s : State) : (setClk f s).con = s.con := rfl
@[simp] theorem setClk_chain (f : ClockSt → ClockSt) (s : State) : (setClk f s).chain = s.chain := rfl
@[simp] theorem setClk_svc (f : ClockSt → ClockSt) (s : State) : (setClk f s).svc = s.svc := rfl
@[simp] theorem setClk_free (f : ClockSt → ClockSt) (s : State) : (setClk f s).free = s.free := rfl
@[simp] theorem setClk_out (f : ClockSt → ClockSt) (s : State) : (setClk f s).out = s.out := rfl

@[simp] theorem setDec_pending (f : DecSt → DecSt) (s : State) : (setDec f s).pending = s.pending := rfl
@[simp] theorem setDec_phase (f : DecSt → DecSt) (s : State) : (setDec f s).phase = s.phase := rfl
@[simp] theorem setDec_regs (f : DecSt → DecSt) (s : State) : (setDec f s).regs = s.regs := rfl
@[simp] theorem setDec_shadow (f : DecSt → DecSt) (s : State) : (setDec f s).shadow = s.shadow := rfl
@[simp] theorem setDec_shadowLate (f : DecSt → DecSt) (s : State) : (setDec f s).shadowLate = s.shadowLate := rfl
@[simp] theorem setDec_w1c (f : DecSt → DecSt) (s : State) : (setDec f s).w1c = s.w1c := rfl
@[simp] theorem setDec_aon (f : DecSt → DecSt) (s : State) : (setDec f s).aon = s.aon := rfl
@[simp] theorem setDec_fuse (f : DecSt → DecSt) (s : State) : (setDec f s).fuse = s.fuse := rfl
@[simp] theorem setDec_pw (f : DecSt → DecSt) (s : State) : (setDec f s).pw = s.pw := rfl
@[simp] theorem setDec_clk (f : DecSt → DecSt) (s : State) : (setDec f s).clk = s.clk := rfl
@[simp] theorem setDec_ev (f : DecSt → DecSt) (s : State) : (setDec f s).ev = s.ev := rfl
@[simp] theorem setDec_cmd (f : DecSt → DecSt) (s : State) : (setDec f s).cmd = s.cmd := rfl
@[simp] theorem setDec_hl (f : DecSt → DecSt) (s : State) : (setDec f s).hl = s.hl := rfl
@[simp] theorem setDec_cl (f : DecSt → DecSt) (s : State) : (setDec f s).cl = s.cl := rfl
@[simp] theorem setDec_tr (f : DecSt → DecSt) (s : State) : (setDec f s).tr = s.tr := rfl
@[simp] theorem setDec_mem (f : DecSt → DecSt) (s : State) : (setDec f s).mem = s.mem := rfl
@[simp] theorem setDec_poison (f : DecSt → DecSt) (s : State) : (setDec f s).poison = s.poison := rfl
@[simp] theorem setDec_queues (f : DecSt → DecSt) (s : State) : (setDec f s).queues = s.queues := rfl
@[simp] theorem setDec_port (f : DecSt → DecSt) (s : State) : (setDec f s).port = s.port := rfl
@[simp] theorem setDec_bb (f : DecSt → DecSt) (s : State) : (setDec f s).bb = s.bb := rfl
@[simp] theorem setDec_dec (f : DecSt → DecSt) (s : State) : (setDec f s).dec = f s.dec := rfl
@[simp] theorem setDec_nb (f : DecSt → DecSt) (s : State) : (setDec f s).nb = s.nb := rfl
@[simp] theorem setDec_lk (f : DecSt → DecSt) (s : State) : (setDec f s).lk = s.lk := rfl
@[simp] theorem setDec_clo (f : DecSt → DecSt) (s : State) : (setDec f s).clo = s.clo := rfl
@[simp] theorem setDec_bh (f : DecSt → DecSt) (s : State) : (setDec f s).bh = s.bh := rfl
@[simp] theorem setDec_meas (f : DecSt → DecSt) (s : State) : (setDec f s).meas = s.meas := rfl
@[simp] theorem setDec_core (f : DecSt → DecSt) (s : State) : (setDec f s).core = s.core := rfl
@[simp] theorem setDec_con (f : DecSt → DecSt) (s : State) : (setDec f s).con = s.con := rfl
@[simp] theorem setDec_chain (f : DecSt → DecSt) (s : State) : (setDec f s).chain = s.chain := rfl
@[simp] theorem setDec_svc (f : DecSt → DecSt) (s : State) : (setDec f s).svc = s.svc := rfl
@[simp] theorem setDec_free (f : DecSt → DecSt) (s : State) : (setDec f s).free = s.free := rfl
@[simp] theorem setDec_out (f : DecSt → DecSt) (s : State) : (setDec f s).out = s.out := rfl

@[simp] theorem setBb_pending (f : BbSt → BbSt) (s : State) : (setBb f s).pending = s.pending := rfl
@[simp] theorem setBb_phase (f : BbSt → BbSt) (s : State) : (setBb f s).phase = s.phase := rfl
@[simp] theorem setBb_regs (f : BbSt → BbSt) (s : State) : (setBb f s).regs = s.regs := rfl
@[simp] theorem setBb_shadow (f : BbSt → BbSt) (s : State) : (setBb f s).shadow = s.shadow := rfl
@[simp] theorem setBb_shadowLate (f : BbSt → BbSt) (s : State) : (setBb f s).shadowLate = s.shadowLate := rfl
@[simp] theorem setBb_w1c (f : BbSt → BbSt) (s : State) : (setBb f s).w1c = s.w1c := rfl
@[simp] theorem setBb_aon (f : BbSt → BbSt) (s : State) : (setBb f s).aon = s.aon := rfl
@[simp] theorem setBb_fuse (f : BbSt → BbSt) (s : State) : (setBb f s).fuse = s.fuse := rfl
@[simp] theorem setBb_pw (f : BbSt → BbSt) (s : State) : (setBb f s).pw = s.pw := rfl
@[simp] theorem setBb_clk (f : BbSt → BbSt) (s : State) : (setBb f s).clk = s.clk := rfl
@[simp] theorem setBb_ev (f : BbSt → BbSt) (s : State) : (setBb f s).ev = s.ev := rfl
@[simp] theorem setBb_cmd (f : BbSt → BbSt) (s : State) : (setBb f s).cmd = s.cmd := rfl
@[simp] theorem setBb_hl (f : BbSt → BbSt) (s : State) : (setBb f s).hl = s.hl := rfl
@[simp] theorem setBb_cl (f : BbSt → BbSt) (s : State) : (setBb f s).cl = s.cl := rfl
@[simp] theorem setBb_tr (f : BbSt → BbSt) (s : State) : (setBb f s).tr = s.tr := rfl
@[simp] theorem setBb_mem (f : BbSt → BbSt) (s : State) : (setBb f s).mem = s.mem := rfl
@[simp] theorem setBb_poison (f : BbSt → BbSt) (s : State) : (setBb f s).poison = s.poison := rfl
@[simp] theorem setBb_queues (f : BbSt → BbSt) (s : State) : (setBb f s).queues = s.queues := rfl
@[simp] theorem setBb_port (f : BbSt → BbSt) (s : State) : (setBb f s).port = s.port := rfl
@[simp] theorem setBb_bb (f : BbSt → BbSt) (s : State) : (setBb f s).bb = f s.bb := rfl
@[simp] theorem setBb_dec (f : BbSt → BbSt) (s : State) : (setBb f s).dec = s.dec := rfl
@[simp] theorem setBb_nb (f : BbSt → BbSt) (s : State) : (setBb f s).nb = s.nb := rfl
@[simp] theorem setBb_lk (f : BbSt → BbSt) (s : State) : (setBb f s).lk = s.lk := rfl
@[simp] theorem setBb_clo (f : BbSt → BbSt) (s : State) : (setBb f s).clo = s.clo := rfl
@[simp] theorem setBb_bh (f : BbSt → BbSt) (s : State) : (setBb f s).bh = s.bh := rfl
@[simp] theorem setBb_meas (f : BbSt → BbSt) (s : State) : (setBb f s).meas = s.meas := rfl
@[simp] theorem setBb_core (f : BbSt → BbSt) (s : State) : (setBb f s).core = s.core := rfl
@[simp] theorem setBb_con (f : BbSt → BbSt) (s : State) : (setBb f s).con = s.con := rfl
@[simp] theorem setBb_chain (f : BbSt → BbSt) (s : State) : (setBb f s).chain = s.chain := rfl
@[simp] theorem setBb_svc (f : BbSt → BbSt) (s : State) : (setBb f s).svc = s.svc := rfl
@[simp] theorem setBb_free (f : BbSt → BbSt) (s : State) : (setBb f s).free = s.free := rfl
@[simp] theorem setBb_out (f : BbSt → BbSt) (s : State) : (setBb f s).out = s.out := rfl

@[simp] theorem setNb_pending (f : NbSt → NbSt) (s : State) : (setNb f s).pending = s.pending := rfl
@[simp] theorem setNb_phase (f : NbSt → NbSt) (s : State) : (setNb f s).phase = s.phase := rfl
@[simp] theorem setNb_regs (f : NbSt → NbSt) (s : State) : (setNb f s).regs = s.regs := rfl
@[simp] theorem setNb_shadow (f : NbSt → NbSt) (s : State) : (setNb f s).shadow = s.shadow := rfl
@[simp] theorem setNb_shadowLate (f : NbSt → NbSt) (s : State) : (setNb f s).shadowLate = s.shadowLate := rfl
@[simp] theorem setNb_w1c (f : NbSt → NbSt) (s : State) : (setNb f s).w1c = s.w1c := rfl
@[simp] theorem setNb_aon (f : NbSt → NbSt) (s : State) : (setNb f s).aon = s.aon := rfl
@[simp] theorem setNb_fuse (f : NbSt → NbSt) (s : State) : (setNb f s).fuse = s.fuse := rfl
@[simp] theorem setNb_pw (f : NbSt → NbSt) (s : State) : (setNb f s).pw = s.pw := rfl
@[simp] theorem setNb_clk (f : NbSt → NbSt) (s : State) : (setNb f s).clk = s.clk := rfl
@[simp] theorem setNb_ev (f : NbSt → NbSt) (s : State) : (setNb f s).ev = s.ev := rfl
@[simp] theorem setNb_cmd (f : NbSt → NbSt) (s : State) : (setNb f s).cmd = s.cmd := rfl
@[simp] theorem setNb_hl (f : NbSt → NbSt) (s : State) : (setNb f s).hl = s.hl := rfl
@[simp] theorem setNb_cl (f : NbSt → NbSt) (s : State) : (setNb f s).cl = s.cl := rfl
@[simp] theorem setNb_tr (f : NbSt → NbSt) (s : State) : (setNb f s).tr = s.tr := rfl
@[simp] theorem setNb_mem (f : NbSt → NbSt) (s : State) : (setNb f s).mem = s.mem := rfl
@[simp] theorem setNb_poison (f : NbSt → NbSt) (s : State) : (setNb f s).poison = s.poison := rfl
@[simp] theorem setNb_queues (f : NbSt → NbSt) (s : State) : (setNb f s).queues = s.queues := rfl
@[simp] theorem setNb_port (f : NbSt → NbSt) (s : State) : (setNb f s).port = s.port := rfl
@[simp] theorem setNb_bb (f : NbSt → NbSt) (s : State) : (setNb f s).bb = s.bb := rfl
@[simp] theorem setNb_dec (f : NbSt → NbSt) (s : State) : (setNb f s).dec = s.dec := rfl
@[simp] theorem setNb_nb (f : NbSt → NbSt) (s : State) : (setNb f s).nb = f s.nb := rfl
@[simp] theorem setNb_lk (f : NbSt → NbSt) (s : State) : (setNb f s).lk = s.lk := rfl
@[simp] theorem setNb_clo (f : NbSt → NbSt) (s : State) : (setNb f s).clo = s.clo := rfl
@[simp] theorem setNb_bh (f : NbSt → NbSt) (s : State) : (setNb f s).bh = s.bh := rfl
@[simp] theorem setNb_meas (f : NbSt → NbSt) (s : State) : (setNb f s).meas = s.meas := rfl
@[simp] theorem setNb_core (f : NbSt → NbSt) (s : State) : (setNb f s).core = s.core := rfl
@[simp] theorem setNb_con (f : NbSt → NbSt) (s : State) : (setNb f s).con = s.con := rfl
@[simp] theorem setNb_chain (f : NbSt → NbSt) (s : State) : (setNb f s).chain = s.chain := rfl
@[simp] theorem setNb_svc (f : NbSt → NbSt) (s : State) : (setNb f s).svc = s.svc := rfl
@[simp] theorem setNb_free (f : NbSt → NbSt) (s : State) : (setNb f s).free = s.free := rfl
@[simp] theorem setNb_out (f : NbSt → NbSt) (s : State) : (setNb f s).out = s.out := rfl

@[simp] theorem setLk_pending (f : LinkSt → LinkSt) (s : State) : (setLk f s).pending = s.pending := rfl
@[simp] theorem setLk_phase (f : LinkSt → LinkSt) (s : State) : (setLk f s).phase = s.phase := rfl
@[simp] theorem setLk_regs (f : LinkSt → LinkSt) (s : State) : (setLk f s).regs = s.regs := rfl
@[simp] theorem setLk_shadow (f : LinkSt → LinkSt) (s : State) : (setLk f s).shadow = s.shadow := rfl
@[simp] theorem setLk_shadowLate (f : LinkSt → LinkSt) (s : State) : (setLk f s).shadowLate = s.shadowLate := rfl
@[simp] theorem setLk_w1c (f : LinkSt → LinkSt) (s : State) : (setLk f s).w1c = s.w1c := rfl
@[simp] theorem setLk_aon (f : LinkSt → LinkSt) (s : State) : (setLk f s).aon = s.aon := rfl
@[simp] theorem setLk_fuse (f : LinkSt → LinkSt) (s : State) : (setLk f s).fuse = s.fuse := rfl
@[simp] theorem setLk_pw (f : LinkSt → LinkSt) (s : State) : (setLk f s).pw = s.pw := rfl
@[simp] theorem setLk_clk (f : LinkSt → LinkSt) (s : State) : (setLk f s).clk = s.clk := rfl
@[simp] theorem setLk_ev (f : LinkSt → LinkSt) (s : State) : (setLk f s).ev = s.ev := rfl
@[simp] theorem setLk_cmd (f : LinkSt → LinkSt) (s : State) : (setLk f s).cmd = s.cmd := rfl
@[simp] theorem setLk_hl (f : LinkSt → LinkSt) (s : State) : (setLk f s).hl = s.hl := rfl
@[simp] theorem setLk_cl (f : LinkSt → LinkSt) (s : State) : (setLk f s).cl = s.cl := rfl
@[simp] theorem setLk_tr (f : LinkSt → LinkSt) (s : State) : (setLk f s).tr = s.tr := rfl
@[simp] theorem setLk_mem (f : LinkSt → LinkSt) (s : State) : (setLk f s).mem = s.mem := rfl
@[simp] theorem setLk_poison (f : LinkSt → LinkSt) (s : State) : (setLk f s).poison = s.poison := rfl
@[simp] theorem setLk_queues (f : LinkSt → LinkSt) (s : State) : (setLk f s).queues = s.queues := rfl
@[simp] theorem setLk_port (f : LinkSt → LinkSt) (s : State) : (setLk f s).port = s.port := rfl
@[simp] theorem setLk_bb (f : LinkSt → LinkSt) (s : State) : (setLk f s).bb = s.bb := rfl
@[simp] theorem setLk_dec (f : LinkSt → LinkSt) (s : State) : (setLk f s).dec = s.dec := rfl
@[simp] theorem setLk_nb (f : LinkSt → LinkSt) (s : State) : (setLk f s).nb = s.nb := rfl
@[simp] theorem setLk_lk (f : LinkSt → LinkSt) (s : State) : (setLk f s).lk = f s.lk := rfl
@[simp] theorem setLk_clo (f : LinkSt → LinkSt) (s : State) : (setLk f s).clo = s.clo := rfl
@[simp] theorem setLk_bh (f : LinkSt → LinkSt) (s : State) : (setLk f s).bh = s.bh := rfl
@[simp] theorem setLk_meas (f : LinkSt → LinkSt) (s : State) : (setLk f s).meas = s.meas := rfl
@[simp] theorem setLk_core (f : LinkSt → LinkSt) (s : State) : (setLk f s).core = s.core := rfl
@[simp] theorem setLk_con (f : LinkSt → LinkSt) (s : State) : (setLk f s).con = s.con := rfl
@[simp] theorem setLk_chain (f : LinkSt → LinkSt) (s : State) : (setLk f s).chain = s.chain := rfl
@[simp] theorem setLk_svc (f : LinkSt → LinkSt) (s : State) : (setLk f s).svc = s.svc := rfl
@[simp] theorem setLk_free (f : LinkSt → LinkSt) (s : State) : (setLk f s).free = s.free := rfl
@[simp] theorem setLk_out (f : LinkSt → LinkSt) (s : State) : (setLk f s).out = s.out := rfl

@[simp] theorem setClo_pending (f : ClocheSt → ClocheSt) (s : State) : (setClo f s).pending = s.pending := rfl
@[simp] theorem setClo_phase (f : ClocheSt → ClocheSt) (s : State) : (setClo f s).phase = s.phase := rfl
@[simp] theorem setClo_regs (f : ClocheSt → ClocheSt) (s : State) : (setClo f s).regs = s.regs := rfl
@[simp] theorem setClo_shadow (f : ClocheSt → ClocheSt) (s : State) : (setClo f s).shadow = s.shadow := rfl
@[simp] theorem setClo_shadowLate (f : ClocheSt → ClocheSt) (s : State) : (setClo f s).shadowLate = s.shadowLate := rfl
@[simp] theorem setClo_w1c (f : ClocheSt → ClocheSt) (s : State) : (setClo f s).w1c = s.w1c := rfl
@[simp] theorem setClo_aon (f : ClocheSt → ClocheSt) (s : State) : (setClo f s).aon = s.aon := rfl
@[simp] theorem setClo_fuse (f : ClocheSt → ClocheSt) (s : State) : (setClo f s).fuse = s.fuse := rfl
@[simp] theorem setClo_pw (f : ClocheSt → ClocheSt) (s : State) : (setClo f s).pw = s.pw := rfl
@[simp] theorem setClo_clk (f : ClocheSt → ClocheSt) (s : State) : (setClo f s).clk = s.clk := rfl
@[simp] theorem setClo_ev (f : ClocheSt → ClocheSt) (s : State) : (setClo f s).ev = s.ev := rfl
@[simp] theorem setClo_cmd (f : ClocheSt → ClocheSt) (s : State) : (setClo f s).cmd = s.cmd := rfl
@[simp] theorem setClo_hl (f : ClocheSt → ClocheSt) (s : State) : (setClo f s).hl = s.hl := rfl
@[simp] theorem setClo_cl (f : ClocheSt → ClocheSt) (s : State) : (setClo f s).cl = s.cl := rfl
@[simp] theorem setClo_tr (f : ClocheSt → ClocheSt) (s : State) : (setClo f s).tr = s.tr := rfl
@[simp] theorem setClo_mem (f : ClocheSt → ClocheSt) (s : State) : (setClo f s).mem = s.mem := rfl
@[simp] theorem setClo_poison (f : ClocheSt → ClocheSt) (s : State) : (setClo f s).poison = s.poison := rfl
@[simp] theorem setClo_queues (f : ClocheSt → ClocheSt) (s : State) : (setClo f s).queues = s.queues := rfl
@[simp] theorem setClo_port (f : ClocheSt → ClocheSt) (s : State) : (setClo f s).port = s.port := rfl
@[simp] theorem setClo_bb (f : ClocheSt → ClocheSt) (s : State) : (setClo f s).bb = s.bb := rfl
@[simp] theorem setClo_dec (f : ClocheSt → ClocheSt) (s : State) : (setClo f s).dec = s.dec := rfl
@[simp] theorem setClo_nb (f : ClocheSt → ClocheSt) (s : State) : (setClo f s).nb = s.nb := rfl
@[simp] theorem setClo_lk (f : ClocheSt → ClocheSt) (s : State) : (setClo f s).lk = s.lk := rfl
@[simp] theorem setClo_clo (f : ClocheSt → ClocheSt) (s : State) : (setClo f s).clo = f s.clo := rfl
@[simp] theorem setClo_bh (f : ClocheSt → ClocheSt) (s : State) : (setClo f s).bh = s.bh := rfl
@[simp] theorem setClo_meas (f : ClocheSt → ClocheSt) (s : State) : (setClo f s).meas = s.meas := rfl
@[simp] theorem setClo_core (f : ClocheSt → ClocheSt) (s : State) : (setClo f s).core = s.core := rfl
@[simp] theorem setClo_con (f : ClocheSt → ClocheSt) (s : State) : (setClo f s).con = s.con := rfl
@[simp] theorem setClo_chain (f : ClocheSt → ClocheSt) (s : State) : (setClo f s).chain = s.chain := rfl
@[simp] theorem setClo_svc (f : ClocheSt → ClocheSt) (s : State) : (setClo f s).svc = s.svc := rfl
@[simp] theorem setClo_free (f : ClocheSt → ClocheSt) (s : State) : (setClo f s).free = s.free := rfl
@[simp] theorem setClo_out (f : ClocheSt → ClocheSt) (s : State) : (setClo f s).out = s.out := rfl

@[simp] theorem setBh_pending (f : BhSt → BhSt) (s : State) : (setBh f s).pending = s.pending := rfl
@[simp] theorem setBh_phase (f : BhSt → BhSt) (s : State) : (setBh f s).phase = s.phase := rfl
@[simp] theorem setBh_regs (f : BhSt → BhSt) (s : State) : (setBh f s).regs = s.regs := rfl
@[simp] theorem setBh_shadow (f : BhSt → BhSt) (s : State) : (setBh f s).shadow = s.shadow := rfl
@[simp] theorem setBh_shadowLate (f : BhSt → BhSt) (s : State) : (setBh f s).shadowLate = s.shadowLate := rfl
@[simp] theorem setBh_w1c (f : BhSt → BhSt) (s : State) : (setBh f s).w1c = s.w1c := rfl
@[simp] theorem setBh_aon (f : BhSt → BhSt) (s : State) : (setBh f s).aon = s.aon := rfl
@[simp] theorem setBh_fuse (f : BhSt → BhSt) (s : State) : (setBh f s).fuse = s.fuse := rfl
@[simp] theorem setBh_pw (f : BhSt → BhSt) (s : State) : (setBh f s).pw = s.pw := rfl
@[simp] theorem setBh_clk (f : BhSt → BhSt) (s : State) : (setBh f s).clk = s.clk := rfl
@[simp] theorem setBh_ev (f : BhSt → BhSt) (s : State) : (setBh f s).ev = s.ev := rfl
@[simp] theorem setBh_cmd (f : BhSt → BhSt) (s : State) : (setBh f s).cmd = s.cmd := rfl
@[simp] theorem setBh_hl (f : BhSt → BhSt) (s : State) : (setBh f s).hl = s.hl := rfl
@[simp] theorem setBh_cl (f : BhSt → BhSt) (s : State) : (setBh f s).cl = s.cl := rfl
@[simp] theorem setBh_tr (f : BhSt → BhSt) (s : State) : (setBh f s).tr = s.tr := rfl
@[simp] theorem setBh_mem (f : BhSt → BhSt) (s : State) : (setBh f s).mem = s.mem := rfl
@[simp] theorem setBh_poison (f : BhSt → BhSt) (s : State) : (setBh f s).poison = s.poison := rfl
@[simp] theorem setBh_queues (f : BhSt → BhSt) (s : State) : (setBh f s).queues = s.queues := rfl
@[simp] theorem setBh_port (f : BhSt → BhSt) (s : State) : (setBh f s).port = s.port := rfl
@[simp] theorem setBh_bb (f : BhSt → BhSt) (s : State) : (setBh f s).bb = s.bb := rfl
@[simp] theorem setBh_dec (f : BhSt → BhSt) (s : State) : (setBh f s).dec = s.dec := rfl
@[simp] theorem setBh_nb (f : BhSt → BhSt) (s : State) : (setBh f s).nb = s.nb := rfl
@[simp] theorem setBh_lk (f : BhSt → BhSt) (s : State) : (setBh f s).lk = s.lk := rfl
@[simp] theorem setBh_clo (f : BhSt → BhSt) (s : State) : (setBh f s).clo = s.clo := rfl
@[simp] theorem setBh_bh (f : BhSt → BhSt) (s : State) : (setBh f s).bh = f s.bh := rfl
@[simp] theorem setBh_meas (f : BhSt → BhSt) (s : State) : (setBh f s).meas = s.meas := rfl
@[simp] theorem setBh_core (f : BhSt → BhSt) (s : State) : (setBh f s).core = s.core := rfl
@[simp] theorem setBh_con (f : BhSt → BhSt) (s : State) : (setBh f s).con = s.con := rfl
@[simp] theorem setBh_chain (f : BhSt → BhSt) (s : State) : (setBh f s).chain = s.chain := rfl
@[simp] theorem setBh_svc (f : BhSt → BhSt) (s : State) : (setBh f s).svc = s.svc := rfl
@[simp] theorem setBh_free (f : BhSt → BhSt) (s : State) : (setBh f s).free = s.free := rfl
@[simp] theorem setBh_out (f : BhSt → BhSt) (s : State) : (setBh f s).out = s.out := rfl

@[simp] theorem setMeas_pending (f : MeasSt → MeasSt) (s : State) : (setMeas f s).pending = s.pending := rfl
@[simp] theorem setMeas_phase (f : MeasSt → MeasSt) (s : State) : (setMeas f s).phase = s.phase := rfl
@[simp] theorem setMeas_regs (f : MeasSt → MeasSt) (s : State) : (setMeas f s).regs = s.regs := rfl
@[simp] theorem setMeas_shadow (f : MeasSt → MeasSt) (s : State) : (setMeas f s).shadow = s.shadow := rfl
@[simp] theorem setMeas_shadowLate (f : MeasSt → MeasSt) (s : State) : (setMeas f s).shadowLate = s.shadowLate := rfl
@[simp] theorem setMeas_w1c (f : MeasSt → MeasSt) (s : State) : (setMeas f s).w1c = s.w1c := rfl
@[simp] theorem setMeas_aon (f : MeasSt → MeasSt) (s : State) : (setMeas f s).aon = s.aon := rfl
@[simp] theorem setMeas_fuse (f : MeasSt → MeasSt) (s : State) : (setMeas f s).fuse = s.fuse := rfl
@[simp] theorem setMeas_pw (f : MeasSt → MeasSt) (s : State) : (setMeas f s).pw = s.pw := rfl
@[simp] theorem setMeas_clk (f : MeasSt → MeasSt) (s : State) : (setMeas f s).clk = s.clk := rfl
@[simp] theorem setMeas_ev (f : MeasSt → MeasSt) (s : State) : (setMeas f s).ev = s.ev := rfl
@[simp] theorem setMeas_cmd (f : MeasSt → MeasSt) (s : State) : (setMeas f s).cmd = s.cmd := rfl
@[simp] theorem setMeas_hl (f : MeasSt → MeasSt) (s : State) : (setMeas f s).hl = s.hl := rfl
@[simp] theorem setMeas_cl (f : MeasSt → MeasSt) (s : State) : (setMeas f s).cl = s.cl := rfl
@[simp] theorem setMeas_tr (f : MeasSt → MeasSt) (s : State) : (setMeas f s).tr = s.tr := rfl
@[simp] theorem setMeas_mem (f : MeasSt → MeasSt) (s : State) : (setMeas f s).mem = s.mem := rfl
@[simp] theorem setMeas_poison (f : MeasSt → MeasSt) (s : State) : (setMeas f s).poison = s.poison := rfl
@[simp] theorem setMeas_queues (f : MeasSt → MeasSt) (s : State) : (setMeas f s).queues = s.queues := rfl
@[simp] theorem setMeas_port (f : MeasSt → MeasSt) (s : State) : (setMeas f s).port = s.port := rfl
@[simp] theorem setMeas_bb (f : MeasSt → MeasSt) (s : State) : (setMeas f s).bb = s.bb := rfl
@[simp] theorem setMeas_dec (f : MeasSt → MeasSt) (s : State) : (setMeas f s).dec = s.dec := rfl
@[simp] theorem setMeas_nb (f : MeasSt → MeasSt) (s : State) : (setMeas f s).nb = s.nb := rfl
@[simp] theorem setMeas_lk (f : MeasSt → MeasSt) (s : State) : (setMeas f s).lk = s.lk := rfl
@[simp] theorem setMeas_clo (f : MeasSt → MeasSt) (s : State) : (setMeas f s).clo = s.clo := rfl
@[simp] theorem setMeas_bh (f : MeasSt → MeasSt) (s : State) : (setMeas f s).bh = s.bh := rfl
@[simp] theorem setMeas_meas (f : MeasSt → MeasSt) (s : State) : (setMeas f s).meas = f s.meas := rfl
@[simp] theorem setMeas_core (f : MeasSt → MeasSt) (s : State) : (setMeas f s).core = s.core := rfl
@[simp] theorem setMeas_con (f : MeasSt → MeasSt) (s : State) : (setMeas f s).con = s.con := rfl
@[simp] theorem setMeas_chain (f : MeasSt → MeasSt) (s : State) : (setMeas f s).chain = s.chain := rfl
@[simp] theorem setMeas_svc (f : MeasSt → MeasSt) (s : State) : (setMeas f s).svc = s.svc := rfl
@[simp] theorem setMeas_free (f : MeasSt → MeasSt) (s : State) : (setMeas f s).free = s.free := rfl
@[simp] theorem setMeas_out (f : MeasSt → MeasSt) (s : State) : (setMeas f s).out = s.out := rfl

@[simp] theorem setCon_pending (f : ConSt → ConSt) (s : State) : (setCon f s).pending = s.pending := rfl
@[simp] theorem setCon_phase (f : ConSt → ConSt) (s : State) : (setCon f s).phase = s.phase := rfl
@[simp] theorem setCon_regs (f : ConSt → ConSt) (s : State) : (setCon f s).regs = s.regs := rfl
@[simp] theorem setCon_shadow (f : ConSt → ConSt) (s : State) : (setCon f s).shadow = s.shadow := rfl
@[simp] theorem setCon_shadowLate (f : ConSt → ConSt) (s : State) : (setCon f s).shadowLate = s.shadowLate := rfl
@[simp] theorem setCon_w1c (f : ConSt → ConSt) (s : State) : (setCon f s).w1c = s.w1c := rfl
@[simp] theorem setCon_aon (f : ConSt → ConSt) (s : State) : (setCon f s).aon = s.aon := rfl
@[simp] theorem setCon_fuse (f : ConSt → ConSt) (s : State) : (setCon f s).fuse = s.fuse := rfl
@[simp] theorem setCon_pw (f : ConSt → ConSt) (s : State) : (setCon f s).pw = s.pw := rfl
@[simp] theorem setCon_clk (f : ConSt → ConSt) (s : State) : (setCon f s).clk = s.clk := rfl
@[simp] theorem setCon_ev (f : ConSt → ConSt) (s : State) : (setCon f s).ev = s.ev := rfl
@[simp] theorem setCon_cmd (f : ConSt → ConSt) (s : State) : (setCon f s).cmd = s.cmd := rfl
@[simp] theorem setCon_hl (f : ConSt → ConSt) (s : State) : (setCon f s).hl = s.hl := rfl
@[simp] theorem setCon_cl (f : ConSt → ConSt) (s : State) : (setCon f s).cl = s.cl := rfl
@[simp] theorem setCon_tr (f : ConSt → ConSt) (s : State) : (setCon f s).tr = s.tr := rfl
@[simp] theorem setCon_mem (f : ConSt → ConSt) (s : State) : (setCon f s).mem = s.mem := rfl
@[simp] theorem setCon_poison (f : ConSt → ConSt) (s : State) : (setCon f s).poison = s.poison := rfl
@[simp] theorem setCon_queues (f : ConSt → ConSt) (s : State) : (setCon f s).queues = s.queues := rfl
@[simp] theorem setCon_port (f : ConSt → ConSt) (s : State) : (setCon f s).port = s.port := rfl
@[simp] theorem setCon_bb (f : ConSt → ConSt) (s : State) : (setCon f s).bb = s.bb := rfl
@[simp] theorem setCon_dec (f : ConSt → ConSt) (s : State) : (setCon f s).dec = s.dec := rfl
@[simp] theorem setCon_nb (f : ConSt → ConSt) (s : State) : (setCon f s).nb = s.nb := rfl
@[simp] theorem setCon_lk (f : ConSt → ConSt) (s : State) : (setCon f s).lk = s.lk := rfl
@[simp] theorem setCon_clo (f : ConSt → ConSt) (s : State) : (setCon f s).clo = s.clo := rfl
@[simp] theorem setCon_bh (f : ConSt → ConSt) (s : State) : (setCon f s).bh = s.bh := rfl
@[simp] theorem setCon_meas (f : ConSt → ConSt) (s : State) : (setCon f s).meas = s.meas := rfl
@[simp] theorem setCon_core (f : ConSt → ConSt) (s : State) : (setCon f s).core = s.core := rfl
@[simp] theorem setCon_con (f : ConSt → ConSt) (s : State) : (setCon f s).con = f s.con := rfl
@[simp] theorem setCon_chain (f : ConSt → ConSt) (s : State) : (setCon f s).chain = s.chain := rfl
@[simp] theorem setCon_svc (f : ConSt → ConSt) (s : State) : (setCon f s).svc = s.svc := rfl
@[simp] theorem setCon_free (f : ConSt → ConSt) (s : State) : (setCon f s).free = s.free := rfl
@[simp] theorem setCon_out (f : ConSt → ConSt) (s : State) : (setCon f s).out = s.out := rfl

@[simp] theorem setChain_pending (f : ChainSt → ChainSt) (s : State) : (setChain f s).pending = s.pending := rfl
@[simp] theorem setChain_phase (f : ChainSt → ChainSt) (s : State) : (setChain f s).phase = s.phase := rfl
@[simp] theorem setChain_regs (f : ChainSt → ChainSt) (s : State) : (setChain f s).regs = s.regs := rfl
@[simp] theorem setChain_shadow (f : ChainSt → ChainSt) (s : State) : (setChain f s).shadow = s.shadow := rfl
@[simp] theorem setChain_shadowLate (f : ChainSt → ChainSt) (s : State) : (setChain f s).shadowLate = s.shadowLate := rfl
@[simp] theorem setChain_w1c (f : ChainSt → ChainSt) (s : State) : (setChain f s).w1c = s.w1c := rfl
@[simp] theorem setChain_aon (f : ChainSt → ChainSt) (s : State) : (setChain f s).aon = s.aon := rfl
@[simp] theorem setChain_fuse (f : ChainSt → ChainSt) (s : State) : (setChain f s).fuse = s.fuse := rfl
@[simp] theorem setChain_pw (f : ChainSt → ChainSt) (s : State) : (setChain f s).pw = s.pw := rfl
@[simp] theorem setChain_clk (f : ChainSt → ChainSt) (s : State) : (setChain f s).clk = s.clk := rfl
@[simp] theorem setChain_ev (f : ChainSt → ChainSt) (s : State) : (setChain f s).ev = s.ev := rfl
@[simp] theorem setChain_cmd (f : ChainSt → ChainSt) (s : State) : (setChain f s).cmd = s.cmd := rfl
@[simp] theorem setChain_hl (f : ChainSt → ChainSt) (s : State) : (setChain f s).hl = s.hl := rfl
@[simp] theorem setChain_cl (f : ChainSt → ChainSt) (s : State) : (setChain f s).cl = s.cl := rfl
@[simp] theorem setChain_tr (f : ChainSt → ChainSt) (s : State) : (setChain f s).tr = s.tr := rfl
@[simp] theorem setChain_mem (f : ChainSt → ChainSt) (s : State) : (setChain f s).mem = s.mem := rfl
@[simp] theorem setChain_poison (f : ChainSt → ChainSt) (s : State) : (setChain f s).poison = s.poison := rfl
@[simp] theorem setChain_queues (f : ChainSt → ChainSt) (s : State) : (setChain f s).queues = s.queues := rfl
@[simp] theorem setChain_port (f : ChainSt → ChainSt) (s : State) : (setChain f s).port = s.port := rfl
@[simp] theorem setChain_bb (f : ChainSt → ChainSt) (s : State) : (setChain f s).bb = s.bb := rfl
@[simp] theorem setChain_dec (f : ChainSt → ChainSt) (s : State) : (setChain f s).dec = s.dec := rfl
@[simp] theorem setChain_nb (f : ChainSt → ChainSt) (s : State) : (setChain f s).nb = s.nb := rfl
@[simp] theorem setChain_lk (f : ChainSt → ChainSt) (s : State) : (setChain f s).lk = s.lk := rfl
@[simp] theorem setChain_clo (f : ChainSt → ChainSt) (s : State) : (setChain f s).clo = s.clo := rfl
@[simp] theorem setChain_bh (f : ChainSt → ChainSt) (s : State) : (setChain f s).bh = s.bh := rfl
@[simp] theorem setChain_meas (f : ChainSt → ChainSt) (s : State) : (setChain f s).meas = s.meas := rfl
@[simp] theorem setChain_core (f : ChainSt → ChainSt) (s : State) : (setChain f s).core = s.core := rfl
@[simp] theorem setChain_con (f : ChainSt → ChainSt) (s : State) : (setChain f s).con = s.con := rfl
@[simp] theorem setChain_chain (f : ChainSt → ChainSt) (s : State) : (setChain f s).chain = f s.chain := rfl
@[simp] theorem setChain_svc (f : ChainSt → ChainSt) (s : State) : (setChain f s).svc = s.svc := rfl
@[simp] theorem setChain_free (f : ChainSt → ChainSt) (s : State) : (setChain f s).free = s.free := rfl
@[simp] theorem setChain_out (f : ChainSt → ChainSt) (s : State) : (setChain f s).out = s.out := rfl

@[simp] theorem setSvc_pending (f : SvcSt → SvcSt) (s : State) : (setSvc f s).pending = s.pending := rfl
@[simp] theorem setSvc_phase (f : SvcSt → SvcSt) (s : State) : (setSvc f s).phase = s.phase := rfl
@[simp] theorem setSvc_regs (f : SvcSt → SvcSt) (s : State) : (setSvc f s).regs = s.regs := rfl
@[simp] theorem setSvc_shadow (f : SvcSt → SvcSt) (s : State) : (setSvc f s).shadow = s.shadow := rfl
@[simp] theorem setSvc_shadowLate (f : SvcSt → SvcSt) (s : State) : (setSvc f s).shadowLate = s.shadowLate := rfl
@[simp] theorem setSvc_w1c (f : SvcSt → SvcSt) (s : State) : (setSvc f s).w1c = s.w1c := rfl
@[simp] theorem setSvc_aon (f : SvcSt → SvcSt) (s : State) : (setSvc f s).aon = s.aon := rfl
@[simp] theorem setSvc_fuse (f : SvcSt → SvcSt) (s : State) : (setSvc f s).fuse = s.fuse := rfl
@[simp] theorem setSvc_pw (f : SvcSt → SvcSt) (s : State) : (setSvc f s).pw = s.pw := rfl
@[simp] theorem setSvc_clk (f : SvcSt → SvcSt) (s : State) : (setSvc f s).clk = s.clk := rfl
@[simp] theorem setSvc_ev (f : SvcSt → SvcSt) (s : State) : (setSvc f s).ev = s.ev := rfl
@[simp] theorem setSvc_cmd (f : SvcSt → SvcSt) (s : State) : (setSvc f s).cmd = s.cmd := rfl
@[simp] theorem setSvc_hl (f : SvcSt → SvcSt) (s : State) : (setSvc f s).hl = s.hl := rfl
@[simp] theorem setSvc_cl (f : SvcSt → SvcSt) (s : State) : (setSvc f s).cl = s.cl := rfl
@[simp] theorem setSvc_tr (f : SvcSt → SvcSt) (s : State) : (setSvc f s).tr = s.tr := rfl
@[simp] theorem setSvc_mem (f : SvcSt → SvcSt) (s : State) : (setSvc f s).mem = s.mem := rfl
@[simp] theorem setSvc_poison (f : SvcSt → SvcSt) (s : State) : (setSvc f s).poison = s.poison := rfl
@[simp] theorem setSvc_queues (f : SvcSt → SvcSt) (s : State) : (setSvc f s).queues = s.queues := rfl
@[simp] theorem setSvc_port (f : SvcSt → SvcSt) (s : State) : (setSvc f s).port = s.port := rfl
@[simp] theorem setSvc_bb (f : SvcSt → SvcSt) (s : State) : (setSvc f s).bb = s.bb := rfl
@[simp] theorem setSvc_dec (f : SvcSt → SvcSt) (s : State) : (setSvc f s).dec = s.dec := rfl
@[simp] theorem setSvc_nb (f : SvcSt → SvcSt) (s : State) : (setSvc f s).nb = s.nb := rfl
@[simp] theorem setSvc_lk (f : SvcSt → SvcSt) (s : State) : (setSvc f s).lk = s.lk := rfl
@[simp] theorem setSvc_clo (f : SvcSt → SvcSt) (s : State) : (setSvc f s).clo = s.clo := rfl
@[simp] theorem setSvc_bh (f : SvcSt → SvcSt) (s : State) : (setSvc f s).bh = s.bh := rfl
@[simp] theorem setSvc_meas (f : SvcSt → SvcSt) (s : State) : (setSvc f s).meas = s.meas := rfl
@[simp] theorem setSvc_core (f : SvcSt → SvcSt) (s : State) : (setSvc f s).core = s.core := rfl
@[simp] theorem setSvc_con (f : SvcSt → SvcSt) (s : State) : (setSvc f s).con = s.con := rfl
@[simp] theorem setSvc_chain (f : SvcSt → SvcSt) (s : State) : (setSvc f s).chain = s.chain := rfl
@[simp] theorem setSvc_svc (f : SvcSt → SvcSt) (s : State) : (setSvc f s).svc = f s.svc := rfl
@[simp] theorem setSvc_free (f : SvcSt → SvcSt) (s : State) : (setSvc f s).free = s.free := rfl
@[simp] theorem setSvc_out (f : SvcSt → SvcSt) (s : State) : (setSvc f s).out = s.out := rfl

@[simp] theorem setPort_pending (p : Nat) (f : PortSt → PortSt) (s : State) : (setPort p f s).pending = s.pending := rfl
@[simp] theorem setPort_phase (p : Nat) (f : PortSt → PortSt) (s : State) : (setPort p f s).phase = s.phase := rfl
@[simp] theorem setPort_regs (p : Nat) (f : PortSt → PortSt) (s : State) : (setPort p f s).regs = s.regs := rfl
@[simp] theorem setPort_shadow (p : Nat) (f : PortSt → PortSt) (s : State) : (setPort p f s).shadow = s.shadow := rfl
@[simp] theorem setPort_shadowLate (p : Nat) (f : PortSt → PortSt) (s : State) : (setPort p f s).shadowLate = s.shadowLate := rfl
@[simp] theorem setPort_w1c (p : Nat) (f : PortSt → PortSt) (s : State) : (setPort p f s).w1c = s.w1c := rfl
@[simp] theorem setPort_aon (p : Nat) (f : PortSt → PortSt) (s : State) : (setPort p f s).aon = s.aon := rfl
@[simp] theorem setPort_fuse (p : Nat) (f : PortSt → PortSt) (s : State) : (setPort p f s).fuse = s.fuse := rfl
@[simp] theorem setPort_pw (p : Nat) (f : PortSt → PortSt) (s : State) : (setPort p f s).pw = s.pw := rfl
@[simp] theorem setPort_clk (p : Nat) (f : PortSt → PortSt) (s : State) : (setPort p f s).clk = s.clk := rfl
@[simp] theorem setPort_ev (p : Nat) (f : PortSt → PortSt) (s : State) : (setPort p f s).ev = s.ev := rfl
@[simp] theorem setPort_cmd (p : Nat) (f : PortSt → PortSt) (s : State) : (setPort p f s).cmd = s.cmd := rfl
@[simp] theorem setPort_hl (p : Nat) (f : PortSt → PortSt) (s : State) : (setPort p f s).hl = s.hl := rfl
@[simp] theorem setPort_cl (p : Nat) (f : PortSt → PortSt) (s : State) : (setPort p f s).cl = s.cl := rfl
@[simp] theorem setPort_tr (p : Nat) (f : PortSt → PortSt) (s : State) : (setPort p f s).tr = s.tr := rfl
@[simp] theorem setPort_mem (p : Nat) (f : PortSt → PortSt) (s : State) : (setPort p f s).mem = s.mem := rfl
@[simp] theorem setPort_poison (p : Nat) (f : PortSt → PortSt) (s : State) : (setPort p f s).poison = s.poison := rfl
@[simp] theorem setPort_queues (p : Nat) (f : PortSt → PortSt) (s : State) : (setPort p f s).queues = s.queues := rfl
@[simp] theorem setPort_port (p : Nat) (f : PortSt → PortSt) (s : State) : (setPort p f s).port = vSet s.port p (f (vAt s.port p)) := rfl
@[simp] theorem setPort_bb (p : Nat) (f : PortSt → PortSt) (s : State) : (setPort p f s).bb = s.bb := rfl
@[simp] theorem setPort_dec (p : Nat) (f : PortSt → PortSt) (s : State) : (setPort p f s).dec = s.dec := rfl
@[simp] theorem setPort_nb (p : Nat) (f : PortSt → PortSt) (s : State) : (setPort p f s).nb = s.nb := rfl
@[simp] theorem setPort_lk (p : Nat) (f : PortSt → PortSt) (s : State) : (setPort p f s).lk = s.lk := rfl
@[simp] theorem setPort_clo (p : Nat) (f : PortSt → PortSt) (s : State) : (setPort p f s).clo = s.clo := rfl
@[simp] theorem setPort_bh (p : Nat) (f : PortSt → PortSt) (s : State) : (setPort p f s).bh = s.bh := rfl
@[simp] theorem setPort_meas (p : Nat) (f : PortSt → PortSt) (s : State) : (setPort p f s).meas = s.meas := rfl
@[simp] theorem setPort_core (p : Nat) (f : PortSt → PortSt) (s : State) : (setPort p f s).core = s.core := rfl
@[simp] theorem setPort_con (p : Nat) (f : PortSt → PortSt) (s : State) : (setPort p f s).con = s.con := rfl
@[simp] theorem setPort_chain (p : Nat) (f : PortSt → PortSt) (s : State) : (setPort p f s).chain = s.chain := rfl
@[simp] theorem setPort_svc (p : Nat) (f : PortSt → PortSt) (s : State) : (setPort p f s).svc = s.svc := rfl
@[simp] theorem setPort_free (p : Nat) (f : PortSt → PortSt) (s : State) : (setPort p f s).free = s.free := rfl
@[simp] theorem setPort_out (p : Nat) (f : PortSt → PortSt) (s : State) : (setPort p f s).out = s.out := rfl

@[simp] theorem setCore_pending (n : Nat) (f : CoreSt → CoreSt) (s : State) : (setCore n f s).pending = s.pending := rfl
@[simp] theorem setCore_phase (n : Nat) (f : CoreSt → CoreSt) (s : State) : (setCore n f s).phase = s.phase := rfl
@[simp] theorem setCore_regs (n : Nat) (f : CoreSt → CoreSt) (s : State) : (setCore n f s).regs = s.regs := rfl
@[simp] theorem setCore_shadow (n : Nat) (f : CoreSt → CoreSt) (s : State) : (setCore n f s).shadow = s.shadow := rfl
@[simp] theorem setCore_shadowLate (n : Nat) (f : CoreSt → CoreSt) (s : State) : (setCore n f s).shadowLate = s.shadowLate := rfl
@[simp] theorem setCore_w1c (n : Nat) (f : CoreSt → CoreSt) (s : State) : (setCore n f s).w1c = s.w1c := rfl
@[simp] theorem setCore_aon (n : Nat) (f : CoreSt → CoreSt) (s : State) : (setCore n f s).aon = s.aon := rfl
@[simp] theorem setCore_fuse (n : Nat) (f : CoreSt → CoreSt) (s : State) : (setCore n f s).fuse = s.fuse := rfl
@[simp] theorem setCore_pw (n : Nat) (f : CoreSt → CoreSt) (s : State) : (setCore n f s).pw = s.pw := rfl
@[simp] theorem setCore_clk (n : Nat) (f : CoreSt → CoreSt) (s : State) : (setCore n f s).clk = s.clk := rfl
@[simp] theorem setCore_ev (n : Nat) (f : CoreSt → CoreSt) (s : State) : (setCore n f s).ev = s.ev := rfl
@[simp] theorem setCore_cmd (n : Nat) (f : CoreSt → CoreSt) (s : State) : (setCore n f s).cmd = s.cmd := rfl
@[simp] theorem setCore_hl (n : Nat) (f : CoreSt → CoreSt) (s : State) : (setCore n f s).hl = s.hl := rfl
@[simp] theorem setCore_cl (n : Nat) (f : CoreSt → CoreSt) (s : State) : (setCore n f s).cl = s.cl := rfl
@[simp] theorem setCore_tr (n : Nat) (f : CoreSt → CoreSt) (s : State) : (setCore n f s).tr = s.tr := rfl
@[simp] theorem setCore_mem (n : Nat) (f : CoreSt → CoreSt) (s : State) : (setCore n f s).mem = s.mem := rfl
@[simp] theorem setCore_poison (n : Nat) (f : CoreSt → CoreSt) (s : State) : (setCore n f s).poison = s.poison := rfl
@[simp] theorem setCore_queues (n : Nat) (f : CoreSt → CoreSt) (s : State) : (setCore n f s).queues = s.queues := rfl
@[simp] theorem setCore_port (n : Nat) (f : CoreSt → CoreSt) (s : State) : (setCore n f s).port = s.port := rfl
@[simp] theorem setCore_bb (n : Nat) (f : CoreSt → CoreSt) (s : State) : (setCore n f s).bb = s.bb := rfl
@[simp] theorem setCore_dec (n : Nat) (f : CoreSt → CoreSt) (s : State) : (setCore n f s).dec = s.dec := rfl
@[simp] theorem setCore_nb (n : Nat) (f : CoreSt → CoreSt) (s : State) : (setCore n f s).nb = s.nb := rfl
@[simp] theorem setCore_lk (n : Nat) (f : CoreSt → CoreSt) (s : State) : (setCore n f s).lk = s.lk := rfl
@[simp] theorem setCore_clo (n : Nat) (f : CoreSt → CoreSt) (s : State) : (setCore n f s).clo = s.clo := rfl
@[simp] theorem setCore_bh (n : Nat) (f : CoreSt → CoreSt) (s : State) : (setCore n f s).bh = s.bh := rfl
@[simp] theorem setCore_meas (n : Nat) (f : CoreSt → CoreSt) (s : State) : (setCore n f s).meas = s.meas := rfl
@[simp] theorem setCore_core (n : Nat) (f : CoreSt → CoreSt) (s : State) : (setCore n f s).core = vSet s.core n (f (vAt s.core n)) := rfl
@[simp] theorem setCore_con (n : Nat) (f : CoreSt → CoreSt) (s : State) : (setCore n f s).con = s.con := rfl
@[simp] theorem setCore_chain (n : Nat) (f : CoreSt → CoreSt) (s : State) : (setCore n f s).chain = s.chain := rfl
@[simp] theorem setCore_svc (n : Nat) (f : CoreSt → CoreSt) (s : State) : (setCore n f s).svc = s.svc := rfl
@[simp] theorem setCore_free (n : Nat) (f : CoreSt → CoreSt) (s : State) : (setCore n f s).free = s.free := rfl
@[simp] theorem setCore_out (n : Nat) (f : CoreSt → CoreSt) (s : State) : (setCore n f s).out = s.out := rfl

@[simp] theorem setObj_pending (a b : Nat) (v : W32) (s : State) : (setObj a b v s).pending = s.pending := rfl
@[simp] theorem setObj_phase (a b : Nat) (v : W32) (s : State) : (setObj a b v s).phase = s.phase := rfl
@[simp] theorem setObj_regs (a b : Nat) (v : W32) (s : State) : (setObj a b v s).regs = smPut regD (okey a b) v s.regs := rfl
@[simp] theorem setObj_shadow (a b : Nat) (v : W32) (s : State) : (setObj a b v s).shadow = s.shadow := rfl
@[simp] theorem setObj_shadowLate (a b : Nat) (v : W32) (s : State) : (setObj a b v s).shadowLate = s.shadowLate := rfl
@[simp] theorem setObj_w1c (a b : Nat) (v : W32) (s : State) : (setObj a b v s).w1c = s.w1c := rfl
@[simp] theorem setObj_aon (a b : Nat) (v : W32) (s : State) : (setObj a b v s).aon = s.aon := rfl
@[simp] theorem setObj_fuse (a b : Nat) (v : W32) (s : State) : (setObj a b v s).fuse = s.fuse := rfl
@[simp] theorem setObj_pw (a b : Nat) (v : W32) (s : State) : (setObj a b v s).pw = s.pw := rfl
@[simp] theorem setObj_clk (a b : Nat) (v : W32) (s : State) : (setObj a b v s).clk = s.clk := rfl
@[simp] theorem setObj_ev (a b : Nat) (v : W32) (s : State) : (setObj a b v s).ev = s.ev := rfl
@[simp] theorem setObj_cmd (a b : Nat) (v : W32) (s : State) : (setObj a b v s).cmd = s.cmd := rfl
@[simp] theorem setObj_hl (a b : Nat) (v : W32) (s : State) : (setObj a b v s).hl = s.hl := rfl
@[simp] theorem setObj_cl (a b : Nat) (v : W32) (s : State) : (setObj a b v s).cl = s.cl := rfl
@[simp] theorem setObj_tr (a b : Nat) (v : W32) (s : State) : (setObj a b v s).tr = s.tr := rfl
@[simp] theorem setObj_mem (a b : Nat) (v : W32) (s : State) : (setObj a b v s).mem = s.mem := rfl
@[simp] theorem setObj_poison (a b : Nat) (v : W32) (s : State) : (setObj a b v s).poison = s.poison := rfl
@[simp] theorem setObj_queues (a b : Nat) (v : W32) (s : State) : (setObj a b v s).queues = s.queues := rfl
@[simp] theorem setObj_port (a b : Nat) (v : W32) (s : State) : (setObj a b v s).port = s.port := rfl
@[simp] theorem setObj_bb (a b : Nat) (v : W32) (s : State) : (setObj a b v s).bb = s.bb := rfl
@[simp] theorem setObj_dec (a b : Nat) (v : W32) (s : State) : (setObj a b v s).dec = s.dec := rfl
@[simp] theorem setObj_nb (a b : Nat) (v : W32) (s : State) : (setObj a b v s).nb = s.nb := rfl
@[simp] theorem setObj_lk (a b : Nat) (v : W32) (s : State) : (setObj a b v s).lk = s.lk := rfl
@[simp] theorem setObj_clo (a b : Nat) (v : W32) (s : State) : (setObj a b v s).clo = s.clo := rfl
@[simp] theorem setObj_bh (a b : Nat) (v : W32) (s : State) : (setObj a b v s).bh = s.bh := rfl
@[simp] theorem setObj_meas (a b : Nat) (v : W32) (s : State) : (setObj a b v s).meas = s.meas := rfl
@[simp] theorem setObj_core (a b : Nat) (v : W32) (s : State) : (setObj a b v s).core = s.core := rfl
@[simp] theorem setObj_con (a b : Nat) (v : W32) (s : State) : (setObj a b v s).con = s.con := rfl
@[simp] theorem setObj_chain (a b : Nat) (v : W32) (s : State) : (setObj a b v s).chain = s.chain := rfl
@[simp] theorem setObj_svc (a b : Nat) (v : W32) (s : State) : (setObj a b v s).svc = s.svc := rfl
@[simp] theorem setObj_free (a b : Nat) (v : W32) (s : State) : (setObj a b v s).free = s.free := rfl
@[simp] theorem setObj_out (a b : Nat) (v : W32) (s : State) : (setObj a b v s).out = s.out := rfl

@[simp] theorem setQ_pending (q : Nat) (v : Que) (s : State) : (setQ q v s).pending = s.pending := rfl
@[simp] theorem setQ_phase (q : Nat) (v : Que) (s : State) : (setQ q v s).phase = s.phase := rfl
@[simp] theorem setQ_regs (q : Nat) (v : Que) (s : State) : (setQ q v s).regs = s.regs := rfl
@[simp] theorem setQ_shadow (q : Nat) (v : Que) (s : State) : (setQ q v s).shadow = s.shadow := rfl
@[simp] theorem setQ_shadowLate (q : Nat) (v : Que) (s : State) : (setQ q v s).shadowLate = s.shadowLate := rfl
@[simp] theorem setQ_w1c (q : Nat) (v : Que) (s : State) : (setQ q v s).w1c = s.w1c := rfl
@[simp] theorem setQ_aon (q : Nat) (v : Que) (s : State) : (setQ q v s).aon = s.aon := rfl
@[simp] theorem setQ_fuse (q : Nat) (v : Que) (s : State) : (setQ q v s).fuse = s.fuse := rfl
@[simp] theorem setQ_pw (q : Nat) (v : Que) (s : State) : (setQ q v s).pw = s.pw := rfl
@[simp] theorem setQ_clk (q : Nat) (v : Que) (s : State) : (setQ q v s).clk = s.clk := rfl
@[simp] theorem setQ_ev (q : Nat) (v : Que) (s : State) : (setQ q v s).ev = s.ev := rfl
@[simp] theorem setQ_cmd (q : Nat) (v : Que) (s : State) : (setQ q v s).cmd = s.cmd := rfl
@[simp] theorem setQ_hl (q : Nat) (v : Que) (s : State) : (setQ q v s).hl = s.hl := rfl
@[simp] theorem setQ_cl (q : Nat) (v : Que) (s : State) : (setQ q v s).cl = s.cl := rfl
@[simp] theorem setQ_tr (q : Nat) (v : Que) (s : State) : (setQ q v s).tr = s.tr := rfl
@[simp] theorem setQ_mem (q : Nat) (v : Que) (s : State) : (setQ q v s).mem = s.mem := rfl
@[simp] theorem setQ_poison (q : Nat) (v : Que) (s : State) : (setQ q v s).poison = s.poison := rfl
@[simp] theorem setQ_queues (q : Nat) (v : Que) (s : State) : (setQ q v s).queues = smPut (fun _ => que0) q v s.queues := rfl
@[simp] theorem setQ_port (q : Nat) (v : Que) (s : State) : (setQ q v s).port = s.port := rfl
@[simp] theorem setQ_bb (q : Nat) (v : Que) (s : State) : (setQ q v s).bb = s.bb := rfl
@[simp] theorem setQ_dec (q : Nat) (v : Que) (s : State) : (setQ q v s).dec = s.dec := rfl
@[simp] theorem setQ_nb (q : Nat) (v : Que) (s : State) : (setQ q v s).nb = s.nb := rfl
@[simp] theorem setQ_lk (q : Nat) (v : Que) (s : State) : (setQ q v s).lk = s.lk := rfl
@[simp] theorem setQ_clo (q : Nat) (v : Que) (s : State) : (setQ q v s).clo = s.clo := rfl
@[simp] theorem setQ_bh (q : Nat) (v : Que) (s : State) : (setQ q v s).bh = s.bh := rfl
@[simp] theorem setQ_meas (q : Nat) (v : Que) (s : State) : (setQ q v s).meas = s.meas := rfl
@[simp] theorem setQ_core (q : Nat) (v : Que) (s : State) : (setQ q v s).core = s.core := rfl
@[simp] theorem setQ_con (q : Nat) (v : Que) (s : State) : (setQ q v s).con = s.con := rfl
@[simp] theorem setQ_chain (q : Nat) (v : Que) (s : State) : (setQ q v s).chain = s.chain := rfl
@[simp] theorem setQ_svc (q : Nat) (v : Que) (s : State) : (setQ q v s).svc = s.svc := rfl
@[simp] theorem setQ_free (q : Nat) (v : Que) (s : State) : (setQ q v s).free = s.free := rfl
@[simp] theorem setQ_out (q : Nat) (v : Que) (s : State) : (setQ q v s).out = s.out := rfl

@[simp] theorem emit_pending (o : OutItem) (s : State) : (emit o s).pending = s.pending := rfl
@[simp] theorem emit_phase (o : OutItem) (s : State) : (emit o s).phase = s.phase := rfl
@[simp] theorem emit_regs (o : OutItem) (s : State) : (emit o s).regs = s.regs := rfl
@[simp] theorem emit_shadow (o : OutItem) (s : State) : (emit o s).shadow = s.shadow := rfl
@[simp] theorem emit_shadowLate (o : OutItem) (s : State) : (emit o s).shadowLate = s.shadowLate := rfl
@[simp] theorem emit_w1c (o : OutItem) (s : State) : (emit o s).w1c = s.w1c := rfl
@[simp] theorem emit_aon (o : OutItem) (s : State) : (emit o s).aon = s.aon := rfl
@[simp] theorem emit_fuse (o : OutItem) (s : State) : (emit o s).fuse = s.fuse := rfl
@[simp] theorem emit_pw (o : OutItem) (s : State) : (emit o s).pw = s.pw := rfl
@[simp] theorem emit_clk (o : OutItem) (s : State) : (emit o s).clk = s.clk := rfl
@[simp] theorem emit_ev (o : OutItem) (s : State) : (emit o s).ev = s.ev := rfl
@[simp] theorem emit_cmd (o : OutItem) (s : State) : (emit o s).cmd = s.cmd := rfl
@[simp] theorem emit_hl (o : OutItem) (s : State) : (emit o s).hl = s.hl := rfl
@[simp] theorem emit_cl (o : OutItem) (s : State) : (emit o s).cl = s.cl := rfl
@[simp] theorem emit_tr (o : OutItem) (s : State) : (emit o s).tr = s.tr := rfl
@[simp] theorem emit_mem (o : OutItem) (s : State) : (emit o s).mem = s.mem := rfl
@[simp] theorem emit_poison (o : OutItem) (s : State) : (emit o s).poison = s.poison := rfl
@[simp] theorem emit_queues (o : OutItem) (s : State) : (emit o s).queues = s.queues := rfl
@[simp] theorem emit_port (o : OutItem) (s : State) : (emit o s).port = s.port := rfl
@[simp] theorem emit_bb (o : OutItem) (s : State) : (emit o s).bb = s.bb := rfl
@[simp] theorem emit_dec (o : OutItem) (s : State) : (emit o s).dec = s.dec := rfl
@[simp] theorem emit_nb (o : OutItem) (s : State) : (emit o s).nb = s.nb := rfl
@[simp] theorem emit_lk (o : OutItem) (s : State) : (emit o s).lk = s.lk := rfl
@[simp] theorem emit_clo (o : OutItem) (s : State) : (emit o s).clo = s.clo := rfl
@[simp] theorem emit_bh (o : OutItem) (s : State) : (emit o s).bh = s.bh := rfl
@[simp] theorem emit_meas (o : OutItem) (s : State) : (emit o s).meas = s.meas := rfl
@[simp] theorem emit_core (o : OutItem) (s : State) : (emit o s).core = s.core := rfl
@[simp] theorem emit_con (o : OutItem) (s : State) : (emit o s).con = s.con := rfl
@[simp] theorem emit_chain (o : OutItem) (s : State) : (emit o s).chain = s.chain := rfl
@[simp] theorem emit_svc (o : OutItem) (s : State) : (emit o s).svc = s.svc := rfl
@[simp] theorem emit_free (o : OutItem) (s : State) : (emit o s).free = s.free := rfl
@[simp] theorem emit_out (o : OutItem) (s : State) : (emit o s).out = s.out ++ [o] := rfl

@[simp] theorem takeFree_pending (n : Nat) (s : State) : (takeFree n s).pending = s.pending := rfl
@[simp] theorem takeFree_phase (n : Nat) (s : State) : (takeFree n s).phase = s.phase := rfl
@[simp] theorem takeFree_regs (n : Nat) (s : State) : (takeFree n s).regs = s.regs := rfl
@[simp] theorem takeFree_shadow (n : Nat) (s : State) : (takeFree n s).shadow = s.shadow := rfl
@[simp] theorem takeFree_shadowLate (n : Nat) (s : State) : (takeFree n s).shadowLate = s.shadowLate := rfl
@[simp] theorem takeFree_w1c (n : Nat) (s : State) : (takeFree n s).w1c = s.w1c := rfl
@[simp] theorem takeFree_aon (n : Nat) (s : State) : (takeFree n s).aon = s.aon := rfl
@[simp] theorem takeFree_fuse (n : Nat) (s : State) : (takeFree n s).fuse = s.fuse := rfl
@[simp] theorem takeFree_pw (n : Nat) (s : State) : (takeFree n s).pw = s.pw := rfl
@[simp] theorem takeFree_clk (n : Nat) (s : State) : (takeFree n s).clk = s.clk := rfl
@[simp] theorem takeFree_ev (n : Nat) (s : State) : (takeFree n s).ev = s.ev := rfl
@[simp] theorem takeFree_cmd (n : Nat) (s : State) : (takeFree n s).cmd = s.cmd := rfl
@[simp] theorem takeFree_hl (n : Nat) (s : State) : (takeFree n s).hl = s.hl := rfl
@[simp] theorem takeFree_cl (n : Nat) (s : State) : (takeFree n s).cl = s.cl := rfl
@[simp] theorem takeFree_tr (n : Nat) (s : State) : (takeFree n s).tr = s.tr := rfl
@[simp] theorem takeFree_mem (n : Nat) (s : State) : (takeFree n s).mem = s.mem := rfl
@[simp] theorem takeFree_poison (n : Nat) (s : State) : (takeFree n s).poison = s.poison := rfl
@[simp] theorem takeFree_queues (n : Nat) (s : State) : (takeFree n s).queues = s.queues := rfl
@[simp] theorem takeFree_port (n : Nat) (s : State) : (takeFree n s).port = s.port := rfl
@[simp] theorem takeFree_bb (n : Nat) (s : State) : (takeFree n s).bb = s.bb := rfl
@[simp] theorem takeFree_dec (n : Nat) (s : State) : (takeFree n s).dec = s.dec := rfl
@[simp] theorem takeFree_nb (n : Nat) (s : State) : (takeFree n s).nb = s.nb := rfl
@[simp] theorem takeFree_lk (n : Nat) (s : State) : (takeFree n s).lk = s.lk := rfl
@[simp] theorem takeFree_clo (n : Nat) (s : State) : (takeFree n s).clo = s.clo := rfl
@[simp] theorem takeFree_bh (n : Nat) (s : State) : (takeFree n s).bh = s.bh := rfl
@[simp] theorem takeFree_meas (n : Nat) (s : State) : (takeFree n s).meas = s.meas := rfl
@[simp] theorem takeFree_core (n : Nat) (s : State) : (takeFree n s).core = s.core := rfl
@[simp] theorem takeFree_con (n : Nat) (s : State) : (takeFree n s).con = s.con := rfl
@[simp] theorem takeFree_chain (n : Nat) (s : State) : (takeFree n s).chain = s.chain := rfl
@[simp] theorem takeFree_svc (n : Nat) (s : State) : (takeFree n s).svc = s.svc := rfl
@[simp] theorem takeFree_free (n : Nat) (s : State) : (takeFree n s).free = s.free + n := rfl
@[simp] theorem takeFree_out (n : Nat) (s : State) : (takeFree n s).out = s.out := rfl

@[simp] theorem setClSt_pending (c : Nat) (v : ClSt) (s : State) : (setClSt c v s).pending = s.pending := rfl
@[simp] theorem setClSt_phase (c : Nat) (v : ClSt) (s : State) : (setClSt c v s).phase = s.phase := rfl
@[simp] theorem setClSt_regs (c : Nat) (v : ClSt) (s : State) : (setClSt c v s).regs = s.regs := rfl
@[simp] theorem setClSt_shadow (c : Nat) (v : ClSt) (s : State) : (setClSt c v s).shadow = s.shadow := rfl
@[simp] theorem setClSt_shadowLate (c : Nat) (v : ClSt) (s : State) : (setClSt c v s).shadowLate = s.shadowLate := rfl
@[simp] theorem setClSt_w1c (c : Nat) (v : ClSt) (s : State) : (setClSt c v s).w1c = s.w1c := rfl
@[simp] theorem setClSt_aon (c : Nat) (v : ClSt) (s : State) : (setClSt c v s).aon = s.aon := rfl
@[simp] theorem setClSt_fuse (c : Nat) (v : ClSt) (s : State) : (setClSt c v s).fuse = s.fuse := rfl
@[simp] theorem setClSt_pw (c : Nat) (v : ClSt) (s : State) : (setClSt c v s).pw = s.pw := rfl
@[simp] theorem setClSt_clk (c : Nat) (v : ClSt) (s : State) : (setClSt c v s).clk = s.clk := rfl
@[simp] theorem setClSt_ev (c : Nat) (v : ClSt) (s : State) : (setClSt c v s).ev = s.ev := rfl
@[simp] theorem setClSt_cmd (c : Nat) (v : ClSt) (s : State) : (setClSt c v s).cmd = s.cmd := rfl
@[simp] theorem setClSt_hl (c : Nat) (v : ClSt) (s : State) : (setClSt c v s).hl = s.hl := rfl
@[simp] theorem setClSt_tr (c : Nat) (v : ClSt) (s : State) : (setClSt c v s).tr = s.tr := rfl
@[simp] theorem setClSt_mem (c : Nat) (v : ClSt) (s : State) : (setClSt c v s).mem = s.mem := rfl
@[simp] theorem setClSt_poison (c : Nat) (v : ClSt) (s : State) : (setClSt c v s).poison = s.poison := rfl
@[simp] theorem setClSt_queues (c : Nat) (v : ClSt) (s : State) : (setClSt c v s).queues = s.queues := rfl
@[simp] theorem setClSt_port (c : Nat) (v : ClSt) (s : State) : (setClSt c v s).port = s.port := rfl
@[simp] theorem setClSt_bb (c : Nat) (v : ClSt) (s : State) : (setClSt c v s).bb = s.bb := rfl
@[simp] theorem setClSt_dec (c : Nat) (v : ClSt) (s : State) : (setClSt c v s).dec = s.dec := rfl
@[simp] theorem setClSt_nb (c : Nat) (v : ClSt) (s : State) : (setClSt c v s).nb = s.nb := rfl
@[simp] theorem setClSt_lk (c : Nat) (v : ClSt) (s : State) : (setClSt c v s).lk = s.lk := rfl
@[simp] theorem setClSt_clo (c : Nat) (v : ClSt) (s : State) : (setClSt c v s).clo = s.clo := rfl
@[simp] theorem setClSt_bh (c : Nat) (v : ClSt) (s : State) : (setClSt c v s).bh = s.bh := rfl
@[simp] theorem setClSt_meas (c : Nat) (v : ClSt) (s : State) : (setClSt c v s).meas = s.meas := rfl
@[simp] theorem setClSt_core (c : Nat) (v : ClSt) (s : State) : (setClSt c v s).core = s.core := rfl
@[simp] theorem setClSt_con (c : Nat) (v : ClSt) (s : State) : (setClSt c v s).con = s.con := rfl
@[simp] theorem setClSt_chain (c : Nat) (v : ClSt) (s : State) : (setClSt c v s).chain = s.chain := rfl
@[simp] theorem setClSt_svc (c : Nat) (v : ClSt) (s : State) : (setClSt c v s).svc = s.svc := rfl
@[simp] theorem setClSt_free (c : Nat) (v : ClSt) (s : State) : (setClSt c v s).free = s.free := rfl
@[simp] theorem setClSt_out (c : Nat) (v : ClSt) (s : State) : (setClSt c v s).out = s.out := rfl

@[simp] theorem setReg_pending (r : Nat) (f : RegionSt → RegionSt) (s : State) : (setReg r f s).pending = s.pending := rfl
@[simp] theorem setReg_phase (r : Nat) (f : RegionSt → RegionSt) (s : State) : (setReg r f s).phase = s.phase := rfl
@[simp] theorem setReg_regs (r : Nat) (f : RegionSt → RegionSt) (s : State) : (setReg r f s).regs = s.regs := rfl
@[simp] theorem setReg_shadow (r : Nat) (f : RegionSt → RegionSt) (s : State) : (setReg r f s).shadow = s.shadow := rfl
@[simp] theorem setReg_shadowLate (r : Nat) (f : RegionSt → RegionSt) (s : State) : (setReg r f s).shadowLate = s.shadowLate := rfl
@[simp] theorem setReg_w1c (r : Nat) (f : RegionSt → RegionSt) (s : State) : (setReg r f s).w1c = s.w1c := rfl
@[simp] theorem setReg_aon (r : Nat) (f : RegionSt → RegionSt) (s : State) : (setReg r f s).aon = s.aon := rfl
@[simp] theorem setReg_fuse (r : Nat) (f : RegionSt → RegionSt) (s : State) : (setReg r f s).fuse = s.fuse := rfl
@[simp] theorem setReg_pw (r : Nat) (f : RegionSt → RegionSt) (s : State) : (setReg r f s).pw = s.pw := rfl
@[simp] theorem setReg_clk (r : Nat) (f : RegionSt → RegionSt) (s : State) : (setReg r f s).clk = s.clk := rfl
@[simp] theorem setReg_ev (r : Nat) (f : RegionSt → RegionSt) (s : State) : (setReg r f s).ev = s.ev := rfl
@[simp] theorem setReg_cmd (r : Nat) (f : RegionSt → RegionSt) (s : State) : (setReg r f s).cmd = s.cmd := rfl
@[simp] theorem setReg_hl (r : Nat) (f : RegionSt → RegionSt) (s : State) : (setReg r f s).hl = s.hl := rfl
@[simp] theorem setReg_cl (r : Nat) (f : RegionSt → RegionSt) (s : State) : (setReg r f s).cl = s.cl := rfl
@[simp] theorem setReg_mem (r : Nat) (f : RegionSt → RegionSt) (s : State) : (setReg r f s).mem = s.mem := rfl
@[simp] theorem setReg_poison (r : Nat) (f : RegionSt → RegionSt) (s : State) : (setReg r f s).poison = s.poison := rfl
@[simp] theorem setReg_queues (r : Nat) (f : RegionSt → RegionSt) (s : State) : (setReg r f s).queues = s.queues := rfl
@[simp] theorem setReg_port (r : Nat) (f : RegionSt → RegionSt) (s : State) : (setReg r f s).port = s.port := rfl
@[simp] theorem setReg_bb (r : Nat) (f : RegionSt → RegionSt) (s : State) : (setReg r f s).bb = s.bb := rfl
@[simp] theorem setReg_dec (r : Nat) (f : RegionSt → RegionSt) (s : State) : (setReg r f s).dec = s.dec := rfl
@[simp] theorem setReg_nb (r : Nat) (f : RegionSt → RegionSt) (s : State) : (setReg r f s).nb = s.nb := rfl
@[simp] theorem setReg_lk (r : Nat) (f : RegionSt → RegionSt) (s : State) : (setReg r f s).lk = s.lk := rfl
@[simp] theorem setReg_clo (r : Nat) (f : RegionSt → RegionSt) (s : State) : (setReg r f s).clo = s.clo := rfl
@[simp] theorem setReg_bh (r : Nat) (f : RegionSt → RegionSt) (s : State) : (setReg r f s).bh = s.bh := rfl
@[simp] theorem setReg_meas (r : Nat) (f : RegionSt → RegionSt) (s : State) : (setReg r f s).meas = s.meas := rfl
@[simp] theorem setReg_core (r : Nat) (f : RegionSt → RegionSt) (s : State) : (setReg r f s).core = s.core := rfl
@[simp] theorem setReg_con (r : Nat) (f : RegionSt → RegionSt) (s : State) : (setReg r f s).con = s.con := rfl
@[simp] theorem setReg_chain (r : Nat) (f : RegionSt → RegionSt) (s : State) : (setReg r f s).chain = s.chain := rfl
@[simp] theorem setReg_svc (r : Nat) (f : RegionSt → RegionSt) (s : State) : (setReg r f s).svc = s.svc := rfl
@[simp] theorem setReg_free (r : Nat) (f : RegionSt → RegionSt) (s : State) : (setReg r f s).free = s.free := rfl
@[simp] theorem setReg_out (r : Nat) (f : RegionSt → RegionSt) (s : State) : (setReg r f s).out = s.out := rfl

end Sys2Proof.Machine
end

