-- ==== Sys2Proof/Machine/CoreBus.lean ====
section
/-!
DEFINITION. The port of an application core (16 R440 to R452): what one access of its program does to the state the block
holds. The command table has no row for an instruction of a core (log 71); CORE_ACCESS_FAULT and the rows of the core-local
registers are the accesses that it names.
-/
namespace Sys2Proof.Machine

/-- The number that bytes spell, least significant first, and its bytes (R441, 09 R273). -/
def leNat (b : Bytes) : Nat := beNat b.reverse
def leBytes (n v : Nat) : Bytes := (beBytes n v).reverse

/-- Accesses by the access fault they meet: LR, SC and AMO meet that of a store (R441). -/
inductive CoreAcc where
  | fetch
  | load
  | store
  | atomic
deriving DecidableEq, Repr

/-- Why an access traps: address-misaligned (R440), or an access fault (R441, R442, R452). -/
inductive CoreTrap where
  | misaligned (acc : CoreAcc)
  | fault (acc : CoreAcc)
deriving DecidableEq, Repr

/-- Where an address of a core lies (core address map). -/
inductive CorePlace where
  /-- The private scratchpad, and a core-local register, at an offset. -/
  | scratch (o : Nat)
  | reg (o : Nat)
  /-- The window of partition 7, at a Trellis address. -/
  | window (a : Nat)
  /-- The ring of a packet queue, at an offset. -/
  | ring (q o : Nat)
deriving DecidableEq, Repr

-- Rings as a core sees them.

/-- Core address of a unit of a queue's ring. -/
def ringAddr (q pos : Nat) : Nat := 0x50000000 + Config.ringBase q + 8 * (pos % qSize q)

/-- IN_HEAD: the length word of the oldest inbound packet (R447). -/
def inHead (s : State) (n : Nat) : Nat :=
  match (getQ s (0x10 + n)).pkts with | [] => 0 | p :: _ => ringAddr (0x10 + n) p.pos

/-- OUT_ADDR: the payload of the open packet, once its credits are held (R448). -/
def outAddr (s : State) (n : Nat) : Nat :=
  if outReady s n then ringAddr (0x14 + n) ((getQ s (0x14 + n)).wp + 1) else 0

/-- Bytes written to the open outbound packet. -/
def outBytes (s : State) (n len : Nat) : Bytes :=
  let q := 0x14 + n
  let lo := partBase s 4 + Config.ringBase q
  (List.range len).map (fun i => memByte s (lo + (8 * ((getQ s q).wp + 1) + i) % (8 * qSize q)))

/-- A ring offset lies in the payload of the core's open packet, which it may write (R442). -/
def inOpen (s : State) (n o len : Nat) : Bool :=
  match (coreOf s n).out with
  | none => false
  | some (_, bytes) =>
    let m := 8 * qSize (0x14 + n)
    let i := (o + m - (8 * ((getQ s (0x14 + n)).wp + 1)) % m) % m
    outReady s n && decide (i + len ≤ 8 * cdiv bytes 8)

-- The map (R442).

/-- The ring a core may read that holds an access (core address map). -/
def coreRing (n a len : Nat) : Option (Nat × Nat) :=
  ([0x10 + n, 0x14 + n].find? (fun q => decide (ringAddr q 0 ≤ a) && decide (a + len ≤ ringAddr q 0 + 8 * qSize q))).map
    (fun q => (q, a - ringAddr q 0))

/-- Where an access goes; none where the map and the core's window do not admit it (R441, R442). -/
def corePlace (s : State) (n : Nat) (acc : CoreAcc) (a len : Nat) : Option CorePlace :=
  if 0x40000000 ≤ a ∧ a < 0x50000000 then
    let t := partBase s 7 + (a - 0x40000000)
    if inWindow s n t len then some (.window t) else none
  else if acc = .atomic then none
  else if a + len ≤ 0x4000 then some (.scratch a)
  else if 0x01000000 ≤ a ∧ a < 0x01001000 then (if acc ≠ .fetch ∧ len = 4 then some (.reg (a - 0x01000000)) else none)
  else
    match coreRing n a len with
    | some (q, o) => if acc = .load ∨ (acc = .store ∧ q = 0x14 + n ∧ inOpen s n o len) then some (.ring q o) else none
    | none => none

-- Core-local registers.

/-- A core-local register as it reads; write-only and undefined offsets read zero. -/
def coreRegRead (s : State) (n o : Nat) : Nat :=
  let c := coreOf s n
  if o = 0 then c.mtimecmp.toNat % 2 ^ 32
  else if o = 4 then c.mtimecmp.toNat / 2 ^ 32
  else if o = 0x10 then intPend s n
  else if o = 0x14 then c.intEn.toNat
  else if o = 0x20 then inHead s n
  else if o = 0x2C then outAddr s n
  else if o = 0x58 then partBase s 7
  else 0

/-- The state a command leaves. -/
def afterCmd (f : State → Host.Outcome State Fault Refusal) (s : State) : State := match f s with | .next t => t | _ => s

/-- A write of a core-local register; other offsets ignore it. -/
def coreRegWrite (n : Fin 4) (o : Nat) (v : W32) (s : State) : State :=
  let c := coreOf s n.val
  if o = 0 then setCore n.val (fun c => { c with mtimecmp := (c.mtimecmp.extractLsb' 32 32) ++ v }) s
  else if o = 4 then setCore n.val (fun c => { c with mtimecmp := v ++ c.mtimecmp.extractLsb' 0 32 }) s
  else if o = 0x14 then setCore n.val (fun c => { c with intEn := v.truncate 4 }) s
  else if o = 0x18 then afterCmd (execIntClrWrite n v) s
  else if o = 0x24 then afterCmd (execInPopWrite n) s
  else if o = 0x28 then afterCmd (execOutReqWrite n v) s
  else if o = 0x30 then afterCmd (execOutCommitWrite n (outBytes s n.val ((c.out.map (fun e => e.2)).getD 0))) s
  else if o = 0x34 then afterCmd (execOutAbortWrite n) s
  else if o = 0x40 then afterCmd (execCjSubmitWrite n v) s
  else if o = 0x50 then afterCmd (execMboxWrite n v) s
  else if o = 0x54 then afterCmd (execMboxClrWrite n) s
  else if o = 0x5C then afterCmd (execWdogKickWrite n) s
  else s

/-- The interrupts of a core: MEIP, MTIP while TB ≥ MTIMECMP, and MSIP (core-local registers). -/
def coreIrqs (s : State) (n : Nat) : Bool × Bool × Bool :=
  (decide (intPend s n &&& (coreOf s n).intEn.toNat ≠ 0), decide ((coreOf s n).mtimecmp.toNat ≤ now s), (coreOf s n).msip)

/-- mhartid, time and timeh of a core (R440). -/
def coreCsr (s : State) (n : Nat) : Nat × Nat × Nat := (n, now s % 2 ^ 32, now s / 2 ^ 32 % 2 ^ 32)

-- Accesses.

/-- What an access leaves: the state, and its trap or the number read (0 for a store). -/
abbrev CoreDone := State × Sum CoreTrap Nat

/-- An access fault with its APP_FAULT (R452); mtval holds the core address. -/
def coreFaulted (n : Nat) (acc : CoreAcc) (poisoned : Bool) (pc : W32) (a : Nat) (s : State) : CoreDone :=
  (coreFaults n poisoned pc (BitVec.ofNat 32 a) s, .inl (.fault acc))

/-- The bytes at a place and whether a word of them was poisoned. -/
def placeRead (s : State) (n : Nat) (w : CorePlace) (len : Nat) : Bytes × Bool :=
  match w with
  | .scratch o => ((List.range len).map (fun i => smGet (fun _ => 0) (coreOf s n).scratch (o + i)), false)
  | .reg o => (leBytes len (coreRegRead s n o), false)
  | .window a => trReadData s a len
  | .ring q o => ((List.range len).map (fun i => ringByte s q (o + i)), isPoisoned s (partBase s 4 + Config.ringBase q + o) len)

/-- Bytes written to a place. -/
def placeWrite (n : Fin 4) (w : CorePlace) (b : Bytes) (s : State) : State :=
  match w with
  | .scratch o =>
    setCore n.val (fun c => { c with scratch := (b.zipIdx).foldl (fun m e => smPut (fun _ => 0) (o + e.2) e.1 m) c.scratch }) s
  | .reg o => coreRegWrite n o (BitVec.ofNat 32 (leNat b)) s
  | .window a => trWrite a b s
  | .ring q o => trWrite (partBase s 4 + Config.ringBase q + o) b s

/-- A load of 1, 2 or 4 bytes (R440 to R442, R452). -/
def coreLoad (n : Fin 4) (pc : W32) (a len : Nat) (s : State) : CoreDone :=
  if a % len ≠ 0 then (s, .inl (.misaligned .load))
  else match corePlace s n.val .load a len with
    | none => coreFaulted n.val .load false pc a s
    | some w =>
      let d := placeRead s n.val w len
      if d.2 then coreFaulted n.val .load true pc a s else (s, .inr (leNat d.1))

/-- A store of 1, 2 or 4 bytes (R440 to R442). -/
def coreStore (n : Fin 4) (pc : W32) (a len v : Nat) (s : State) : CoreDone :=
  if a % len ≠ 0 then (s, .inl (.misaligned .store))
  else match corePlace s n.val .store a len with
    | none => coreFaulted n.val .store false pc a s
    | some w => (placeWrite n w (leBytes len v) s, .inr 0)

/-- One indivisible read-modify-write of a word of partition 7 at its bank (R441): `f` gives, from the word, the number that
the instruction returns and the word it writes, if any. -/
def coreAtomic (n : Fin 4) (pc : W32) (a : Nat) (f : State → Nat → Nat × Option Nat) (s : State) : CoreDone :=
  if a % 4 ≠ 0 then (s, .inl (.misaligned .atomic))
  else match corePlace s n.val .atomic a 4 with
    | none => coreFaulted n.val .atomic false pc a s
    | some w =>
      let d := placeRead s n.val w 4
      if d.2 then coreFaulted n.val .atomic true pc a s
      else
        let r := f s (leNat d.1)
        (match r.2 with | some v => placeWrite n w (leBytes 4 v) s | none => s, .inr r.1)

/-- The AMO instructions of the A extension. -/
inductive Amo where
  | swap
  | add
  | xor
  | and
  | or
  | min
  | max
  | minu
  | maxu
deriving DecidableEq, Repr

/-- The word that an AMO writes, from the word in memory and the operand. -/
def amoWord (op : Amo) (x y : W32) : W32 :=
  match op with
  | .swap => y
  | .add => x + y
  | .xor => x ^^^ y
  | .and => x &&& y
  | .or => x ||| y
  | .min => if x.toInt ≤ y.toInt then x else y
  | .max => if x.toInt ≤ y.toInt then y else x
  | .minu => if x.toNat ≤ y.toNat then x else y
  | .maxu => if x.toNat ≤ y.toNat then y else x

/-- AMO on a word (R441): the word as it was. -/
def coreAmo (n : Fin 4) (pc : W32) (op : Amo) (a : Nat) (v : W32) (s : State) : CoreDone :=
  coreAtomic n pc a (fun _ x => (x, some (amoWord op (BitVec.ofNat 32 x) v).toNat)) s

/-- LR (R441): the word, and a reservation of it. -/
def coreLr (n : Fin 4) (pc : W32) (a : Nat) (s : State) : CoreDone :=
  match coreAtomic n pc a (fun _ x => (x, none)) s with
  | (s, .inr x) => (setCore n.val (fun c => { c with resv := some (a, x) }) s, .inr x)
  | r => r

/-- SC (R441): writes and returns 0 where the reservation names the word and the word has not changed since (log 128), else
returns 1. The reservation is gone either way. -/
def coreSc (n : Fin 4) (pc : W32) (a v : Nat) (s : State) : CoreDone :=
  let r := coreAtomic n pc a (fun s x => if (coreOf s n.val).resv = some (a, x) then (0, some v) else (1, none)) s
  (setCore n.val (fun c => { c with resv := none }) r.1, r.2)

/-- FENCE (R441): every write here is acknowledged in the step that makes it (09 R275), so nothing is waited for. -/
def coreFence (s : State) : State := s

/-- Words that the 16 KiB instruction cache holds (R441). -/
def icacheWords : Nat := 4096

/-- The fetch of a word (R441, R442): from the instruction cache where it holds the word, even when memory has changed since;
else from memory, and the cache keeps it. Which words stay is the device's (log 128). -/
def coreFetch (n : Fin 4) (a : Nat) (s : State) : CoreDone :=
  match (coreOf s n.val).icache.find? (fun e => decide (e.1 = a)) with
  | some e => (s, .inr e.2.toNat)
  | none =>
    match corePlace s n.val .fetch a 4 with
    | none => coreFaulted n.val .fetch false (BitVec.ofNat 32 a) a s
    | some w =>
      let d := placeRead s n.val w 4
      if d.2 then coreFaulted n.val .fetch true (BitVec.ofNat 32 a) a s
      else
        (setCore n.val (fun c => { c with icache := ((a, BitVec.ofNat 32 (leNat d.1)) :: c.icache).take icacheWords }) s,
          .inr (leNat d.1))

/-- FENCE.I (R441): the core's instruction cache is invalid. -/
def coreFenceI (n : Fin 4) (s : State) : State := setCore n.val (fun c => { c with icache := [] }) s

end Sys2Proof.Machine
end

