-- ==== Sys2Proof/Tests/Slice0.lean ====
section
/-!
SUPPORT. For every statement with hypotheses, a state and operands that meet them, clause by clause; ill-formed commands
that the check refuses; the manual's worked examples. A clause without hypotheses needs no witness.
-/
open Sys2Proof Sys2Proof.Machine

section
-- one theorem after another: each is a closed evaluation
set_option Elab.async false

/-- A request from a host link. -/
def rq (func : Byte) (params : Bytes) : Req := ⟨.host 0 0 none, 0, 0x80, func, params, 0⟩
theorem serves_of {op : Nat} {s : State} (h : accepting s = true) (h4 : lifeCycle s ≠ 4) : Serves op s :=
  ⟨h, fun h' => absurd h' h4⟩
def noFinds : ResetFindings := ⟨true, [], [], [], [], [], [], Vector.replicate 2 [], false, [], false, false, 0⟩
def meas0 : SoundMeas := ⟨0, Vector.replicate 2 0, Vector.replicate 2 0, Vector.replicate 2 (0, 0), Vector.replicate 16 (0, 0),
  Vector.replicate 6 0⟩
/-- The samples of a character on the chain. -/
def onChain (b : Byte) : CharSamples := 0 :: (List.range 8).map (fun i => if b.getLsbD (7 - i) then 7 else 0) ++ [7]
/-- A key slot with an all-zero key. -/
def slotOf (cls eui : Nat) : Bytes := List.replicate 16 0 ++ beBytes 8 eui ++ beBytes 1 cls ++ [0, 7, 0, 0, 0, 0, 0]
/-- The Cloche in service with a network key in slot 0 and the key of node 1, EUI-64 5, in slot 1. -/
def keyed : State :=
  setF 0x50 0x800 31 31 1 (setF 0x40 0x808 31 28 1 (setKeySlot 0 (slotOf 2 0) (setKeySlot 1 (slotOf 1 5) State.reset)))
/-- An iteration leaves posteriors alone that are all shortened bits. -/
theorem minSumIter_frozen {rate z : Nat} {frozen : Nat → Bool} {post : List Int} {msgs : List (List Int)}
    (h : ∀ i, i < post.length → frozen i = true) : (minSumIter rate z frozen post msgs).1 = post := by
  have put : ∀ (l : List ((Nat × Int) × Int)) (g : (Nat × Int) × Int → Int) (a : Array Int), a = post.toArray →
      l.foldl (fun p e => if frozen e.1.1 = true then p else p.setIfInBounds e.1.1 (g e)) a = post.toArray := by
    intro l g
    induction l with
    | nil => intro a ha; exact ha
    | cons e t ih =>
      intro a ha
      refine ih _ ?_
      dsimp only
      split
      · exact ha
      · rename_i hf
        have hs : post.length ≤ e.1.1 := Nat.le_of_not_lt fun hlt => hf (h _ hlt)
        subst ha
        exact Array.setIfInBounds_eq_of_size_le (by simpa using hs)
  have row : ∀ i msg, (minSumRow rate z i frozen post.toArray msg).1 = post.toArray := by
    intro i msg
    unfold minSumRow
    dsimp only
    generalize List.range z = l
    suffices H : ∀ (l : List Nat) (a : Array Int × List Int), a.1 = post.toArray → (l.foldl _ a).1 = post.toArray from
      H l _ rfl
    intro l
    induction l with
    | nil => intro a ha; exact ha
    | cons e t ih => intro a ha; exact ih _ (put _ (fun e => sat8 (e.1.2 + e.2)) _ ha)
  unfold minSumIter
  dsimp only
  generalize List.range (mbOf rate) = l
  suffices H : ∀ (l : List Nat) (a : Array Int × List (List Int)), a.1 = post.toArray →
      (l.foldl (fun a i => ((minSumRow rate z i frozen a.1 (msgs.getD i []).toArray).1,
        (minSumRow rate z i frozen a.1 (msgs.getD i []).toArray).2 :: a.2)) a).1 = post.toArray by
    rw [H l _ rfl]
  intro l
  induction l with
  | nil => intro a ha; exact ha
  | cons e t ih => intro a ha; exact ih _ (by dsimp only; rw [ha]; exact row _ _)
/-- A life-cycle request that carries the confirmation word. -/
def lcReq (src : Source) : Req := ⟨src, 0, 0x80, 0, beBytes 4 (Config.eui.toNat % 2 ^ 32), 0⟩
theorem beAt_beBytes4 (v : Nat) : beAt (beBytes 4 v) 0 4 = v % 2 ^ 32 := by
  have e : beAt (beBytes 4 v) 0 4 = (((0 * 256 + (BitVec.ofNat 8 (v >>> 24)).toNat) * 256 + (BitVec.ofNat 8 (v >>> 16)).toNat) * 256
    + (BitVec.ofNat 8 (v >>> 8)).toNat) * 256 + (BitVec.ofNat 8 (v >>> 0)).toNat := rfl
  rw [e]; simp only [BitVec.toNat_ofNat, Nat.shiftRight_eq_div_pow]; omega
theorem beAt_beBytes8 (v : Nat) : beAt (beBytes 8 v) 0 8 = v % 2 ^ 64 := by
  have e : beAt (beBytes 8 v) 0 8 = (((((((0 * 256 + (BitVec.ofNat 8 (v >>> 56)).toNat) * 256 + (BitVec.ofNat 8 (v >>> 48)).toNat) * 256
    + (BitVec.ofNat 8 (v >>> 40)).toNat) * 256 + (BitVec.ofNat 8 (v >>> 32)).toNat) * 256 + (BitVec.ofNat 8 (v >>> 24)).toNat) * 256
    + (BitVec.ofNat 8 (v >>> 16)).toNat) * 256 + (BitVec.ofNat 8 (v >>> 8)).toNat) * 256 + (BitVec.ofNat 8 (v >>> 0)).toNat := rfl
  rw [e]; simp only [BitVec.toNat_ofNat, Nat.shiftRight_eq_div_pow]; omega
theorem lcReq_confirms (src : Source) : beAt (lcReq src).params 0 4 = Config.eui.toNat % 2 ^ 32 := by
  show beAt (beBytes 4 _) 0 4 = _; rw [beAt_beBytes4, Nat.mod_mod]
theorem nodeOfEui_own (s : State) : nodeOfEui s (beAt (beBytes 8 Config.eui.toNat) 0 8) = some 0 := by
  have h : beAt (beBytes 8 Config.eui.toNat) 0 8 = Config.eui.toNat := by rw [beAt_beBytes8]; exact Nat.mod_eq_of_lt Config.eui.isLt
  unfold nodeOfEui; exact if_pos h
/-- A key-encryption key of generation 1. -/
def withKek : State := { State.reset with fuse := { State.reset.fuse with kekGen := 1, kek := [(1, List.replicate 32 0)] } }
def wrapped48 : Bytes := [45, 13, 57, 16, 214, 104, 121, 20, 191, 28, 111, 236, 184, 198, 151, 194, 62, 35, 74, 134, 75, 251,
  214, 108, 115, 102, 144, 176, 208, 93, 155, 250, 252, 196, 142, 59, 170, 119, 166, 33, 125, 236, 122, 252, 15, 210, 94,
  155, 80, 153, 24, 52, 80, 56, 156, 88]
def wrapped64 : Bytes := [220, 2, 75, 161, 112, 202, 179, 190, 191, 3, 234, 122, 62, 115, 217, 68, 94, 54, 55, 158, 207, 151, 34, 36, 95, 32, 22, 131, 134, 218, 140, 230, 114, 175, 146, 101, 120, 252, 89, 202, 9, 219, 152, 124, 115, 33, 228, 95, 98, 169, 41, 50, 85, 55, 177, 185, 224, 65, 161, 97, 223, 216, 103, 225, 68, 17, 189, 62, 206, 242, 1, 234]
theorem unwrap48 : (List.replicate 8 0 ++ [2, 1, 7, 0] ++ List.replicate 36 0, true) = kwUnwrap (List.replicate 32 0) wrapped48 := by
  decide +kernel
theorem unwrap64 : (List.replicate 8 0 ++ [2, 1, 7, 0, 0, 0, 0, 0] ++ List.replicate 48 0, true)
    = kwUnwrap (List.replicate 32 0) wrapped64 := by decide +kernel
/-- A deferred command waits. -/
def late (op : W16) (func : Byte) (aux : List Nat) (s : State) : State :=
  { s with cmd := { s.cmd with deferred := [⟨op, rq func [], aux⟩] } }
/-- A device in a life cycle, with a KEK. -/
def inLife (l : List (Fin 5)) : State := { withKek with fuse := { withKek.fuse with records := l } }
/-- The same, its KEK loaded in SERVICE. -/
def inService3 : State := { withKek with fuse := { withKek.fuse with records := [3], svcGens := [1] } }
def committed : State := setKeySlot 0 (slotOf 2 0) (inLife [1])
/-- A result that is no refusal has its parts. -/
theorem inr_of {α β γ δ : Type} {x : α × (β ⊕ (γ × δ))} (h : x.2.isRight = true) :
    x = (x.1, .inr ((x.2.getRight h).1, (x.2.getRight h).2)) := by
  obtain ⟨a, b | c⟩ := x
  · cases h
  · rfl

theorem witness_SupplyPinAndThermalResets :
  (∃ (s : State),
    s.phase ≠ .thermal)
  ∧ (∃ (s : State),
    s.phase = .thermal)
  ∧ (∃ (n : Nat) (s : State),
    2000 ≤ n ∧ tapHold s = false ∧ s.phase ≠ .thermal)
  ∧ (∃ (n : Nat),
    n ≤ 1000)
  ∧ (∃ (s : State),
    (s.phase = .heldInReset ∨ s.phase = .waitClocks))
  ∧ (∃ (s : State),
    s.phase = .resetRun)
  ∧ (∃ (s : State),
    s.phase = .running ∧ s.pw.resetSoon = true)
  ∧ (∃ (s : State),
    (s.phase = .running ∨ s.phase = .romHalt))
  ∧ (∃ (s : State),
    s.phase = .thermal ∧ 2 ≤ s.pw.cause.toNat)
  ∧ (∃ (s : State),
    s.phase = .thermal ∧ s.pw.cause.toNat ≤ 1) :=
  ⟨⟨State.reset, by decide +kernel⟩,
   ⟨({ State.reset with phase := .thermal }), by decide +kernel⟩,
   ⟨(2000), State.reset, by decide +kernel⟩,
   ⟨(1000), by decide +kernel⟩,
   ⟨({ State.reset with phase := .heldInReset }), by decide +kernel⟩,
   ⟨({ State.reset with phase := .resetRun }), by decide +kernel⟩,
   ⟨(setPw (fun p => { p with resetSoon := true }) State.reset), by decide +kernel⟩,
   ⟨State.reset, by decide +kernel⟩,
   ⟨(setPw (fun p => { p with cause := 3 }) { State.reset with phase := .thermal }), by decide +kernel⟩,
   ⟨(setPw (fun p => { p with cause := 1 }) { State.reset with phase := .thermal }), by decide +kernel⟩⟩

theorem witness_DomainsControllersAndFunctionReset :
  (∃ (d : Fin 30) (s : State),
    domOf s d.val = .on ∧ s.phase = .running)
  ∧ (∃ (s : State),
    s.phase ≠ .running)
  ∧ (∃ (temps : Vector Int 8) (s : State) (t : State) (hot : Bool),
    s.phase = .running ∧ t = ({ s with pw := { s.pw with temps := temps } } : State)
    ∧ (hot = (if tjHot t ≤ hottest t then true else if hottest t < tjHot t - 50 then false else isHot t)))
  ∧ (∃ (s : State),
    s.phase = .running ∧ s.pw.mcDown = false ∧ s.pw.mcLast = none)
  ∧ (∃ (s : State) (u : W64),
    s.phase = .running ∧ s.pw.mcDown = false ∧ s.pw.mcLast = some u ∧ now s < u.toNat + 400000000)
  ∧ (∃ (s : State),
    s.pw.mcDown = true)
  ∧ (∃ (s : State),
    s.pw.mcDown = true)
  ∧ (∃ (r : Fin 4) (s : State),
    objF s (0x7C + r.val) 0xF08 31 30 = 0)
  ∧ (∃ (r : Fin 4) (s : State),
    objF s (0x7C + r.val) 0xF08 31 30 = 1)
  ∧ (∃ (func : Byte) (s : State) (run : ResetRun) (t : State) (u : State),
    s.pw.resetting.find? (fun r => decide (r.func = func)) = some run
    ∧ s.cl.leaving.any (fun c => decide (cf c = func.toNat)) = false
    ∧ t = setPw (fun p => { p with resetting := p.resetting.filter (fun r => decide (r.func ≠ func)) }) s
    ∧ (trippedOf t func.toNat).isEmpty = true
    ∧ (u = (if run.hold then setPw (fun p => { p with held := p.held ++ [func] }) t else leaveReset func.toNat t)))
  ∧ (∃ (func : Byte) (s : State) (run : ResetRun) (t : State),
    s.pw.resetting.find? (fun r => decide (r.func = func)) = some run
    ∧ s.cl.leaving.any (fun c => decide (cf c = func.toNat)) = false
    ∧ t = setPw (fun p => { p with resetting := p.resetting.filter (fun r => decide (r.func ≠ func)) }) s
    ∧ (trippedOf t func.toNat).isEmpty = false)
  ∧ (∃ (func : Byte) (s : State) (run : ResetRun),
    s.pw.resetting.find? (fun r => decide (r.func = func)) = some run
    ∧ s.cl.leaving.any (fun c => decide (cf c = func.toNat)) = true) :=
  ⟨⟨(29), State.reset, by decide +kernel⟩,
   ⟨({ State.reset with phase := .asleep }), by decide +kernel⟩,
   ⟨(Vector.replicate 8 0), State.reset, _, _, by decide +kernel, rfl, rfl⟩,
   ⟨State.reset, by decide +kernel⟩,
   ⟨(setClk (fun c => { c with tb := 399999999 }) (setPw (fun p => { p with mcLast := some 0 }) State.reset)), 0,
    by decide +kernel⟩,
   ⟨(setPw (fun p => { p with mcDown := true }) State.reset), by decide +kernel⟩,
   ⟨(setPw (fun p => { p with mcDown := true }) State.reset), by decide +kernel⟩,
   ⟨0, State.reset, by decide +kernel⟩,
   ⟨0, (setF 0x7C 0xF08 31 30 1 State.reset), by decide +kernel⟩,
   ⟨(0x10), (setPw (fun p => { p with resetting := [⟨0x10, false, false, false, 0⟩] }) State.reset), (⟨0x10, false,
    false, false, 0⟩), _, _, by decide +kernel, by decide +kernel, rfl, by decide +kernel, rfl⟩,
   ⟨(0x10),
    (setDom 0 .tripped (setPw (fun p => { p with resetting := [⟨0x10, false, false, false, 0⟩] }) State.reset)),
    (⟨0x10, false, false, false, 0⟩), _, by decide +kernel, by decide +kernel, rfl, by decide +kernel⟩,
   ⟨(0x20),
    ({ (setPw (fun p => { p with resetting := [⟨0x20, false, false, false, 0⟩] }) State.reset) with cl := { State.reset.cl with leaving := [0] } }),
    (⟨0x20, false, false, false, 0⟩), by decide +kernel⟩⟩

theorem witness_ClockAndMainsCommands :
  (∃ (s : State),
    objF s 0x78 0xE09 31 31 = 1)
  ∧ (∃ (s : State),
    objF s 0x78 0xE09 29 29 = 1)
  ∧ (∃ (s : State),
    s.clk.refSlew = true)
  ∧ (∃ (ch : Fin 24) (s : State) (i : Nat) (k : Nat),
    measUp s = true ∧ (ch.val = refCh s ∨ ((altEn s || s.clk.onAlt) = true ∧ ch.val = altCh s))
    ∧ crossSlice s ch.val = some (i, k))
  ∧ (∃ (s : State) (c : Nat) (e : Int) (per : Nat),
    s.clk.c = some c ∧ (e = (match s.clk.track with | .locked | .slew | .chain => s.clk.err.getD 0 | _ => 0))
    ∧ per = ((s.clk.p : Int) + adjOf s.clk.p e).toNat)
  ∧ (∃ (s : State),
    (s.clk.track = .locked ∨ s.clk.track = .slew) ∧ missLimit s ≤ s.clk.missRun)
  ∧ (∃ (s : State),
    0 < s.clk.slew ∧ 10000 ≤ s.clk.slewTicks)
  ∧ (∃ (s : State),
    s.clk.slew < 0 ∧ 10000 ≤ s.clk.slewTicks) :=
  ⟨⟨State.reset, by decide +kernel⟩,
   ⟨(setF 0x78 0xE09 29 29 1 State.reset), by decide +kernel⟩,
   ⟨(setClk (fun c => { c with refSlew := true }) State.reset), by decide +kernel⟩,
   ⟨0, (setSlice 8 (fun x => { x with entry := some (63, 4), ph := .run }) State.reset), (63), (8), by decide +kernel⟩,
   ⟨(setClk (fun c => { c with c := some 0 }) State.reset), 0, _, _, by decide +kernel, rfl, rfl⟩,
   ⟨(setClk (fun c => { c with track := .slew, missRun := 15 }) State.reset), by decide +kernel⟩,
   ⟨(setClk (fun c => { c with slew := 1, slewTicks := 10000 }) State.reset), by decide +kernel⟩,
   ⟨(setClk (fun c => { c with slew := -1, slewTicks := 10000 }) State.reset), by decide +kernel⟩⟩

theorem witness_ChainSynchronizationCommands :
  (∃ (s : State),
    s.clk.track = .chain ∧ missLimit s ≤ s.clk.edgeMiss)
  ∧ (∃ (s : State),
    isMaster s = false)
  ∧ (∃ (s : State),
    isMaster s = true ∧ s.clk.driving = false)
  ∧ (∃ (s : State),
    isMaster s = true ∧ s.clk.annDue = true) :=
  ⟨⟨(setClk (fun c => { c with track := .chain, edgeMiss := 15 }) State.reset), by decide +kernel⟩,
   ⟨State.reset, by decide +kernel⟩,
   ⟨(setF 0x78 0xE08 31 31 1 State.reset), by decide +kernel⟩,
   ⟨(setClk (fun c => { c with annDue := true }) (setF 0x78 0xE08 31 31 1 State.reset)), by decide +kernel⟩⟩

theorem witness_SuperframeScheduleAndNodeCommands :
  (∃ (s : State),
    s.phase = .running ∧ s.clk.c.isSome = true ∧ s.clk.lockSeen = true ∧ s.clk.cycle.toNat % 2 = 0
    ∧ (s.clk.sfCount = 0 ∨ s.clk.sfCycle ≠ s.clk.cycle))
  ∧ (∃ (slot : Fin 16) (s : State) (t : State) (u : State),
    (s.phase = .running ∧ s.clk.lockSeen = true ∧ s.clk.sfCount ≠ 0)
    ∧ u = driversDue (setClk (fun c => { c with slot := slot, slotTb := s.clk.tb }) s)
    ∧ (t = testsBegin (opensEnd (if slot.val = 15 then lateWrites (now u) u else u))))
  ∧ (∃ (props : List Proposal) (opens : List NbOpening) (s : State) (t : State),
    s.pw.mcDown = false ∧ t = planSchedule props opens (preview s))
  ∧ (∃ (s : State),
    s.pw.mcDown = true)
  ∧ (∃ (node : BitVec 12) (seq : BitVec 12) (s : State) (t : TxFrame) (u : State),
                      (s.lk.tx.find? (fun t => decide (t.node = node) && decide (t.seq = some seq.toNat)
        && decide (t.st = .sent)) = some t
    ∧ t.sentSf + arqTo s + nHops s node.toNat - 1 ≤ sfNow s ∧ t.retx < arqRetry s)
    ∧ u = moveVa node.toNat (setTx t.id (fun t => { t with st := .queued, retx := t.retx + 1 }) (bumpF 0 0x70B 31 16 1 s)))
  ∧ (∃ (node : BitVec 12) (seq : BitVec 12) (s : State) (t : TxFrame),
                     s.lk.tx.find? (fun t => decide (t.node = node) && decide (t.seq = some seq.toNat)
        && decide (t.st = .sent)) = some t
    ∧ t.sentSf + arqTo s + nHops s node.toNat - 1 ≤ sfNow s ∧ arqRetry s ≤ t.retx)
  ∧ (∃ (g : Fin 6) (s : State) (e : Nat) (a : W64) (b : BitVec 6),
    (grpL s g.val).watch = some (e, a, b) ∧ e ≤ sfNow s)
  ∧ (∃ (node : BitVec 12) (s : State),
    nState s node.toNat = 2 ∧ lostN s ≤ nSilent s node.toNat ∧ node.toNat ≠ 0)
  ∧ (∃ (node : BitVec 12) (s : State) (n : Nat) (e : Nat × Nat × Nat),
    n = node.toNat ∧ s.lk.leaving.find? (fun e => e.1 == n) = some e ∧ nState s n = 4
    ∧ ((framesOf s n).isEmpty = true ∨ e.2.1 + 8 ≤ sfNow s)) :=
  ⟨⟨(setClk (fun c => { c with c := some 0, lockSeen := true }) State.reset), by decide +kernel⟩,
   ⟨0, (setClk (fun c => { c with lockSeen := true, sfCount := 1 }) State.reset), _, _, by decide +kernel, rfl, rfl⟩,
   ⟨[], [], State.reset, _, by decide +kernel, rfl⟩,
   ⟨(setPw (fun p => { p with mcDown := true }) State.reset), by decide +kernel⟩,
   ⟨(1), 0,
    (setClk (fun c => { c with sfCount := 100 }) (setLk (fun l => { l with tx := [{ (default : TxFrame) with node := 1, seq := some 0, st := .sent }] }) State.reset)),
    ({ (default : TxFrame) with node := 1, seq := some 0, st := .sent }), _, by decide +kernel, rfl⟩,
   ⟨(1), 0,
    (setClk (fun c => { c with sfCount := 100 }) (setLk (fun l => { l with tx := [{ (default : TxFrame) with node := 1, seq := some 0, st := .sent, retx := 15 }] }) State.reset)),
    ({ (default : TxFrame) with node := 1, seq := some 0, st := .sent, retx := 15 }), by decide +kernel⟩,
   ⟨(5), (setGrpL 5 (fun l => { l with watch := some (0, 0, 0) }) State.reset), 0, 0, 0, by decide +kernel⟩,
   ⟨(4094), (nSet 4094 8 2 0x4000 (nSet 4094 25 1 255 State.reset)), by decide +kernel⟩,
   ⟨(4094), (setLk (fun l => { l with leaving := [(4094, 0, 0)] }) (nSet 4094 8 2 0x8000 State.reset)), _, ((4094, 0,
    0)), rfl, by decide +kernel⟩⟩

theorem witness_EventCommands :
  (∃ (src : Fin 108) (s : State) (r : EvRec) (t : List EvRec) (u : State),
    collectorHeld s = false ∧ (vAt s.ev.srcs src.val).q = r :: t
    ∧ u = ({ s with ev := { s.ev with srcs := vSet s.ev.srcs src.val { vAt s.ev.srcs src.val with q := t } } } : State))
  ∧ (∃ (s : State),
    collectorHeld s = false)
  ∧ (∃ (s : State) (r : Bytes) (rest : List Bytes) (t : State),
    s.ev.unsent = r :: rest ∧ t = ({ s with ev := { s.ev with unsent := rest } } : State) ∧ eventPath t = false)
  ∧ (∃ (s : State) (r : Bytes) (rest : List Bytes) (t : State) (l : Nat),
    s.ev.unsent = r :: rest ∧ t = bumpF 0 0xE21 31 16 1 ({ s with ev := { s.ev with unsent := rest } } : State)
    ∧ eventPath { s with ev := { s.ev with unsent := rest } } = true ∧ objF t 0 0xE20 31 31 = 0
    ∧ eventLink t = some l)
  ∧ (∃ (s : State) (r : Bytes) (rest : List Bytes) (t : State),
    s.ev.unsent = r :: rest ∧ t = bumpF 0 0xE21 31 16 1 ({ s with ev := { s.ev with unsent := rest } } : State)
    ∧ eventPath { s with ev := { s.ev with unsent := rest } } = true ∧ objF t 0 0xE20 31 31 ≠ 0) :=
  ⟨⟨(107),
    ({ State.reset with ev := { State.reset.ev with srcs := vSet State.reset.ev.srcs 107 ⟨[default], 0, 0⟩ } }),
    default, [], _, by decide +kernel, by decide +kernel, rfl⟩,
   ⟨State.reset, by decide +kernel⟩,
   ⟨({ State.reset with ev := { State.reset.ev with unsent := [[]] } }), [], [], _, by decide +kernel, rfl,
    by decide +kernel⟩,
   ⟨(setF 0x5C 0x30 31 31 1 { State.reset with ev := { State.reset.ev with unsent := [[]] } }), [], [], _, 0,
    by decide +kernel, rfl, by decide +kernel⟩,
   ⟨(setF 0 0xE20 31 31 1 (setF 0 0xE20 29 24 62 { State.reset with ev := { State.reset.ev with unsent := [[]] }, aon := { State.reset.aon with addr := 62 } })),
    [], [], _, by decide +kernel, rfl, by decide +kernel⟩⟩

theorem witness_LinePortCommands :
  (∃ (p : Fin 6) (s : State),
    mayTransmit s = true ∧ funcDown s (pf p.val) = false ∧ portState s p.val = 0 ∧ coupler s p.val ≠ 0
    ∧ lifeCycle s ≠ 4)
  ∧ (∃ (p : Fin 6) (m : SoundMeas) (s : State) (start : W64) (r : Nat × Bytes),
    (portOf s p.val).checking = some start
    ∧ r = soundRecord s p.val m (objF s (pf p.val) 0x400 26 26 == 1) start)
  ∧ (∃ (p : Fin 6) (s : State) (t : State),
    funcDown s (pf p.val) = false
    ∧ t = setPort p.val (fun k => { k with clamps := k.clamps + 1 }) (bumpF (pf p.val) 0x404 31 16 1 s))
  ∧ (∃ (p : Fin 6) (s : State),
    funcDown s (pf p.val) = false)
  ∧ (∃ (p : Fin 6) (s : State),
    funcDown s (pf p.val) = false)
  ∧ (∃ (p : Fin 6) (s : State),
    funcDown s (pf p.val) = false ∧ objF s (pf p.val) 0x402 31 31 = 0)
  ∧ (∃ (p : Fin 6) (s : State),
    funcDown s (pf p.val) = false ∧ objF s (pf p.val) 0x402 31 31 ≠ 0 ∧ (portOf s p.val).pgaHeld = true)
  ∧ (∃ (p : Fin 6) (s : State) (g : Int),
    (funcDown s (pf p.val) = false ∧ objF s (pf p.val) 0x402 31 31 ≠ 0 ∧ (portOf s p.val).pgaHeld = false)
    ∧ g = objF s (pf p.val) 0x403 19 14)
  ∧ (∃ (p : Fin 6) (s : State),
    (portOf s p.val).fadeWait = true)
  ∧ (∃ (p : Fin 6) (s : State),
    (portOf s p.val).fadeAt.isSome = true) :=
  ⟨⟨(5), (setClk (fun c => { c with lockSeen := true, track := .locked }) (setF 0x15 0x400 31 30 1 State.reset)),
    by decide +kernel⟩,
   ⟨(5), meas0, (setPort 5 (fun k => { k with checking := some 0 }) State.reset), 0, _, by decide +kernel, rfl⟩,
   ⟨0, State.reset, _, by decide +kernel, rfl⟩,
   ⟨0, State.reset, by decide +kernel⟩,
   ⟨0, State.reset, by decide +kernel⟩,
   ⟨0, (setF 0x10 0x402 31 31 0 State.reset), by decide +kernel⟩,
   ⟨0, (setPort 0 (fun k => { k with pgaHeld := true }) (setF 0x10 0x402 31 31 1 State.reset)), by decide +kernel⟩,
   ⟨0, (setF 0x10 0x402 31 31 1 State.reset), _, by decide +kernel, rfl⟩,
   ⟨0, (setPort 0 (fun k => { k with fadeWait := true }) State.reset), by decide +kernel⟩,
   ⟨0, (setPort 0 (fun k => { k with fadeAt := some 0 }) State.reset), by decide +kernel⟩⟩

theorem witness_TransmitCommands :
  (∃ (g : Fin 6) (s : State) (b : TxBurst),
    (grpL s g.val).bursts.find? (fun b => !b.nb && decide (b.sf ≤ sfNow s)) = some b)
  ∧ (∃ (g : Fin 6) (ch : Fin 8) (s : State) (b : TxBurst),
    (grpL s g.val).bursts.find? (fun b => b.nb && b.chan == ch.val && decide (b.sf ≤ sfNow s)) = some b)
  ∧ (∃ (g : Fin 6) (node : BitVec 12) (nb : Bool) (s : State) (f : TxFrame),
    readyTx s g.val node.toNat nb = some f ∧ readTx f s = none)
  ∧ (∃ (g : Fin 6) (node : BitVec 12) (s : State) (f : TxFrame) (b : Bytes) (t : State) (a : Grant),
    readyTx s g.val node.toNat false = some f ∧ readTx f s = some (b, t) ∧ f.grant = some a)
  ∧ (∃ (g : Fin 6) (node : BitVec 12) (s : State) (f : TxFrame) (b : Bytes) (t : State),
    readyTx s g.val node.toNat false = some f ∧ readTx f s = some (b, t) ∧ f.grant = none)
  ∧ (∃ (g : Fin 6) (node : BitVec 12) (s : State) (f : TxFrame) (b : Bytes) (t : State) (o : OpenSt),
    readyTx s g.val node.toNat true = some f ∧ readTx f s = some (b, t)
    ∧ t.lk.opens.find? (fun o => o.group == g.val && o.kind == 1 && decide (o.node = node)) = some o)
  ∧ (∃ (g : Fin 6) (node : BitVec 12) (s : State) (f : TxFrame) (b : Bytes) (t : State),
    readyTx s g.val node.toNat true = some f ∧ readTx f s = some (b, t)
    ∧ t.lk.opens.find? (fun o => o.group == g.val && o.kind == 1 && decide (o.node = node)) = none) :=
  ⟨⟨0, (setGrpL 0 (fun l => { l with bursts := [default] }) State.reset), default, by decide +kernel⟩,
   ⟨0, 0, (setGrpL 0 (fun l => { l with bursts := [{ (default : TxBurst) with nb := true }] }) State.reset),
    ({ (default : TxBurst) with nb := true }), by decide +kernel⟩,
   ⟨0, 0, false,
    (setLk (fun l => { l with tx := [{ (default : TxFrame) with st := .ready, pos := some 0 }] }) State.reset),
    ({ (default : TxFrame) with st := .ready, pos := some 0 }), by decide +kernel⟩,
   ⟨0, 0,
    (setLk (fun l => { l with tx := [{ (default : TxFrame) with st := .ready, grant := some default }] }) State.reset),
    ({ (default : TxFrame) with st := .ready, grant := some default }), (_), (_), default, rfl, (rfl), rfl⟩,
   ⟨0, 0, (setLk (fun l => { l with tx := [{ (default : TxFrame) with st := .ready }] }) State.reset),
    ({ (default : TxFrame) with st := .ready }), (_), (_), rfl, (rfl), by decide +kernel⟩,
   ⟨0, 0,
    (setLk (fun l => { l with tx := [{ (default : TxFrame) with st := .ready, nb := true }], opens := [⟨0, 0, 0, 0, 1, 0, 0, false, 0⟩] }) State.reset),
    ({ (default : TxFrame) with st := .ready, nb := true }), (_), (_), (⟨0, 0, 0, 0, 1, 0, 0, false, 0⟩), rfl,
    (rfl), rfl⟩,
   ⟨0, 0, (setLk (fun l => { l with tx := [{ (default : TxFrame) with st := .ready, nb := true }] }) State.reset),
    ({ (default : TxFrame) with st := .ready, nb := true }), (_), (_), rfl, (rfl), by decide +kernel⟩⟩

theorem witness_BroadbandAcquisitionCommands :
  (∃ (g : Fin 6) (s : State),
    (rxOf s g.val).expect = true ∧ (rxOf s g.val).ph = .idle)
  ∧ (∃ (g : Fin 6) (rx : Rx) (s : State) (power : Nat → ℚ),
    (rxOf s g.val).ph = .sync ∧ power = syncPower s (groupSync s g.val) (rxPorts s g.val) rx)
  ∧ (∃ (g : Fin 6) (s : State),
    (rxOf s g.val).ph = .sync ∧ rxTb s ≤ (rxOf s g.val).det + 6144)
  ∧ (∃ (g : Fin 6) (s : State),
    (rxOf s g.val).ph = .sync ∧ (rxOf s g.val).det + 6144 ≤ rxTb s)
  ∧ (∃ (g : Fin 6) (s : State),
    ((rxOf s g.val).ph = .train ∨ (rxOf s g.val).ph = .fc ∨ (rxOf s g.val).ph = .payload)
    ∧ objF s 0 0x520 17 17 = 1)
  ∧ (∃ (g : Fin 6) (rx : Rx) (s : State) (x : GrpRx) (low : Bool) (off : ℚ) (con : List Nat) (w1 : State × List Nat) (w2 : State × List Nat) (t : Training) (us : List RxUser),
    x = rxOf s g.val ∧ x.ph = .train ∧ heard s x.t0 11263 = true ∧ low = lowBand s g.val
    ∧ off = x.preset + x.coarse ∧ con = quietPorts s (rxPorts s g.val) x.t0 2976 11264
    ∧ w1 = symbolWindows x.t0 2976 off rx con s ∧ w2 = symbolWindows x.t0 7072 off rx con w1.1
    ∧ t = training w2.1 low (masked s) x.gi (x.grants.map (·.1)) (quietPorts s (hearPorts s g.val) x.t0 2976 11264) con
        (w1.2.map (fun p => (p, 0)) ++ w2.2.map (fun p => (p, 1))) rx x.t0 off
    ∧ us = x.grants.zipIdx.map (fun e => trainedUser w2.1 low (masked w2.1) t (rxPorts w2.1 g.val) e.1 e.2)) :=
  ⟨⟨0, (setRx 0 (fun x => { x with expect := true }) State.reset), by decide +kernel⟩,
   ⟨0, default, (setRx 0 (fun x => { x with ph := .sync }) State.reset), _, by decide +kernel, rfl⟩,
   ⟨0, (setRx 0 (fun x => { x with ph := .sync }) State.reset), by decide +kernel⟩,
   ⟨0, (setRx 0 (fun x => { x with ph := .sync }) (setClk (fun c => { c with tb := 1000000000 }) State.reset)),
    by decide +kernel⟩,
   ⟨0, (setF 0 0x520 17 17 1 (setRx 0 (fun x => { x with ph := .payload }) State.reset)), by decide +kernel⟩,
   ⟨0, default,
    (setRx 0 (fun x => { x with ph := .train }) (setClk (fun c => { c with tb := 1000000000 }) State.reset)), _, _,
    _, _, _, _, _, _, rfl, by decide +kernel, by decide +kernel, rfl, rfl, rfl, rfl, rfl, rfl, rfl⟩⟩

theorem witness_BroadbandPayloadCommands :
  (∃ (g : Fin 6) (u : Fin 3) (rx : Rx) (s : State) (y : RxUser) (ui : Nat) (all : List (Nat × List Cx)) (w : State × List Nat) (v : State) (rest : List (Nat × List Cx)) (spec : List (Nat × List Cx)) (word : BitVec 144) (d : ℚ) (r : State × RxUser),
    ((rxOf s g.val).users.find? (fun y => y.u == u.val && y.present && !y.decided) = some y
    ∧ (rxOf s g.val).ph = .fc ∧ heard s (rxOf s g.val).t0 16383 = true)
    ∧ ui = (rxOf s g.val).chan.users.idxOf u.val
    ∧ all = heardSpectra s g.val (rxOf s g.val) rx (symOffset (rxOf s g.val) y) 12192
    ∧ w = fcWindows (rxOf s g.val) (symOffset (rxOf s g.val) y) rx (all.map Prod.fst) s
    ∧ v = addPrec 2000 (setRx g.val (fun x => { x with fcHit := some w.2 }) w.1)
    ∧ rest = all.filter (fun e => !w.2.contains e.1)
    ∧ (spec = (if rest.length < (rxOf s g.val).chan.users.length then [] else rest))
    ∧ word = fcDecoded (rxOf s g.val) (lowBand s g.val) (masked s) ui spec
    ∧ d = refinedOf (rxOf s g.val) (lowBand s g.val) (masked s) ui spec word
    ∧ (r = openFrame g.val { y with decided := true, refined := d, fc := some (fcOf word) } (fcOf word)
        (setLk (fun l => { l with present := l.present ++ [(g.val, (fcOf word).src)] })
          (bumpF 0 (0x528 + g.val) 15 0 1 (setRx g.val (fun x => { x with chan := { x.chan with
            rot := if x.grants.length ≤ 1 then x.chan.rot
              else x.chan.rot.set ui (x.chan.rot.getD ui 0 + d) } }) v)))))
  ∧ (∃ (g : Fin 6) (rx : Rx) (s : State) (x : GrpRx) (u : RxUser) (i : Nat) (o : Nat) (a : Nat) (off : ℚ) (svc : List Nat) (r : State × List Nat × Bool) (obs : RxObs) (v : State) (t : State),
    x = rxOf s g.val ∧ x.ph = .payload ∧ u = (x.users.filter (fun u => u.fc.isSome)).headD default ∧ i = x.seen
    ∧ o = 16384 + i * (4096 + giSamples (u.fc.getD default).gi) + giSamples (u.fc.getD default).gi - 96
    ∧ heard s x.t0 (o + 4095) = true ∧ a = x.t0 + 2 * o ∧ off = symOffset x u
    ∧ svc = quietPorts s ((rxPorts s g.val).filter (fun p => !nbit x.left.toNat p && x.chan.ests.any (fun e => e.port == p)))
        x.t0 o (o + 4096)
    ∧ (r = (if activeL s = 0 ∨ 12480 < rxTb s - a ∧ svc.any (fun p => decide ((rxOfPort rx p).length ≤ (rxTb s - a) / 2)) = true
        then (bumpF 0 0xF00 15 8 1 s, [], false)
        else svc.foldl (fun b p => portWindow g.val (binAt s a) p
          (quietEnergy s (rxOfPort rx p) x.t0 off o) (overCount s p (rxOfPort rx p) a) b) (s, [], false)))
    ∧ obs = ({ i := i, idx := slotAt s (symStart 0 x.t0 (u.fc.getD default).gi i) % 8, bin := binAt s a, ports := r.2.1
               y := (quietPorts s (x.chan.ests.map (·.port)) x.t0 o (o + 4096)).map (fun p =>
                 (p, spectrum s (lowBand s g.val) (rxOfPort rx p) x.t0 off o)) } : RxObs)
    ∧ (v = setRx g.val (fun x => { x with
        seen := i + 1, obs := x.obs ++ [obs], impAt := if r.2.2 then x.impAt ++ [i] else x.impAt }) r.1)
    ∧ t = declareSteps g.val (r.2.1.foldl (fun s' p => stepRun g.val i (stepRise x
          (((layouts x).filter (fun f => decide (i < f.nsym))).map (fun f => (f, symSoft v { f with obs := f.obs ++ [obs] } obs)))
          obs p) p s') v))
  ∧ (∃ (g : Fin 6) (u : Fin 3) (s : State) (f : RxFrame),
                s.dec.frames.find? (fun f => f.group == g.val && f.nb.isNone && f.uidx == u.val
        && f.owed && f.complete) = some f
    ∧ (s.dec.frames.filter (fun x => sameSlot x f)).all (fun x => x.cws.all (·.passed)) = true)
  ∧ (∃ (p : Fin 6) (rx : List Int) (s : State) (a : Nat) (eq : ℚ) (t : State),
    a = rxTb s - 8190 ∧ funcDown s (pf p.val) = false ∧ txIn s p.val a (rxTb s + 2) = false
    ∧ eq = quietEnergy s rx a 0 0 ∧ t = impUpdate p.val (binAt s a) false (floorUpdate p.val eq s)) :=
  ⟨⟨0, 0, default,
    (setRx 0 (fun x => { x with ph := .fc, users := [{ (default : RxUser) with present := true }] }) (setClk (fun c => { c with tb := 1000000000 }) State.reset)),
    ({ (default : RxUser) with present := true }), _, _, _, _, _, _, _, _, _, by decide +kernel, rfl, rfl, rfl,
    rfl, rfl, rfl, rfl, rfl, rfl⟩,
   ⟨0, default,
    (setRx 0 (fun x => { x with ph := .payload }) (setClk (fun c => { c with tb := 1000000000 }) State.reset)), _,
    _, _, _, _, _, _, _, _, _, _, rfl, by decide +kernel, rfl, rfl, rfl, by decide +kernel, rfl, rfl, rfl, rfl,
    rfl, rfl, rfl⟩,
   ⟨0, 0,
    (setDec (fun d => { d with frames := [{ (default : RxFrame) with owed := true, complete := true }] }) State.reset),
    ({ (default : RxFrame) with owed := true, complete := true }), by decide +kernel⟩,
   ⟨0, [], State.reset, _, _, _, rfl, by decide +kernel, by decide +kernel, rfl, rfl⟩⟩

theorem witness_DecoderCommands :
  (∃ (frame : Nat) (cw : Nat) (cluster : Fin 20) (s : State) (f : RxFrame) (w : DecCw),
    decFrame s frame = some f ∧ w = f.cws.getD cw (newCw 0) ∧ nextCw s = some (frame, cw)
    ∧ clUsable s cluster.val = true ∧ restartPlace s w cluster.val = true
    ∧ ((if f.nb.isSome then !nbOn s cluster.val else decide (cwsOn s cluster.val = 0)) = true))
  ∧ (∃ (frame : Nat) (s : State) (f : RxFrame),
    decFrame s frame = some f ∧ f.round + 1 < f.rounds ∧ f.cws.any (fun w => decide (w.ph = .roundEnd)) = true
    ∧ barrier s f = true)
  ∧ (∃ (frame : Nat) (cw : Nat) (s : State) (f : RxFrame) (c : Nat) (v : DecCw) (w : DecCw) (x : List Int × List (List Int)) (t : State),
    decFrame s frame = some f ∧ cw < f.cws.length ∧ v = f.cws.getD cw (newCw 0)
    ∧ (v.ph = .running c ∨ v.ph = .reprieved c) ∧ (f.nb.isNone && nbOn s c) = false
    ∧ x = minSumIter f.rate (zOf f) (frozenOf f cw) v.post v.msg
    ∧ parityOk f.rate (zOf f) (hardBits x.1).toArray = true
    ∧ w = { v with
        post := x.1, msg := x.2, iters := v.iters + 1, left := v.left - 1, passed := true, ph := .converged, ckpt := false }
    ∧ (t = restUnit c (if f.nb.isSome then addPrec 100 s else s)))
  ∧ (∃ (frame : Nat) (cw : Nat) (s : State) (f : RxFrame) (c : Nat) (v : DecCw),
    decFrame s frame = some f ∧ v = f.cws.getD cw (newCw 0) ∧ (v.ph = .running c ∨ v.ph = .reprieved c)
    ∧ (f.nb.isNone && nbOn s c) = true)
  ∧ (∃ (frame : Nat) (cw : Nat) (s : State) (f : RxFrame) (c : Nat) (v : DecCw) (w : DecCw) (x : List Int × List (List Int)) (t : State) (u : State),
    decFrame s frame = some f ∧ cw < f.cws.length ∧ v = f.cws.getD cw (newCw 0)
    ∧ (v.ph = .running c ∨ v.ph = .reprieved c) ∧ (f.nb.isNone && nbOn s c) = false
    ∧ x = minSumIter f.rate (zOf f) (frozenOf f cw) v.post v.msg
    ∧ parityOk f.rate (zOf f) (hardBits x.1).toArray = false
    ∧ w = { v with post := x.1, msg := x.2, iters := v.iters + 1, left := v.left - 1, passed := true }
    ∧ (t = (if f.nb.isSome then addPrec 100 s else s)) ∧ (u = (if v.left ≤ 1 then restUnit c t else t)))
  ∧ (∃ (cluster : Fin 20) (s : State) (id : Nat) (c : Nat) (u : W64) (f : RxFrame),
    lagMode s = false ∧ (waitingCws s).isEmpty = true ∧ clUsable s cluster.val = true ∧ cwsOn s cluster.val = 0
    ∧ oldestWait ((reprieves s).filter (fun e => !reprieveOld s e)) = some (id, c, u) ∧ decFrame s id = some f)
  ∧ (∃ (s : State) (id : Nat) (c : Nat) (u : W64) (f : RxFrame),
    oldestWait ((reprieveQueue s).filter (reprieveOld s)) = some (id, c, u) ∧ decFrame s id = some f)
  ∧ (∃ (s : State) (id : Nat) (c : Nat) (u : W64),
    oldestWait (waitingCws s) = some (id, c, u) ∧ lagMode s = false ∧ u.toNat + lagTicks s < now s)
  ∧ (∃ (s : State),
    lagMode s = true ∧ oldestWait (waitingCws s) = none)
  ∧ (∃ (s : State) (id : Nat) (c : Nat) (u : W64),
    lagMode s = true ∧ oldestWait (waitingCws s) = some (id, c, u) ∧ 2 * (now s - u.toNat) < lagTicks s) :=
  ⟨⟨0, 0, (18),
    (setDec (fun d => { d with frames := [{ (default : RxFrame) with cws := [{ newCw 0 with ph := .waiting }] }] }) State.reset),
    ({ (default : RxFrame) with cws := [{ newCw 0 with ph := .waiting }] }), _, by decide +kernel, rfl,
    by decide +kernel⟩,
   ⟨0,
    (setDec (fun d => { d with frames := [{ (default : RxFrame) with rounds := 2, cws := [{ newCw 0 with ph := .roundEnd }] }] }) State.reset),
    ({ (default : RxFrame) with rounds := 2, cws := [{ newCw 0 with ph := .roundEnd }] }), by decide +kernel⟩,
   ⟨0, 0,
    (setDec (fun d => { d with frames := [{ (default : RxFrame) with nb := some 0, rate := 2, cws := [{ newCw 0 with ph := .running 0 }] }] }) State.reset),
    ({ (default : RxFrame) with nb := some 0, rate := 2, cws := [{ newCw 0 with ph := .running 0 }] }), 0, _, _, _,
    _, by decide +kernel, by decide +kernel, rfl, by decide +kernel, by decide +kernel, rfl,
    (by rw [minSumIter_frozen (by decide +kernel)]; decide +kernel), rfl, rfl⟩,
   ⟨0, 0,
    (setDec (fun d => { d with frames := [{ (default : RxFrame) with cws := [{ newCw 0 with ph := .running 0 }] }, { (default : RxFrame) with id := 1, nb := some 0, cws := [{ newCw 0 with ph := .running 0 }] }] }) State.reset),
    ({ (default : RxFrame) with cws := [{ newCw 0 with ph := .running 0 }] }), 0,
    ({ newCw 0 with ph := .running 0 }), by decide +kernel⟩,
   ⟨0, 0,
    (setDec (fun d => { d with frames := [{ (default : RxFrame) with nb := some 0, rate := 2, fit := [1, 240], cws := [{ newCw 0 with ph := .reprieved 0, post := [-1] }] }] }) State.reset),
    ({ (default : RxFrame) with nb := some 0, rate := 2, fit := [1, 240], cws := [{ newCw 0 with ph := .reprieved 0, post := [-1] }] }),
    0, _, _, _, _, _, by decide +kernel, by decide +kernel, rfl, by decide +kernel, by decide +kernel, rfl,
    (by rw [minSumIter_frozen (by decide +kernel)]; decide +kernel), rfl, rfl, rfl⟩,
   ⟨0,
    (setDec (fun d => { d with frames := [{ (default : RxFrame) with cws := [{ newCw 0 with ph := .reprieve }] }] }) State.reset),
    0, 0, 0, ({ (default : RxFrame) with cws := [{ newCw 0 with ph := .reprieve }] }), by decide +kernel⟩,
   ⟨(setClk (fun c => { c with tb := 1500001 }) (setDec (fun d => { d with frames := [{ (default : RxFrame) with cws := [{ newCw 0 with ph := .reprieve }] }] }) State.reset)),
    0, 0, 0, ({ (default : RxFrame) with cws := [{ newCw 0 with ph := .reprieve }] }), by decide +kernel⟩,
   ⟨(setClk (fun c => { c with tb := 1500001 }) (setDec (fun d => { d with frames := [{ (default : RxFrame) with cws := [{ newCw 0 with ph := .waiting }] }] }) State.reset)),
    0, 0, 0, by decide +kernel⟩,
   ⟨(setF 0 0x541 25 25 1 State.reset), by decide +kernel⟩,
   ⟨(setF 0 0x541 25 25 1 (setDec (fun d => { d with frames := [{ (default : RxFrame) with cws := [{ newCw 0 with ph := .waiting }] }] }) State.reset)),
    0, 0, 0, by decide +kernel⟩⟩

theorem witness_ClusterAndLaneCommands :
  (∃ (c : Fin 20) (unit : Fin 4) (err : BitVec 8) (s : State) (f : Nat) (u : State) (v : State) (sp : Nat),
    f = cf c.val ∧ clOf s c.val = .active ∧ funcDown s f = false
    ∧ u = setF f (0x10 + unit.val) 31 28 4 (setF f (0x10 + unit.val) 15 8 err.toNat (bumpF f (0x10 + unit.val) 23 16 1 s))
    ∧ v = setClSt c.val .retired u ∧ spareOf v (clRegion c.val) = some sp)
  ∧ (∃ (c : Fin 20) (unit : Fin 4) (err : BitVec 8) (s : State) (f : Nat) (u : State) (v : State),
    f = cf c.val ∧ clOf s c.val = .active ∧ funcDown s f = false
    ∧ u = setF f (0x10 + unit.val) 31 28 4 (setF f (0x10 + unit.val) 15 8 err.toNat (bumpF f (0x10 + unit.val) 23 16 1 s))
    ∧ v = setClSt c.val .retired u ∧ spareOf v (clRegion c.val) = none)
  ∧ (∃ (c : Fin 20) (s : State) (f : Nat),
    f = cf c.val ∧ clOf s c.val = .spare ∧ funcDown s f = false)
  ∧ (∃ (c : Fin 20) (s : State),
    clOf s c.val = .retired)
  ∧ (∃ (r : Fin 4) (s : State) (c : Nat) (f : Nat),
    (spareOf s r.val = some c ∧ clOf s c = .spare ∧ funcDown s f = false) ∧ f = cf c)
  ∧ (∃ (r : Fin 4) (s : State),
    objF s (0x7C + r.val) 0xF08 29 28 = 0 ∧ nbit (objF s (0x7C + r.val) 0xF08 23 7) 16 = false
    ∧ regionLost s r.val = false ∧ (regOf s r.val).sub = none)
  ∧ (∃ (i : Fin 40) (s : State),
    laneOf s false i.val = .spare)
  ∧ (∃ (i : Fin 40) (s : State),
    laneOf s true i.val = .spare)
  ∧ (∃ (l2d : Bool) (lane : Fin 40) (s : State) (sp : Nat),
    laneOf s l2d lane.val = .active ∧ spareLane s l2d = some sp)
  ∧ (∃ (l2d : Bool) (lane : Fin 40) (s : State),
    laneOf s l2d lane.val = .active ∧ spareLane s l2d = none)
  ∧ (∃ (s : State),
    capacityWord s ≠ getObj s 0 0x20)
  ∧ (∃ (s : State),
    capacityWord s = getObj s 0 0x20) :=
  ⟨⟨0, 0, 0, State.reset, _, _, _, (4), rfl, by decide +kernel, by decide +kernel, rfl, rfl, by decide +kernel⟩,
   ⟨0, 0, 0, (setClSt 4 .retired State.reset), _, _, _, rfl, by decide +kernel, by decide +kernel, rfl, rfl,
    by decide +kernel⟩,
   ⟨(4), State.reset, _, rfl, by decide +kernel⟩,
   ⟨(4), (setClSt 4 .retired State.reset), by decide +kernel⟩,
   ⟨(3), State.reset, (19), _, by decide +kernel, rfl⟩,
   ⟨0, State.reset, by decide +kernel⟩,
   ⟨(36), State.reset, by decide +kernel⟩,
   ⟨(39), State.reset, by decide +kernel⟩,
   ⟨false, (35), State.reset, (36), by decide +kernel⟩,
   ⟨(true), (39), ({ State.reset with cl := { State.reset.cl with l2d := Vector.replicate 40 .active } }),
    by decide +kernel⟩,
   ⟨(setF 0 0x20 31 0 1 State.reset), by decide +kernel⟩,
   ⟨(setObj 0 0x20 (capacityWord State.reset) State.reset), by decide +kernel⟩⟩

theorem witness_NarrowbandReceiveCommands :
  (∃ (g : Fin 6) (ch : Fin 8) (rx : Rx) (s : State) (x : NbRx) (ports : List Nat) (hits : List ℚ),
    x = nbOf s (nbI g.val ch.val) ∧ nbEnabled x.cfg = true ∧ x.ph = .idle
    ∧ ports = (nbRxPorts s g.val ch.val).filter (fun p => !txIn s p (rxTb s - (8 * nbT x.cfg).floor.toNat) (rxTb s + 2))
    ∧ hits = ports.filterMap (fun p => nbPortPower s p ch.val x.cfg rx))
  ∧ (∃ (g : Fin 6) (ch : Fin 8) (rx : Rx) (s : State) (x : NbRx) (ports : List Nat) (hits : List ℚ),
    x = nbOf s (nbI g.val ch.val) ∧ nbEnabled x.cfg = true ∧ x.ph = .sync
    ∧ ports = (nbRxPorts s g.val ch.val).filter (fun p => !txIn s p (rxTb s - (8 * nbT x.cfg).floor.toNat) (rxTb s + 2))
    ∧ hits = ports.filterMap (fun p => nbPortPower s p ch.val x.cfg rx))
  ∧ (∃ (g : Fin 6) (ch : Fin 8) (s : State) (x : NbRx),
    x = nbOf s (nbI g.val ch.val) ∧ x.ph = .sync ∧ winOver s x = false)
  ∧ (∃ (g : Fin 6) (ch : Fin 8) (s : State),
    (nbOf s (nbI g.val ch.val)).ph = .sync ∧ winOver s (nbOf s (nbI g.val ch.val)) = true)
  ∧ (∃ (g : Fin 6) (ch : Fin 8) (s : State) (x : NbRx) (w : BitVec 64) (h : NbHead) (fit : Fit) (nsym : Nat) (fin : Nat) (t : State) (f : RxFrame) (u : State),
    x = nbOf s (nbI g.val ch.val) ∧ x.ph = .header ∧ x.done = 240 ∧ w = (headDecoded x.soft).1 ∧ h = nbHeadOf w
    ∧ fit = fitNb h.rate (8 * h.len + 16) ∧ (nsym = cdiv fit.len (if h.mod then 2 else 1))
    ∧ fin = ((x.stamp : Rat) + (240 + nsym : Nat) * nbT x.cfg).floor.toNat
    ∧ t = setLk (fun l => { l with present := l.present ++ [(g.val, BitVec.ofNat 12 h.src)] }) (addPrec 2000 s)
    ∧ f = nbFrame t g.val ch.val x w fit nsym
    ∧ (u = (if h.dst = 0 ∨ h.dst = 4095 then
        setDec (fun d => { d with frames := d.frames ++ [f], nextId := f.id + 1 }) t else t)))
  ∧ (∃ (g : Fin 6) (ch : Fin 8) (rx : Rx) (s : State) (x : NbRx) (k : Nat) (w : ℚ × ℚ) (fines : List (Nat × List SieveOut)) (gains : List (Nat × Cx)) (keep : List (Nat × List SieveOut)) (z : List Cx) (around : List Cx) (t : State),
    x = nbOf s (nbI g.val ch.val) ∧ k = x.done ∧ (x.ph = .payload ∨ (x.ph = .header ∧ k < 240))
    ∧ w = nbSymSpan x.cfg x.stamp k ∧ w.2 + nbDelay x.cfg ≤ rxTb s
    ∧ fines = (nbHear s x.ports ch.val x.cfg).map (fun p => (p, nbFine s p ch.val x.cfg rx))
    ∧ (gains = (if k % 32 = 0 then nbGains (nbSpan s ch.val x.cfg fines (w.1 - 8 * nbT x.cfg) w.1) else x.gains))
    ∧ keep = fines.filter (fun e => !nbLeftOut s x ch.val e.1 k e.2 && gains.any (fun q => q.1 == e.1))
    ∧ z = nbCombine gains (nbSpan s ch.val x.cfg keep w.1 w.2)
    ∧ around = nbCombine gains (nbSpan s ch.val x.cfg keep (w.1 - nbT x.cfg) (w.2 + nbT x.cfg))
    ∧ (t = setNbRx (nbI g.val ch.val) (fun x => { (if keep.isEmpty then x else nbRuns s (rMean (z.map outPower)) x) with
        gains := gains }) s))
  ∧ (∃ (g : Fin 6) (ch : Fin 8) (s : State) (x : NbRx),
    x = nbOf s (nbI g.val ch.val) ∧ (x.ph = .header ∨ x.ph = .payload) ∧ x.armed = false ∧ 8 ≤ x.above)
  ∧ (∃ (g : Fin 6) (ch : Fin 8) (s : State) (x : NbRx) (t : State),
    x = nbOf s (nbI g.val ch.val) ∧ (x.armed = true ∧ (x.ph = .header ∨ x.ph = .payload)
    ∧ objF s 0 0x612 10 10 ≠ 0 ∧ winOver s x = false)
    ∧ (t = (match x.frame with | some id => abandonFrame id s | none => s)))
  ∧ (∃ (g : Fin 6) (ch : Fin 8) (s : State) (x : NbRx),
    x = nbOf s (nbI g.val ch.val) ∧ x.ph = .payload ∧ lossN s ≤ x.loss)
  ∧ (∃ (g : Fin 6) (ch : Fin 8) (s : State),
    (nbOf s (nbI g.val ch.val)).cfg ≠ getObj s 0 (0x600 + ch.val)
    ∧ ((nbOf s (nbI g.val ch.val)).ph = .idle ∨ (nbOf s (nbI g.val ch.val)).ph = .settle))
  ∧ (∃ (g : Fin 6) (ch : Fin 8) (s : State) (x : NbRx),
    x = nbOf s (nbI g.val ch.val) ∧ x.ph = .settle ∧ nbEnabled x.cfg = true
    ∧ (nbPorts s g.val).all (fun p => nbClean s p ch.val x.cfg) = true)
  ∧ (∃ (p : Fin 6) (ch : Fin 8) (rx : List Int) (s : State) (g : Nat) (k : Nat) (x : NbRx) (l : List ℚ),
    g = groupOf s p.val ∧ k = 8 * p.val + ch.val ∧ x = nbOf s (nbI g ch.val)
    ∧ l = ((gridIntervals false 1 (coarseOuts s p.val ch.val x.cfg rx)).headD []).map outPower
    ∧ (nbRxPorts s g ch.val).contains p.val = true ∧ x.ph = .idle ∧ nbEnabled x.cfg = true
    ∧ txIn s p.val (rxTb s - (2 * nbT x.cfg).floor.toNat) (rxTb s + 2) = false) :=
  ⟨⟨0, 0, default, (setNbRx 0 (fun x => { x with ph := .idle, cfg := 0xFFFFFFFF }) State.reset), _, _, _, rfl,
    by decide +kernel, by decide +kernel, rfl, rfl⟩,
   ⟨0, 0, default, (setNbRx 0 (fun x => { x with ph := .sync, cfg := 0xFFFFFFFF }) State.reset), _, _, _, rfl,
    by decide +kernel, by decide +kernel, rfl, rfl⟩,
   ⟨0, 0, (setNbRx 0 (fun x => { x with ph := .sync }) State.reset), _, rfl, by decide +kernel⟩,
   ⟨(5), (7),
    (setNbRx 47 (fun x => { x with ph := .sync }) (setClk (fun c => { c with tb := 1000000000 }) State.reset)),
    by decide +kernel⟩,
   ⟨0, 0, (setNbRx 0 (fun x => { x with ph := .header, done := 240 }) State.reset), _, _, _, _, _, _, _, _, _, rfl,
    by decide +kernel, by decide +kernel, rfl, rfl, rfl, rfl, rfl, rfl, rfl, rfl⟩,
   ⟨0, 0, default,
    (setNbRx 0 (fun x => { x with ph := .payload }) (setClk (fun c => { c with tb := 1000000000 }) State.reset)),
    _, _, _, _, _, _, _, _, _, rfl, rfl, by decide +kernel, rfl, by decide +kernel, rfl, rfl, rfl, rfl, rfl, rfl⟩,
   ⟨0, 0, (setNbRx 0 (fun x => { x with ph := .header, above := 8 }) State.reset), _, rfl, by decide +kernel⟩,
   ⟨0, 0, (setF 0 0x612 10 10 1 (setNbRx 0 (fun x => { x with ph := .header, armed := true }) State.reset)), _, _,
    rfl, by decide +kernel, rfl⟩,
   ⟨0, 0, (setNbRx 0 (fun x => { x with ph := .payload, loss := 60 }) State.reset), _, rfl, by decide +kernel⟩,
   ⟨0, 0, (setNbRx 0 (fun x => { x with ph := .idle, cfg := 0xFFFFFFFF }) State.reset), by decide +kernel⟩,
   ⟨0, 0,
    (setNbRx 0 (fun x => { x with ph := .settle, cfg := 0xFFFFFFFF }) (setClk (fun c => { c with tb := 1000000000 }) State.reset)),
    _, rfl, by decide +kernel⟩,
   ⟨0, 0, [],
    (setF 0x10 0x403 31 28 2 (setNbRx 0 (fun x => { x with ph := .idle, cfg := 0xFFFFFFFF }) (setClk (fun c => { c with tb := 1000000000 }) State.reset))),
    _, _, _, _, rfl, rfl, rfl, rfl, by decide +kernel⟩⟩

theorem witness_LinkFrameCommands :
  (∃ (s : State) (d : Delivered) (rest : List Delivered),
    s.lk.sealed = d :: rest ∧ linkTurn .up s = true ∧ linkLenOk d.bytes = false)
  ∧ (∃ (s : State) (d : Delivered) (rest : List Delivered) (p : LinkParts) (gone : State),
    (s.lk.sealed = d :: rest ∧ linkTurn .up s = true ∧ linkLenOk d.bytes = true) ∧ p = linkParts d.bytes
    ∧ gone = takeJob .up (setLk (fun l => { l with sealed := rest }) s) ∧ p.ct.length ≤ 65504 ∧ p.orig = 4095
    ∧ p.ty = 3)
  ∧ (∃ (s : State) (d : Delivered) (rest : List Delivered) (p : LinkParts) (gone : State) (t : Option Bytes) (r : State × Bool),
    (s.lk.sealed = d :: rest ∧ linkTurn .up s = true ∧ linkLenOk d.bytes = true) ∧ p = linkParts d.bytes
    ∧ gone = takeJob .up (setLk (fun l => { l with sealed := rest }) s) ∧ (p.ct.length ≤ 65504 ∧ p.orig ≠ 0
    ∧ p.orig ≠ 4095 ∧ nState s p.orig ≠ 0 ∧ kClass s (nKey s p.orig) = 1)
    ∧ t = tryOpen s (nKey s p.orig) (kEui s (nKey s p.orig)) p
    ∧ r = pushOpened d p (nKey s p.orig) (t.getD p.ct) (jobDone gone) ∧ r.2 = true)
  ∧ (∃ (s : State) (o : Opened) (rest : List Opened) (t : State),
    s.lk.opened = o :: rest ∧ t = setLk (fun l => { l with opened := rest }) s)
  ∧ (∃ (s : State) (o : Opened),
    nState s o.orig.toNat = 0)
  ∧ (∃ (s : State) (d : Delivered),
    s.lk.trial = some d ∧ objF s 0x50 0x800 31 31 ≠ 0 ∧ drbgDead s = false
    ∧ (List.range 16).any (fun e => onTrial s e) = true ∧ joinHit (linkParts d.bytes) s = none)
  ∧ (∃ (s : State) (d : Delivered) (n : Nat) (b : Bytes) (r : State × Bool),
    (s.lk.trial = some d ∧ objF s 0x50 0x800 31 31 ≠ 0 ∧ drbgDead s = false
    ∧ (List.range 16).any (fun e => onTrial s e) = true ∧ joinHit (linkParts d.bytes) s = some (n, b))
    ∧ r = pushOpened d (linkParts d.bytes) n b s ∧ r.2 = true)
  ∧ (∃ (s : State),
    objF s 0 0x700 15 15 = 1 ∧ (netSlot s).isSome = true ∧ s.pw.mcDown = false) :=
  ⟨⟨(setLk (fun l => { l with sealed := [{ (default : Delivered) with bytes := [] }] }) (setClo (fun c => { c with jobs := [.up] }) (keyed))),
    ({ (default : Delivered) with bytes := [] }), [], by decide +kernel⟩,
   ⟨(setF 0 0x700 15 15 1 (setLk (fun l => { l with sealed := [{ (default : Delivered) with bytes := [48, 255, 240, 0, 0, 0, 0, 0, 0, 0, 1, 0, 0, 0, 0, 0, 0, 0, 0] }] }) (setClo (fun c => { c with jobs := [.up] }) (keyed)))),
    ({ (default : Delivered) with bytes := [48, 255, 240, 0, 0, 0, 0, 0, 0, 0, 1, 0, 0, 0, 0, 0, 0, 0, 0] }), [],
    _, _, by decide +kernel, rfl, rfl, by decide +kernel⟩,
   ⟨(setLk (fun l => { l with sealed := [{ (default : Delivered) with bytes := [16, 0, 16, 0, 0, 0, 0, 0, 0, 0, 1, 86, 242, 40, 29, 127, 172, 141, 106] }] }) (nSet 1 8 2 0x4000 (nSet 1 26 2 1 (setClo (fun c => { c with jobs := [.up] }) (keyed))))),
    ({ (default : Delivered) with bytes := [16, 0, 16, 0, 0, 0, 0, 0, 0, 0, 1, 86, 242, 40, 29, 127, 172, 141, 106] }),
    [], _, _, _, _, by decide +kernel, rfl, rfl, by decide +kernel, rfl, rfl, by decide +kernel⟩,
   ⟨(setLk (fun l => { l with opened := [default] }) State.reset), (default), [], _, by decide +kernel, rfl⟩,
   ⟨State.reset, ({ (default : Opened) with orig := 1 }), by decide +kernel⟩,
   ⟨(setLk (fun l => { l with trial := some { (default : Delivered) with bytes := [] } }) (setClo (fun c => { c with eng := vSet c.eng 0 (some ⟨.trial, [], [], [], [], 0⟩) }) (keyed))),
    ({ (default : Delivered) with bytes := [] }), by decide +kernel⟩,
   ⟨(setLk (fun l => { l with trial := some { (default : Delivered) with bytes := [48, 255, 240, 0, 0, 0, 0, 0, 0, 0, 1, 71, 211, 185, 205, 91, 66, 199, 33, 62, 156, 165, 147, 104, 142, 59, 175, 162, 242] } }) (setClo (fun c => { c with eng := vSet c.eng 0 (some ⟨.trial, [], [], [], [], 0⟩) }) (keyed))),
    ({ (default : Delivered) with bytes := [48, 255, 240, 0, 0, 0, 0, 0, 0, 0, 1, 71, 211, 185, 205, 91, 66, 199, 33, 62, 156, 165, 147, 104, 142, 59, 175, 162, 242] }),
    (1), ([0, 0, 0, 0, 0, 0, 0, 5, 0, 0]), _, by decide +kernel, rfl, by decide +kernel⟩,
   ⟨(setF 0 0x700 15 15 1 keyed), by decide +kernel⟩⟩

theorem witness_TrellisMaintenanceCommands :
  (∃ (addr : BitVec 23) (data : List (Option Byte)) (s : State),
    data.length ≠ 0 ∧ addr.toNat % 64 + data.length ≤ 64 ∧ accessHeld s addr.toNat = false)
  ∧ (∃ (addr : BitVec 23) (data : List (Option Byte)) (s : State),
    data.length ≠ 0 ∧ addr.toNat % 64 + data.length ≤ 64 ∧ accessHeld s addr.toNat = true)
  ∧ (∃ (addr : BitVec 23) (data : List (Option Byte)),
    (data.length = 0 ∨ 64 < addr.toNat % 64 + data.length))
  ∧ (∃ (h : HeldAcc) (s : State) (t : State),
    t = chargeGrant h s
                                 ∧ ((regionLost t (place t h.addr.toNat).1 = true ∨
      mayAccess t h.client.toNat h.addr.toNat h.write = true))
    ∧ h.write = true)
  ∧ (∃ (h : HeldAcc) (s : State) (t : State),
    t = chargeGrant h s ∧ regionLost t (place t h.addr.toNat).1 = false
    ∧ mayAccess t h.client.toNat h.addr.toNat h.write = false)
  ∧ (∃ (r : Fin 4) (finds : List ScrubFind) (port : Option (Fin 17 × Bool)) (s : State) (t : State) (u : State),
    (objF s 0 0xF01 31 31 ≠ 0 ∧ objF s (0x7C + r.val) 0xF08 31 30 = 0 ∧ wipeOn s r.val = false)
    ∧ t = finds.foldl (fun t x => scrubFind r.val (regOf s r.val).scrubLine x t) s
    ∧ u = port.elim t (fun b => bankFailing r.val b.1.val b.2 t) ∧ (regOf s r.val).scrubLine ≠ 2047)
  ∧ (∃ (r : Fin 4) (finds : List ScrubFind) (port : Option (Fin 17 × Bool)) (s : State) (t : State) (u : State),
    (objF s 0 0xF01 31 31 ≠ 0 ∧ objF s (0x7C + r.val) 0xF08 31 30 = 0 ∧ wipeOn s r.val = false)
    ∧ t = finds.foldl (fun t x => scrubFind r.val (regOf s r.val).scrubLine x t) s
    ∧ u = port.elim t (fun b => bankFailing r.val b.1.val b.2 t) ∧ (regOf s r.val).scrubLine = 2047)
  ∧ (∃ (r : Nat) (s : State) (u : Subst) (t : State),
    ((regOf s r).sub = some u ∧ wipeOn s r = false ∧ u.answers = false)
    ∧ t = setReg r (fun g => { g with
          sub := none, fenced := g.fenced ||| BitVec.ofNat 17 (2 ^ u.idx.val), rebuild := some (u.idx, u.mirror) })
        (setF (0x7C + r) 0xF08 29 28 2 (setF (0x7C + r) 0xF08 27 24 u.idx.val
          (setF (0x7C + r) 0xF08 23 7 (objF s (0x7C + r) 0xF08 23 7 ||| 2 ^ u.idx.val) s))))
  ∧ (∃ (half : Fin 2) (s : State) (t : State),
    vAt s.tr.mirCopy half.val = true ∧ wipeOn s (mirLoc s half.val) = false
    ∧ t = setF (0x7C + mirLoc s half.val) 0xF08 6 6 0 { s with tr := { s.tr with
        mirCur := vSet s.tr.mirCur half.val true, mirCopy := vSet s.tr.mirCopy half.val false } })
  ∧ (∃ (r : Fin 4) (s : State) (i : Fin 17 × Bool),
    (regOf s r.val).rebuild = some i ∧ wipeOn s r.val = false)
  ∧ (∃ (s : State) (w : WipeRun) (t : State) (u : State) (v : State) (x : State),
    s.tr.wiping.find? (fun w => w.started) = some w
    ∧ t = ({ s with tr := { s.tr with wiping := s.tr.wiping.erase w } } : State)
    ∧ (u = (if objF t 0 0xF00 31 30 = 1 ∧ t.tr.wiping.all (fun y => !y.started) = true then setF 0 0xF00 31 30 0 t else t))
    ∧ (v = (if w.hi = trSize then coresDue u else u))
    ∧ (x = (match w.ask with | some (op, r) => sendReply op.toNat r stDone [] v | none => v))) :=
  ⟨⟨(0x7FFFFF), ([some 1]), State.reset, by decide +kernel⟩,
   ⟨(0x7FFFFF), ([some 1]), ({ State.reset with tr := { State.reset.tr with wiping := [⟨0, trSize, true, none⟩] } }),
    by decide +kernel⟩,
   ⟨0, [], by decide +kernel⟩,
   ⟨(⟨0x16, 0x480000, true, [some 1], [], 0, false, .fabric⟩), (setReg 0 (fun g => g) State.reset), _, rfl,
    by decide +kernel⟩,
   ⟨(⟨0x3F, 0, false, [none], [], 0, false, .fabric⟩), State.reset, _, rfl, by decide +kernel⟩,
   ⟨(3), [], none, (setF 0 0xF01 31 31 1 State.reset), _, _, by decide +kernel, rfl, rfl, by decide +kernel⟩,
   ⟨(3), [], none, (setReg 3 (fun g => { g with scrubLine := 2047 }) (setF 0 0xF01 31 31 1 State.reset)), _, _,
    by decide +kernel, rfl, rfl, by decide +kernel⟩,
   ⟨0, (setReg 0 (fun g => { g with sub := some ⟨15, false, false⟩ }) State.reset), (⟨15, false, false⟩), _,
    by decide +kernel, rfl⟩,
   ⟨(1), ({ State.reset with tr := { State.reset.tr with mirCopy := Vector.replicate 2 true } }), _,
    by decide +kernel, by decide +kernel, rfl⟩,
   ⟨(3), (setReg 3 (fun g => { g with rebuild := some (16, true) }) State.reset), ((16, true)), by decide +kernel⟩,
   ⟨({ State.reset with tr := { State.reset.tr with wiping := [⟨0, trSize, true, none⟩] } }), (⟨0, trSize, true,
    none⟩), _, _, _, _, by decide +kernel, rfl, rfl, rfl, rfl⟩⟩

theorem witness_QueuePortCommands :
  (∃ (q : Byte) (s : State) (c : QCat) (d : Bytes),
    qCat q.toNat = some c ∧ c.crossing = false ∧ (getQ s q.toNat).discarding = false
    ∧ (getQ s q.toNat).writing = some d)
  ∧ (∃ (q : Byte) (s : State) (c : QCat),
    qCat q.toNat = some c ∧ c.crossing = false ∧ (getQ s q.toNat).discarding = false
    ∧ (getQ s q.toNat).writing = none)
  ∧ (∃ (q : Byte) (s : State) (c : QCat),
    qCat q.toNat = some c ∧ c.crossing = false ∧ (getQ s q.toNat).discarding = true)
  ∧ (∃ (q : Byte) (s : State) (c : QCat),
    qCat q.toNat = some c ∧ c.crossing = false ∧ (getQ s q.toNat).discarding = true)
  ∧ (∃ (q : Byte) (s : State) (c : QCat),
    qCat q.toNat = some c ∧ c.crossing = false ∧ (getQ s q.toNat).discarding = false
    ∧ (getQ s q.toNat).writing.isSome = true)
  ∧ (∃ (q : Byte) (s : State) (c : QCat),
    qCat q.toNat = some c ∧ c.crossing = false ∧ (getQ s q.toNat).discarding = false
    ∧ (getQ s q.toNat).writing = none)
  ∧ (∃ (q : Byte) (s : State) (c : QCat) (x : Que),
    qCat q.toNat = some c ∧ c.crossing = true ∧ x = getQ s q.toNat ∧ x.heldR291 = false
    ∧ qUsed c.size x < c.size)
  ∧ (∃ (q : Byte) (s : State) (c : QCat) (x : Que),
    qCat q.toNat = some c ∧ c.crossing = true ∧ x = getQ s q.toNat ∧ x.heldR291 = false
    ∧ c.size ≤ qUsed c.size x)
  ∧ (∃ (q : Byte) (s : State) (c : QCat) (x : Que),
    qCat q.toNat = some c ∧ c.crossing = false ∧ x = getQ s q.toNat ∧ x.discarding = false ∧ x.heldR291 = false
    ∧ (qUsed c.size x + (if x.writing.isNone then 2 else 1) ≤ c.size))
  ∧ (∃ (q : Byte) (s : State) (c : QCat) (x : Que),
    qCat q.toNat = some c ∧ c.crossing = false ∧ x = getQ s q.toNat ∧ x.discarding = false ∧ x.heldR291 = false
    ∧ (c.size < qUsed c.size x + (if x.writing.isNone then 2 else 1)))
  ∧ (∃ (q : Byte) (s : State),
    (getQ s q.toNat).heldR291 = true)
  ∧ (∃ (q : Byte) (s : State) (c : QCat) (x : Que) (w : BitVec 256) (rest : List (BitVec 256)),
    qCat q.toNat = some c ∧ c.crossing = true ∧ x = getQ s q.toNat ∧ x.words = w :: rest)
  ∧ (∃ (q : Byte) (s : State) (c : QCat) (x : Que),
    qCat q.toNat = some c ∧ x = getQ s q.toNat ∧ ((if c.crossing then x.words = [] else x.pkts = [])))
  ∧ (∃ (q : Byte) (pos : Nat) (s : State) (c : QCat) (p : Pkt),
    qCat q.toNat = some c ∧ c.crossing = false ∧ c.retain = true
    ∧ (getQ s q.toNat).pkts.find? (fun p => decide (p.pos = pos)) = some p ∧ pktPoisoned q.toNat p s = false)
  ∧ (∃ (q : Byte) (pos : Nat) (s : State) (c : QCat) (x : Que),
    (qCat q.toNat = some c ∧ c.crossing = false ∧ c.retain = true) ∧ x = getQ s q.toNat ∧ x.pkts ≠ []
    ∧ x.pkts.find? (fun p => decide (p.pos = pos)) = none)
  ∧ (∃ (q : Byte) (s : State) (c : QCat) (x : Que) (p : Pkt) (rest : List Pkt),
    (qCat q.toNat = some c ∧ c.crossing = false ∧ c.retain = false) ∧ x = getQ s q.toNat ∧ x.pkts = p :: rest
    ∧ pktPoisoned q.toNat p s = false)
  ∧ (∃ (q : Byte) (pos : Nat) (s : State) (c : QCat) (p : Pkt),
    (qCat q.toNat = some c ∧ c.crossing = false ∧ (getQ s q.toNat).pkts ≠ []
    ∧ ((if c.retain then (getQ s q.toNat).pkts.find? (fun p => decide (p.pos = pos)) else (getQ s q.toNat).pkts.head?) = some p))
    ∧ pktPoisoned q.toNat p s = true)
  ∧ (∃ (q : Byte) (pos : Nat) (s : State) (c : QCat) (x : Que) (r : Nat × List Pkt),
    qCat q.toNat = some c ∧ c.retain = true ∧ x = getQ s q.toNat
    ∧ (r = releaseRun (x.pkts.map (fun p => if p.pos = pos then { p with released := true } else p))))
  ∧ (∃ (q : Byte) (a : W32) (b : W32) (c : QCat),
    qCat q.toNat = some c ∧ a ≠ b) :=
  ⟨⟨(0x19), (setQ 0x19 { que0 with writing := some [1] } State.reset), (⟨2048, 64, false, false, false⟩), ([1]),
    by decide +kernel⟩,
   ⟨(0x19), State.reset, (⟨2048, 64, false, false, false⟩), by decide +kernel⟩,
   ⟨(0x19), (setQ 0x19 { que0 with discarding := true } State.reset), (⟨2048, 64, false, false, false⟩),
    by decide +kernel⟩,
   ⟨(0x19), (setQ 0x19 { que0 with discarding := true } State.reset), (⟨2048, 64, false, false, false⟩),
    by decide +kernel⟩,
   ⟨(0x19), (setQ 0x19 { que0 with writing := some [1] } State.reset), (⟨2048, 64, false, false, false⟩),
    by decide +kernel⟩,
   ⟨(0x19), State.reset, (⟨2048, 64, false, false, false⟩), by decide +kernel⟩,
   ⟨(0x73), State.reset, (⟨512, 9, true, false, false⟩), _, by decide +kernel, by decide +kernel, rfl,
    by decide +kernel⟩,
   ⟨(0x73), (setQ 0x73 { que0 with wp := 512, pp := 512 } State.reset), (⟨512, 9, true, false, false⟩), _,
    by decide +kernel, by decide +kernel, rfl, by decide +kernel⟩,
   ⟨(0), State.reset, (⟨8192, 64, false, false, true⟩), _, by decide +kernel, by decide +kernel, rfl,
    by decide +kernel⟩,
   ⟨(0), (setQ 0 { que0 with wp := 8191 } State.reset), (⟨8192, 64, false, false, true⟩), _, by decide +kernel,
    by decide +kernel, rfl, by decide +kernel⟩,
   ⟨0, (setQ 0 { que0 with heldR291 := true } State.reset), by decide +kernel⟩,
   ⟨(0x73), (setQ 0x73 { que0 with words := [1] } State.reset), (⟨512, 9, true, false, false⟩), _, (1), ([]),
    by decide +kernel, by decide +kernel, rfl, by decide +kernel⟩,
   ⟨(0), State.reset, (⟨8192, 64, false, false, true⟩), _, by decide +kernel, rfl, by decide +kernel⟩,
   ⟨(0x0D), 0, (setQ 0x0D { que0 with pkts := [default] } State.reset), (⟨6144, 64, false, true, false⟩), (default),
    by decide +kernel⟩,
   ⟨(0x0D), (1), (setQ 0x0D { que0 with pkts := [default] } State.reset), (⟨6144, 64, false, true, false⟩), _,
    by decide +kernel, rfl, by decide +kernel⟩,
   ⟨(0), (setQ 0 { que0 with pkts := [default] } State.reset), (⟨8192, 64, false, false, true⟩), _, (default), ([]),
    by decide +kernel, rfl, by decide +kernel⟩,
   ⟨(0x0D), 0, ({ setQ 0x0D { que0 with pkts := [default] } State.reset with poison := [unitAddr 0x0D 0 / 8] }),
    (⟨6144, 64, false, true, false⟩), (default), by decide +kernel,
    (by show ((8 * (unitAddr 13 0 / 8) < unitAddr 13 0 + 8 && unitAddr 13 0 < 8 * (unitAddr 13 0 / 8) + 8 || false) || false) = true; simp only [Bool.or_false,
    Bool.and_eq_true, decide_eq_true_eq]; omega)⟩,
   ⟨(0x0D), 0, State.reset, (⟨6144, 64, false, true, false⟩), _, _, by decide +kernel, by decide +kernel, rfl, rfl⟩,
   ⟨(0x18), 0, (1), (⟨2048, 64, false, false, false⟩), by decide +kernel⟩⟩

theorem witness_ClocheEngineCommands :
  (∃ (e : Fin 16) (s : State) (r : EngRun) (rest : List EngRun),
    clocheUp s = true ∧ engFree s e.val = true ∧ s.clo.redo = r :: rest)
  ∧ (∃ (e : Fin 16) (s : State) (r : Req) (j : CJob) (t : State) (key : Bytes) (nonce : Bytes) (u : State),
    (clocheUp s = true ∧ engFree s e.val = true ∧ s.clo.redo = []) ∧ pickJob s = some j ∧ j = .host r
    ∧ t = setClo (fun c => { c with lastReq := jobWho j }) (takeJob j s)
    ∧ sampleJob (specOf r.params) 1 t = (u, .inr (key, nonce)))
  ∧ (∃ (e : Fin 16) (s : State) (id : Nat) (j : CJob) (t : State) (k : Nat) (u : State) (fc : Nat),
    (clocheUp s = true ∧ engFree s e.val = true ∧ s.clo.redo = []) ∧ pickJob s = some j ∧ j = .link id
    ∧ t = takeJob j s ∧ (t.lk.tx.find? (fun f => f.id == id)).bind (txKey t) = some k
    ∧ (kClass t k = 1 ∨ kClass t k = 2) ∧ reserveCtr k t = (u, some fc))
  ∧ (∃ (e : Fin 16) (s : State) (n : Nat) (a : Nat) (j : CJob) (t : State) (key : Bytes) (nonce : Bytes) (u : State),
    (clocheUp s = true ∧ engFree s e.val = true ∧ s.clo.redo = []) ∧ pickJob s = some j ∧ j = .core n a
    ∧ t = setClo (fun c => { c with lastReq := jobWho j }) (takeJob j s) ∧ coreRefused t n a = none
    ∧ sampleJob (specOf (memRead t a 48)) 2 t = (u, .inr (key, nonce)))
  ∧ (∃ (e : Fin 16) (s : State) (r : EngRun) (q : Req) (o : State × W16 × Bytes),
    (clocheUp s = true ∧ vAt s.clo.eng e.val = some r ∧ r.job = .host q)
    ∧ o = hostOutcome (specOf q.params) q.params r.key r.nonce (bumpF (0x40 + e.val) 0x808 23 0 1 (engRest e.val s)))
  ∧ (∃ (e : Fin 16) (s : State) (r : EngRun) (id : Nat),
    clocheUp s = true ∧ vAt s.clo.eng e.val = some r ∧ r.job = .link id)
  ∧ (∃ (e : Fin 16) (s : State) (r : EngRun) (n : Nat) (a : Nat),
    clocheUp s = true ∧ vAt s.clo.eng e.val = some r ∧ r.job = .core n a)
  ∧ (∃ (e : Fin 16) (s : State),
    engState s e.val ≠ 4 ∧ funcDown s (0x40 + e.val) = false)
  ∧ (∃ (e : Fin 16) (s : State),
    engFree s e.val = true)
  ∧ (∃ (src : Fin 2) (bits : List Bool) (test : Nat) (s : State) (t : State),
    (healthTest bits = some test ∧ trngSt s src.val ≠ 2 ∧ funcDown s 0x50 = false)
    ∧ t = setClo (fun c => { c with trngAt := vSet c.trngAt src.val (some s.clk.tb) }) s)
  ∧ (∃ (src : Fin 2) (raw : Bytes) (s : State),
    trngSt s src.val ≠ 2 ∧ drbgDead s = false ∧ funcDown s 0x50 = false ∧ raw.length = 96
    ∧ rawFresh src.val s = true ∧ healthTest (bitsOfBytes raw) = none)
  ∧ (∃ (src : Fin 2) (raw : Bytes) (s : State) (test : Nat),
    trngSt s src.val ≠ 2 ∧ drbgDead s = false ∧ funcDown s 0x50 = false ∧ raw.length = 96
    ∧ rawFresh src.val s = true ∧ healthTest (bitsOfBytes raw) = some test)
  ∧ (∃ (n : Nat) (s : State) (t : State),
    t = setClo (fun c => { c with drbgReq := c.drbgReq + n }) s)
  ∧ (∃ (src : Fin 2) (raw : Bytes) (s : State) (t : State),
    (objF s 0x50 0x800 31 31 ≠ 1 ∧ funcDown s 0x50 = false ∧ s.phase = .running ∧ raw.length = 96
    ∧ trngSt s src.val ≠ 2 ∧ rawFresh src.val s = true ∧ healthTest (bitsOfBytes raw) = none)
    ∧ t = setTrng src.val 0 (setDrbg (drbgUpdate (drbgSeed raw) (0, 0)) 0 s))
  ∧ (∃ (s : State) (t : State),
    t = raise 42 0x50 .clocheReady [] (slotsUsed (setF 0x50 0x800 31 31 1 (setClo (fun c => { c with waiting := [] }) s)))) :=
  ⟨⟨0, (setClo (fun c => { c with redo := [⟨.link 0, [], [], [], [], 0⟩] }) keyed), (⟨.link 0, [], [], [], [], 0⟩),
    [], by decide +kernel⟩,
   ⟨0, (setClo (fun c => { c with jobs := [.host (rq 0 [5, 0, 0, 2])] }) (setKeySlot 2 (List.replicate 24 0 ++ [3, 3,
    7, 0, 0, 0, 0, 0]) keyed)), (rq 0 [5, 0, 0, 2]), (.host (rq 0 [5, 0, 0, 2])), _, (_), (_), (_),
    by decide +kernel, rfl, by decide +kernel, rfl, (rfl)⟩,
   ⟨0,
    (setLk (fun l => { l with tx := [{ (default : TxFrame) with key := some 0 }] }) (setClo (fun c => { c with jobs := [.link 0] }) keyed)),
    0, (.link 0), _, (0), (_), (_), by decide +kernel, rfl, by decide +kernel, rfl, rfl, by decide +kernel, (rfl)⟩,
   ⟨0, (setClo (fun c => { c with jobs := [.core 0 0x700000] }) (memWrite 0x700000 [5, 0, 0, 2, 0, 0x70, 0, 0, 0,
    0x70, 0, 0, 0, 0x70, 0, 0, 0, 0, 0, 0, 16] (setF 0 0xF00 25 22 4 (setKeySlot 2 (List.replicate 24 0 ++ [3, 3,
    7, 0, 0, 0, 0, 0]) keyed)))), 0, (0x700000), (.core 0 0x700000), _, (_), (_), (_), by decide +kernel, rfl,
    by decide +kernel, rfl, by decide +kernel, (inr_of (by decide +kernel))⟩,
   ⟨(15), (setClo (fun c => { c with eng := vSet c.eng 15 (some ⟨.host (rq 0 []), [], [], [], [], 0⟩) }) keyed),
    (⟨.host (rq 0 []), [], [], [], [], 0⟩), (rq 0 []), _, by decide +kernel, rfl⟩,
   ⟨(15), (setClo (fun c => { c with eng := vSet c.eng 15 (some ⟨.link 0, [], [], [], [], 0⟩) }) keyed), (⟨.link 0,
    [], [], [], [], 0⟩), 0, by decide +kernel⟩,
   ⟨(15), (setClo (fun c => { c with eng := vSet c.eng 15 (some ⟨.core 3 0, [], [], [], [], 0⟩) }) keyed),
    (⟨.core 3 0, [], [], [], [], 0⟩), (3), 0, by decide +kernel⟩,
   ⟨(15), State.reset, by decide +kernel⟩,
   ⟨0, (keyed), by decide +kernel⟩,
   ⟨0, (List.replicate 41 true), 0, State.reset, _, by decide +kernel, rfl⟩,
   ⟨0, ((List.range 96).map (fun i => BitVec.ofNat 8 (91 * i + 77))), State.reset, by decide +kernel⟩,
   ⟨0, (List.replicate 96 0), State.reset, 0, by decide +kernel⟩,
   ⟨0, State.reset, _, rfl⟩,
   ⟨0, ((List.range 96).map (fun i => BitVec.ofNat 8 (91 * i + 77))), State.reset, _, by decide +kernel, rfl⟩,
   ⟨State.reset, _, rfl⟩⟩

theorem witness_BackhaulLaneCommands :
  (∃ (s : State) (r : State × List (Nat × Array Byte)),
    s.phase = .running ∧ tapHold s = false
    ∧ (r = (List.range 16).foldl (fun (a : State × List (Nat × Array Byte)) g =>
        ((graftShare g a.1).1, a.2 ++ [(g, (graftShare g a.1).2.toArray)])) (if s.bh.cycleDue then cycleEnds s else s, [])))
  ∧ (∃ (lane : Fin 8) (bytes : Bytes) (s : State) (w : Bytes) (y : State × List Nat),
    laneOn s lane.val = true ∧ bytes.length = 31250
    ∧ w = polarity (objF s (bhFunc lane.val) 0x900 (20 + lane.val % 4) (20 + lane.val % 4) == 1) bytes
    ∧ y = qStream (0x50 + lane.val) (words64 w) s)
  ∧ (∃ (lane : Fin 8) (s : State),
    laneOn s lane.val = true)
  ∧ (∃ (lane : Fin 8) (s : State),
    laneOn s lane.val = true)
  ∧ (∃ (lane : Fin 8) (pos : Nat) (s : State) (x : BhLane),
    x = laneRec s lane.val ∧ laneOn s lane.val = true ∧ laneF s lane.val 29 29 ≠ 1 ∧ laneF s lane.val 31 30 ≠ 2
    ∧ x.cands.any (fun c => c.pos == pos % 250000) = false ∧ x.cands.length < 8)
  ∧ (∃ (s : State) (t : State),
            t = (List.range 16).foldl (fun s g => txCycle g s) (graftsOff (adoptBound .cycle
        (setBh (fun b => { b with cycleDue := false }) s))))
  ∧ (∃ (s : State),
    s.bh.cycleDue = true) :=
  ⟨⟨State.reset, _, by decide +kernel, by decide +kernel, rfl⟩,
   ⟨(7), (List.replicate 31250 0), (setF 0x59 0x900 31 31 1 State.reset), _, _, by decide +kernel,
    (List.length_replicate), rfl, rfl⟩,
   ⟨0, (setF 0x58 0x900 28 28 1 State.reset), by decide +kernel⟩,
   ⟨0, (setF 0x58 0x900 28 28 1 State.reset), by decide +kernel⟩,
   ⟨0, 0, (setLaneF 0 31 29 0 (setF 0x58 0x900 28 28 1 State.reset)), _, rfl, by decide +kernel⟩,
   ⟨State.reset, _, rfl⟩,
   ⟨(setBh (fun b => { b with cycleDue := true }) State.reset), by decide +kernel⟩⟩

theorem witness_BackhaulGraftCommands :
  (∃ (gid : Fin 16) (s : State) (m : Nat) (l : List (Nat × Nat)) (due : Nat),
    frameReady s gid.val = some m ∧ l = heldLanes s gid.val m ∧ due = frameDue s gid.val m ∧ due ≤ now s)
  ∧ (∃ (s : State),
    s.phase = .running) :=
  ⟨⟨(15),
    (setClk (fun c => { c with tb := 4000 }) (setGraft 15 (fun k => { k with held := [{ (default : HeldFrame) with place := some (1, 0) }], next := some 0 }) State.reset)),
    0, _, _, by decide +kernel, rfl, rfl, by decide +kernel⟩,
   ⟨State.reset, by decide +kernel⟩⟩

theorem witness_MeasurementCommands :
  (∃ (s : State) (i : Nat),
    measUp s = true ∧ measRun s = true
    ∧ (List.range 9).all (fun k => (sliceOf s k).calib || sliceFailed s k) = false
    ∧ s.meas.due.find? (fun i => sliceFree s (seqEnt s i)) = some i)
  ∧ (∃ (s : State),
    measUp s = true ∧ measRun s = true
    ∧ (List.range 9).all (fun k => (sliceOf s k).calib || sliceFailed s k) = false
    ∧ s.meas.due.find? (fun i => sliceFree s (seqEnt s i)) = none ∧ s.meas.run = none)
  ∧ (∃ (sl : Fin 9) (s : State),
    (sliceOf s sl.val).ph = .settling ∧ cleanNow s sl.val = true)
  ∧ (∃ (sl : Fin 9) (s : State) (i : Nat) (w : W32) (a : ℚ),
    (sliceOf s sl.val).ph = .delay ∧ (sliceOf s sl.val).entry = some (i, w)
    ∧ a = (sliceOf s sl.val).start + 40000 * fget w 15 8 ∧ a ≤ now s)
  ∧ (∃ (sl : Fin 9) (s : State) (t : State),
    (sliceOf s sl.val).ph = .switching ∧ (sliceOf s sl.val).start + 8192 ≤ now s
    ∧ t = setSlice sl.val (fun x => { x with ph := .settling, resetTb := now s }) s)
  ∧ (∃ (sl : Fin 9) (rx : ModRx) (s : State) (x : SliceSt) (i : Nat) (w : W32) (cfg : W32) (fine : List MeasOut) (l : List MeasOut) (t : State),
    x = sliceOf s sl.val ∧ (x.entry = some (i, w) ∧ x.ph = .run ∧ eMode w = 3) ∧ cfg = sliceCfg s sl.val
    ∧ fine = measFine s sl.val cfg rx ∧ l = waveReady s sl.val w fine ∧ (l ≠ [] ∨ x.cut = true)
    ∧ t = waveRecords sl.val i w x.cut l s)
  ∧ (∃ (sl : Fin 9) (rx : ModRx) (s : State) (x : SliceSt) (i : Nat) (w : W32) (cfg : W32) (fine : List MeasOut),
    x = sliceOf s sl.val ∧ (x.entry = some (i, w) ∧ x.ph = .run ∧ eMode w ≠ 3) ∧ cfg = sliceCfg s sl.val
    ∧ fine = measFine s sl.val cfg rx ∧ (x.cut = true ∨ reaches x.till (fineTicks cfg) fine = true))
  ∧ (∃ (s : State),
    measUp s = true ∧ s.clk.lockSeen = true)
  ∧ (∃ (s : State) (u : W64) (t : State),
    s.meas.trigAt = some u ∧ u.toNat ≤ now s ∧ t = setMeas (fun m => { m with trigAt := none }) s) :=
  ⟨⟨(setF 0x60 0xA00 31 31 1 (setMeas (fun m => { m with due := [0] }) State.reset)), 0, by decide +kernel⟩,
   ⟨(setF 0x60 0xA00 31 31 1 State.reset), by decide +kernel⟩,
   ⟨(8),
    (setSlice 8 (fun x => { x with ph := .settling }) (setClk (fun c => { c with tb := 1000000000 }) State.reset)),
    by decide +kernel⟩,
   ⟨(8),
    (setSlice 8 (fun x => { x with ph := .delay, entry := some (63, 4) }) (setClk (fun c => { c with tb := 1000000000 }) State.reset)),
    (63), (4), _, by decide +kernel, by decide +kernel, rfl, by decide +kernel⟩,
   ⟨(8), (setSlice 8 (fun x => { x with ph := .switching }) (setClk (fun c => { c with tb := 8192 }) State.reset)), _,
    by decide +kernel, by decide +kernel, rfl⟩,
   ⟨(8), default, (setSlice 8 (fun x => { x with ph := .run, cut := true, entry := some (63, 0xC4) }) State.reset), _,
    (63), (0xC4), _, _, _, _, rfl, by decide +kernel, rfl, rfl, rfl, by decide +kernel, rfl⟩,
   ⟨(8), default, (setSlice 8 (fun x => { x with ph := .run, cut := true, entry := some (63, 4) }) State.reset), _,
    (63), (4), _, _, rfl, by decide +kernel, rfl, rfl, by decide +kernel⟩,
   ⟨(setClk (fun c => { c with lockSeen := true }) State.reset), by decide +kernel⟩,
   ⟨(setMeas (fun m => { m with trigAt := some 0 }) State.reset), 0, _, by decide +kernel, by decide +kernel, rfl⟩⟩

theorem witness_SliceAndForwardingCommands :
  (∃ (sl : Fin 9) (s : State) (x : SliceSt) (i : Nat) (w : W32),
    x = sliceOf s sl.val ∧ x.entry = some (i, w) ∧ measUp s = true ∧ eCont w = true
    ∧ (x.ph = .run ∨ x.ph = .delay ∨ x.ph = .settling) ∧ fget (sliceCfg s sl.val) 24 24 ≠ 0)
  ∧ (∃ (s : State) (t : State),
    (measUp s = true ∧ objF s 0x60 0xA00 28 28 ≠ 0 ∧ spareSlice s ≠ 15 ∧ objF s 0x60 0xA01 18 18 ≠ 1
    ∧ objF s 0x60 0xA01 9 9 ≠ 1) ∧ t = rotStatus (setMeas (fun m => { m with rot := oldestSlice s }) s))
  ∧ (∃ (s : State) (k : Nat) (l : Nat),
    s.meas.rot = some k ∧ logOf s k = some l ∧ spareSlice s ≠ 15 ∧ (sliceOf s k).cut = false
    ∧ spareReady s k = true)
  ∧ (∃ (sl : Fin 9) (refs : Vector (ℚ × ℚ × ℚ) 5) (s : State) (t : State),
    ((sliceOf s sl.val).calib = true ∧ measUp s = true
    ∧ (refs.map calOf).toList.any (fun e => decide (160000 < e.1 * e.2) || decide (e.1 * e.2 < -160000)) = true)
    ∧ t = setSlice sl.val (fun x => { x with calib := false, calTb := s.clk.tb, cal := refs.map calOf }) s)
  ∧ (∃ (sl : Fin 9) (refs : Vector (ℚ × ℚ × ℚ) 5) (s : State) (t : State),
    ((sliceOf s sl.val).calib = true ∧ measUp s = true
    ∧ (refs.map calOf).toList.any (fun e => decide (160000 < e.1 * e.2) || decide (e.1 * e.2 < -160000)) = false)
    ∧ t = setSlice sl.val (fun x => { x with calib := false, calTb := s.clk.tb, cal := refs.map calOf }) s)
  ∧ (∃ (sl : Fin 9) (refs : Vector (ℚ × ℚ × ℚ) 5) (s : State) (t : State),
    ((sliceOf s sl.val).calib = true ∧ measUp s = true
    ∧ (refs.map calOf).toList.any (fun e => decide (160000 < e.1 * e.2) || decide (e.1 * e.2 < -160000)) = false)
    ∧ t = setSlice sl.val (fun x => { x with calib := false, calTb := s.clk.tb, cal := refs.map calOf }) s)
  ∧ (∃ (s : State),
    measUp s = true)
  ∧ (∃ (s : State) (r : State × List Bytes),
    (measFwd s).isEmpty = false ∧ s.pw.mcDown = false ∧ r = popResults 512 s) :=
  ⟨⟨0, (setSlice 0 (fun x => { x with ph := .run, entry := some (0, 4), set := some (0, 0x01000000) }) State.reset),
    _, 0, (4), rfl, by decide +kernel⟩,
   ⟨(setF 0x60 0xA00 28 28 1 State.reset), _, by decide +kernel, rfl⟩,
   ⟨(setMeas (fun m => { m with rot := some 0 }) State.reset), 0, 0, by decide +kernel⟩,
   ⟨(8), (Vector.replicate 5 (1, 1, 0)), (setSlice 8 (fun x => { x with calib := true }) State.reset), _,
    by decide +kernel, rfl⟩,
   ⟨(8), (Vector.replicate 5 (0, 0, 0)), (setSlice 8 (fun x => { x with calib := true }) State.reset), _,
    by decide +kernel, rfl⟩,
   ⟨(8), (Vector.replicate 5 (0, 0, 0)), (setSlice 8 (fun x => { x with calib := true }) State.reset), _,
    by decide +kernel, rfl⟩,
   ⟨State.reset, by decide +kernel⟩,
   ⟨(setF 0x70 0xC02 19 19 1 State.reset), _, by decide +kernel, by decide +kernel, rfl⟩⟩

theorem witness_ConsoleAndCaseriCommands :
  (∃ (r : CharSamples) (c : ConChar) (s : State) (x : Byte) (u : State) (v : State) (w : State) (t : State),
    conUp s = true ∧ conStuckNow s = false ∧ conChar s.con.cfgRx r = some c ∧ x = c.data
    ∧ u = setF 0x68 0xB01 31 31 0 (setCon (fun k => { k with afterIdle := objF s 0x68 0xB01 31 31 == 1 }) s)
    ∧ (v = (if c.noise then bumpF 0x68 0xB02 15 8 1 u else u))
    ∧ (w = (if c.parityErr then bumpF 0x68 0xB02 7 4 1 v else v))
    ∧ (t = (if c.framingErr then bumpF 0x68 0xB02 23 16 1 w else w)))
  ∧ (∃ (r : CharSamples) (s : State) (t : State),
    (conUp s = true ∧ conStuckNow s = false ∧ conIsBreak s.con.cfgRx r = true)
    ∧ t = setF 0x68 0xB01 31 31 0 (bumpF 0x68 0xB02 3 0 1 s))
  ∧ (∃ (s : State),
    conUp s = true ∧ conStuckNow s = false)
  ∧ (∃ (s : State),
    conUp s = true ∧ conStuckNow s = false ∧ objF s 0x68 0xB01 31 31 ≠ 0 ∧ s.con.block ≠ [])
  ∧ (∃ (s : State),
    conUp s = true ∧ objF s 0x68 0xB01 30 30 ≠ 0)
  ∧ (∃ (s : State),
    conUp s = true ∧ conStuckNow s = false)
  ∧ (∃ (s : State),
    conUp s = true ∧ conStuckNow s = true)
  ∧ (∃ (tx : Bool) (s : State) (v : W32) (t : State),
    conUp s = true ∧ s.con.cfgWait = false ∧ v = nextObj s 0x68 0xB00
    ∧ (t = setCon (fun c => if tx then { c with cfgTx := v } else { c with cfgRx := v }) s))
  ∧ (∃ (s : State) (l : Bytes) (bad : Bool) (rest : List (Bytes × Bool × Bool)) (t : State),
    (conUp s = true ∧ accepting s = true ∧ s.con.wait = [] ∧ s.con.lines = (l, true, bad) :: rest)
    ∧ t = setCon (fun c => { c with lines := rest }) s)
  ∧ (∃ (s : State) (l : Bytes) (rest : List (Bytes × Bool × Bool)) (t : State),
    (conUp s = true ∧ accepting s = true ∧ s.con.wait = [] ∧ s.con.lines = (l, false, true) :: rest)
    ∧ t = setCon (fun c => { c with lines := rest }) s)
  ∧ (∃ (s : State) (l : Bytes) (rest : List (Bytes × Bool × Bool)) (t : State),
    (conUp s = true ∧ accepting s = true ∧ s.con.wait = [] ∧ s.con.lines = (l, false, false) :: rest)
    ∧ t = setCon (fun c => { c with lines := rest }) s)
  ∧ (∃ (s : State) (f : Bytes) (rest : List Bytes) (t : State),
    (conUp s = true ∧ accepting s = true ∧ s.con.wait = [] ∧ s.con.frames = f :: rest)
    ∧ t = setCon (fun c => { c with frames := rest }) s ∧ byteAt f 0 = 0x6B)
  ∧ (∃ (s : State) (f : Bytes) (rest : List Bytes) (t : State),
    (conUp s = true ∧ accepting s = true ∧ s.con.wait = [] ∧ s.con.frames = f :: rest)
    ∧ t = setCon (fun c => { c with frames := rest }) s ∧ byteAt f 0 ≠ 0x6B)
  ∧ (∃ (s : State),
    conUp s = true) :=
  ⟨⟨([0, 7, 0, 0, 0, 0, 0, 7, 0, 3]), (_), State.reset, _, _, _, _, _, by decide +kernel, by decide +kernel, rfl, rfl,
    rfl, rfl, rfl, rfl⟩,
   ⟨(List.replicate 12 0), State.reset, _, by decide +kernel, rfl⟩,
   ⟨State.reset, by decide +kernel⟩,
   ⟨(setF 0x68 0xB01 31 31 1 (setCon (fun c => { c with block := [0] }) State.reset)), by decide +kernel⟩,
   ⟨(setF 0x68 0xB01 30 30 1 State.reset), by decide +kernel⟩,
   ⟨State.reset, by decide +kernel⟩,
   ⟨(setF 0x68 0xB01 28 28 1 State.reset), by decide +kernel⟩,
   ⟨false, State.reset, _, _, by decide +kernel, by decide +kernel, rfl, rfl⟩,
   ⟨(setCon (fun c => { c with lines := [([], true, false)] }) State.reset), [], false, [], _, by decide +kernel, rfl⟩,
   ⟨(setCon (fun c => { c with lines := [([], false, true)] }) State.reset), [], [], _, by decide +kernel, rfl⟩,
   ⟨(setCon (fun c => { c with lines := [([], false, false)] }) State.reset), [], [], _, by decide +kernel, rfl⟩,
   ⟨(setCon (fun c => { c with frames := [[0x6B]] }) State.reset), ([0x6B]), [], _, by decide +kernel, rfl,
    by decide +kernel⟩,
   ⟨(setCon (fun c => { c with frames := [[0x6C]] }) State.reset), ([0x6C]), [], _, by decide +kernel, rfl,
    by decide +kernel⟩,
   ⟨State.reset, by decide +kernel⟩⟩

theorem witness_ChainMessageCommands :
  (∃ (chars : List CharSamples) (bytes : List (BitVec 8)) (eni : Bool) (s : State) (t : State) (x : State × List Nat),
    t = setChain (fun c => { c with justSent := false, eni := eni }) (chainSettle s)
    ∧ chainUp (chainSettle s) = true ∧ x = qStream 0x70 (chainWords (chars.map chainByte)) t
    ∧ bytes = x.2.map (BitVec.ofNat 8) ∧ chars.any chainFraming = false ∧ beAt bytes 2 2 ≤ 2068
    ∧ bytes.length = 6 + beAt bytes 2 2
    ∧ beAt bytes (4 + beAt bytes 2 2) 2 = crc16 (bytes.take (4 + beAt bytes 2 2)))
  ∧ (∃ (chars : List CharSamples) (eni : Bool) (s : State) (t : State),
    t = setChain (fun c => { c with justSent := false, eni := eni }) (chainSettle s)
    ∧ chainUp (chainSettle s) = true ∧ chars.any chainFraming = true)
  ∧ (∃ (eni : Bool) (s : State) (t : State) (m : Bytes) (rest : List Bytes),
    t = setChain (fun c => { c with eni := eni }) (chainSettle s) ∧ mayBegin t = true ∧ t.chain.justSent = false
    ∧ takeMsg t.chain.packetsOff t.chain.txq = some (m, rest))
  ∧ (∃ (eni : Bool) (s : State) (t : State),
    t = setChain (fun c => { c with eni := eni }) (chainSettle s) ∧ mayBegin t = true ∧ t.chain.justSent = true)
  ∧ (∃ (s : State),
    s.chain.sending.isSome = true)
  ∧ (∃ (s : State),
    chainUp s = true)
  ∧ (∃ (s : State) (t : State),
    t = chainSettle s ∧ chainUp t = true ∧ chainStuckNow t = false)
  ∧ (∃ (s : State),
    chainUp s = true ∧ chainStuckNow s = true) :=
  ⟨⟨(([0, 0, 0, 0, 132, 192] : Bytes).map onChain), _, false, State.reset, _, _, rfl, by decide +kernel, rfl, rfl,
    by decide +kernel⟩,
   ⟨([[7]]), false, State.reset, _, rfl, by decide +kernel⟩,
   ⟨false, (setChain (fun c => { c with txq := [[0]] }) State.reset), _, ([0]), [], rfl, by decide +kernel⟩,
   ⟨false, (setChain (fun c => { c with justSent := true }) State.reset), _, rfl, by decide +kernel⟩,
   ⟨(setChain (fun c => { c with sending := some [0] }) State.reset), by decide +kernel⟩,
   ⟨State.reset, by decide +kernel⟩,
   ⟨State.reset, _, rfl, by decide +kernel⟩,
   ⟨(setF 0x69 0xB09 23 23 1 State.reset), by decide +kernel⟩⟩

theorem witness_ChainAddressingCommands :
  (∃ (s : State),
    chainUp (chainSettle s) = true)
  ∧ (∃ (s : State),
    chainUp (chainSettle s) = true)
  ∧ (∃ (s : State),
    chainUp (chainSettle s) = true)
  ∧ (∃ (s : State) (t : State) (r : AssignRun),
    t = chainSettle s ∧ t.chain.run = some r ∧ r.ended = false ∧ r.tries = 1)
  ∧ (∃ (s : State) (t : State) (r : AssignRun),
    t = chainSettle s ∧ t.chain.run = some r ∧ r.ended = false ∧ 2 ≤ r.tries)
  ∧ (∃ (s : State),
    chainUp (chainSettle s) = true)
  ∧ (∃ (s : State),
    chainUp s = true)
  ∧ (∃ (s : State),
    chainUp (chainSettle s) = true)
  ∧ (∃ (a : Byte) (b : Byte) (s : State),
    s.phase = .asleep ∧ s.aon.addr ≠ 0 ∧ s.aon.addr ≠ 63 ∧ a.toNat = 0xC0 + s.aon.addr.toNat ∧ b = ~~~a) :=
  ⟨⟨State.reset, by decide +kernel⟩,
   ⟨State.reset, by decide +kernel⟩,
   ⟨State.reset, by decide +kernel⟩,
   ⟨(setChain (fun c => { c with run := some ⟨1, 1, [], false⟩ }) State.reset), _, (⟨1, 1, [], false⟩), rfl,
    by decide +kernel⟩,
   ⟨(setChain (fun c => { c with run := some ⟨1, 2, [], false⟩ }) State.reset), _, (⟨1, 2, [], false⟩), rfl,
    by decide +kernel⟩,
   ⟨State.reset, by decide +kernel⟩,
   ⟨State.reset, by decide +kernel⟩,
   ⟨State.reset, by decide +kernel⟩,
   ⟨(0xFE), (1), ({ State.reset with phase := .asleep, aon := { State.reset.aon with addr := 62 } }),
    by decide +kernel⟩⟩

theorem witness_ForwardingAndHostLinkCommands :
  (∃ (idx : Fin 8) (s : State) (t : State) (f : Forward),
    t = chainSettle s ∧ t.cmd.fwd[idx.val]? = some f ∧ f.sent.isSome = true)
  ∧ (∃ (op : W16) (r : Req) (s : State) (pkt : Bytes) (q : Req),
    pkt = cmdPacket op.toNat r.tag.toNat r.dest.toNat r.func.toNat 0 0 r.params
    ∧ q = ({ r with crc := BitVec.ofNat 32 (beAt pkt (pkt.length - 4) 4) } : Req)
    ∧ destRule s.aon.addr.toNat r.dest.toNat (viaChain r) = .forward)
  ∧ (∃ (s : State),
    chainUp (chainSettle s) = true)
  ∧ (∃ (link : Fin 2) (f : EthFrame) (s : State),
    hlRuns s link.val = true ∧ (f.fcsOk = false ∨ f.len < 64 ∨ 9216 < f.len))
  ∧ (∃ (link : Fin 2) (f : EthFrame) (s : State) (y : State × List Nat),
    (hlRuns s link.val = true ∧ f.fcsOk = true ∧ 64 ≤ f.len ∧ f.len ≤ 9216) ∧ frameForUs s link.val f = true
    ∧ y = qStream (0x5A + link.val) (words64 f.payload) s ∧ y.2.isEmpty = false ∧ byteAt f.payload 0 = 0x6B)
  ∧ (∃ (link : Fin 2) (f : EthFrame) (s : State) (y : State × List Nat) (x : State × Pushed),
    (hlRuns s link.val = true ∧ f.fcsOk = true ∧ 64 ≤ f.len ∧ f.len ≤ 9216) ∧ frameForUs s link.val f = true
    ∧ y = qStream (0x5A + link.val) (words64 f.payload) s ∧ (y.2.isEmpty = false ∧ byteAt f.payload 0 = 0x6C
    ∧ dataPacketOk f.payload = true) ∧ x = qPush link.val (0x1B + link.val) false 0 f.payload y.1)
  ∧ (∃ (link : Fin 2) (quanta : W16) (s : State),
    hlRuns s link.val = true ∧ quanta = 0)
  ∧ (∃ (link : Fin 2) (quanta : W16) (s : State) (t : State),
    hlRuns s link.val = true ∧ quanta ≠ 0 ∧ t = setF (0x5C + link.val) 0x30 28 28 1 s)
  ∧ (∃ (link : Fin 2) (s : State) (u : W64),
    vAt s.hl.pauseEnd link.val = some u ∧ u.toNat ≤ now s)
  ∧ (∃ (link : Fin 2) (lock : Bool) (hiBer : Bool) (errs : BitVec 12) (s : State) (t : State) (u : State) (v : State) (w : State),
    hlRuns s link.val = true
    ∧ t = setF (0x5C + link.val) 0x30 31 31 (b2n lock) (setF (0x5C + link.val) 0x30 30 30 (b2n hiBer) s)
    ∧ (u = (if hlLock s link.val && !lock then bumpF (0x5C + link.val) 0x31 3 0 1 t else t))
    ∧ (v = (if objF u (0x5C + link.val) 0x32 16 16 = 1 then bumpF (0x5C + link.val) 0x30 27 16 errs.toNat u else u))
    ∧ (w = eventLinkMoved (eventLink s) (if hlUp v link.val && !hlUp s link.val then
          { v with hl := { v.hl with upSince := vSet v.hl.upSince link.val (some v.clk.tb) } }
        else if !hlUp v link.val then { v with hl := { v.hl with upSince := vSet v.hl.upSince link.val none } } else v)))
  ∧ (∃ (link : Fin 2) (s : State) (u : W64),
    vAt s.hl.upSince link.val = some u ∧ u.toNat + 400000000 ≤ now s ∧ hlUp s link.val = true) :=
  ⟨⟨0, ({ State.reset with cmd := { State.reset.cmd with fwd := [⟨1, rq 0 [], some 0⟩] } }), _, (⟨1, rq 0 [],
    some 0⟩), rfl, by decide +kernel⟩,
   ⟨0, ({ rq 0 [] with dest := 62 }), ({ State.reset with aon := { State.reset.aon with addr := 1 } }), _, _, rfl,
    rfl, by decide +kernel⟩,
   ⟨State.reset, by decide +kernel⟩,
   ⟨0, (⟨64, false, 0, 0, none, 0, []⟩), State.reset, by decide +kernel⟩,
   ⟨0, (⟨64, true, linkMac 0, 0, none, 0x88B5, [0x6B]⟩), State.reset, _, by decide +kernel,
    (by unfold frameForUs; dsimp only; rw [show decide (linkMac 0 = linkMac (0 : Fin 2).val) = true from decide_eq_true rfl]; decide +kernel),
    rfl, by decide +kernel⟩,
   ⟨0, (⟨9216, true, linkMac 0, 0, none, 0x88B5, [108, 67, 0, 2, 0, 0, 128, 0, 0, 0, 0, 0, 0, 0, 15, 255, 23, 158, 65,
    204]⟩), State.reset, _, _, by decide +kernel,
    (by unfold frameForUs; dsimp only; rw [show decide (linkMac 0 = linkMac (0 : Fin 2).val) = true from decide_eq_true rfl]; decide +kernel),
    rfl, by decide +kernel, rfl⟩,
   ⟨0, _, State.reset, by decide +kernel, rfl⟩,
   ⟨0, (1), State.reset, _, by decide +kernel, by decide +kernel, rfl⟩,
   ⟨(1), ({ State.reset with hl := { State.reset.hl with pauseEnd := Vector.replicate 2 (some 0) } }), (0),
    by decide +kernel⟩,
   ⟨0, false, false, 0, State.reset, _, _, _, _, by decide +kernel, rfl, rfl, rfl, rfl⟩,
   ⟨(1),
    (setClk (fun c => { c with tb := 400000000 }) (setF 0x5D 0x30 31 31 1 { State.reset with hl := { State.reset.hl with upSince := Vector.replicate 2 (some 0) } })),
    (0), by decide +kernel⟩⟩

theorem witness_DataPacketCommands :
  (∃ (link : Fin 2) (packet : Bytes) (s : State) (p : Pkt) (u : State) (t : State) (r : State × Option W16),
    qPop link.val s = some (p, u) ∧ p.data = packet ∧ t = hostRequests link u ∧ (beAt packet 2 2 = 2
    ∧ dataPacketOk packet = true ∧ byteAt packet 0 = 0x6C
    ∧ destRule t.aon.addr.toNat (byteAt packet 6) false = .here)
    ∧ r = downlinkData (beAt packet 12 4 % 2 ^ 18) (slice packet 16 (beAt packet 8 2)) t ∧ r.2 = none)
  ∧ (∃ (link : Fin 2) (packet : Bytes) (s : State) (p : Pkt) (u : State) (t : State) (k : Nat),
    qPop link.val s = some (p, u) ∧ p.data = packet ∧ t = hostRequests link u ∧ (beAt packet 2 2 = 2
    ∧ dataPacketOk packet = true ∧ byteAt packet 0 = 0x6C
    ∧ destRule t.aon.addr.toNat (byteAt packet 6) false ≠ .here) ∧ replyLink t link.val = some k)
  ∧ (∃ (s : State) (n : BitVec 12) (g : Nat) (nb : Bool) (body : Bytes) (rest : List (BitVec 12 × Nat × Bool × Bytes)) (t : State),
    s.lk.uplink = (n, g, nb, body) :: rest ∧ t = setLk (fun l => { l with uplink := rest }) s
    ∧ eventLink t = none)
  ∧ (∃ (s : State) (n : BitVec 12) (g : Nat) (nb : Bool) (body : Bytes) (rest : List (BitVec 12 × Nat × Bool × Bytes)) (t : State) (l : Nat),
    s.lk.uplink = (n, g, nb, body) :: rest ∧ t = setLk (fun l => { l with uplink := rest }) s
    ∧ eventLink t = some l ∧ body.length ≤ 9000)
  ∧ (∃ (s : State) (n : BitVec 12) (g : Nat) (nb : Bool) (body : Bytes) (rest : List (BitVec 12 × Nat × Bool × Bytes)) (t : State) (l : Nat),
    s.lk.uplink = (n, g, nb, body) :: rest ∧ t = setLk (fun l => { l with uplink := rest }) s
    ∧ eventLink t = some l ∧ 9000 < body.length) :=
  ⟨⟨0, ([108, 67, 0, 2, 0, 0, 128, 0, 0, 0, 0, 0, 0, 0, 15, 255, 23, 158, 65, 204]),
    (setQ 0 { que0 with pkts := [{ (default : Pkt) with data := [108, 67, 0, 2, 0, 0, 128, 0, 0, 0, 0, 0, 0, 0, 15, 255, 23, 158, 65, 204] }] } State.reset),
    (_), (_), _, _, rfl, by decide +kernel, rfl, by decide +kernel, rfl, by decide +kernel⟩,
   ⟨0, ([108, 67, 0, 2, 0, 0, 0, 0, 0, 0, 0, 0, 0, 0, 15, 255, 109, 129, 42, 232]),
    (setF 0x5C 0x30 31 31 1 (setQ 0 { que0 with pkts := [{ (default : Pkt) with data := [108, 67, 0, 2, 0, 0, 0, 0, 0, 0, 0, 0, 0, 0, 15, 255, 109, 129, 42, 232] }] } State.reset)),
    (_), (_), _, 0, rfl, by decide +kernel, rfl, by decide +kernel, (by decide +kernel)⟩,
   ⟨(setLk (fun l => { l with uplink := [(1, 0, false, [])] }) State.reset), (1), 0, false, [], [], _,
    by decide +kernel, rfl, by decide +kernel⟩,
   ⟨(setF 0x5C 0x30 31 31 1 (setLk (fun l => { l with uplink := [(1, 0, false, [])] }) State.reset)), (1), 0, false,
    [], [], _, 0, by decide +kernel, rfl, by decide +kernel⟩,
   ⟨(setF 0x5C 0x30 31 31 1 (setLk (fun l => { l with uplink := [(1, 0, false, List.replicate 9001 0)] }) State.reset)),
    (1), 0, false, (List.replicate 9001 0), [], _, 0, (rfl), rfl, by decide +kernel,
    (by rw [List.length_replicate]; decide)⟩⟩

theorem witness_CoreControlCommands :
  (∃ (ofs : Byte) (s : State) (n : Nat) (rest : List Nat),
    loading s = n :: rest ∧ bootOfs s n = ofs.toNat)
  ∧ (∃ (ofs : Byte) (s : State) (n : Nat) (rest : List Nat),
    loading s = n :: rest ∧ bootOfs s n = ofs.toNat)
  ∧ (∃ (n : Fin 4) (s : State) (t : State),
    (coreOf s n.val).due = true ∧ mayStart s n.val = true
    ∧ t = setCore n.val (fun c => { c with due := false }) s ∧ bootSrc t n.val = 1)
  ∧ (∃ (n : Fin 4) (s : State) (t : State),
    (coreOf s n.val).due = true ∧ mayStart s n.val = true
    ∧ t = setCore n.val (fun c => { c with due := false }) s ∧ bootSrc t n.val = 2)
  ∧ (∃ (n : Fin 4) (s : State) (t : State),
    (coreOf s n.val).due = true ∧ mayStart s n.val = true
    ∧ t = setCore n.val (fun c => { c with due := false }) s ∧ bootSrc t n.val ≠ 1 ∧ bootSrc t n.val ≠ 2)
  ∧ (∃ (n : Fin 4) (s : State) (r : State × Bool),
    coreState s n.val = 2 ∧ funcDown s (acf n.val) = false ∧ r = checkImage n.val s ∧ r.2 = true)
  ∧ (∃ (n : Fin 4) (s : State) (r : State × Bool),
    coreState s n.val = 2 ∧ funcDown s (acf n.val) = false ∧ r = checkImage n.val s ∧ r.2 = false)
  ∧ (∃ (n : Fin 4) (mepc : W32) (mtval : W32) (s : State) (t : State),
    (coreRuns s n.val = true ∧ objF s (acf n.val) 0xC02 31 24 ≠ 0
    ∧ (coreOf s n.val).wdog.toNat + 400000 * objF s (acf n.val) 0xC02 31 24 ≤ now s)
    ∧ t = haltCore n.val (appFault n.val 2 mepc mtval s))
  ∧ (∃ (n : Fin 4) (s : State),
    coreRuns s n.val = true)
  ∧ (∃ (n : Fin 4) (s : State),
    coreRuns s n.val = true ∧ (coreOf s n.val).mtimecmp.toNat ≤ now s)
  ∧ (∃ (n : Fin 4) (s : State) (d : Deferred),
    findDeferred 0xC03 (acf n.val) s = some d) :=
  ⟨⟨0, (setCoreState 0 1 (setCore 0 (fun c => { c with starting := some true }) State.reset)), 0, [],
    by decide +kernel⟩,
   ⟨0, (setCoreState 0 1 (setCore 0 (fun c => { c with starting := some true }) State.reset)), 0, [],
    by decide +kernel⟩,
   ⟨(3), (setF 0x73 0xC00 31 29 2 (setCore 3 (fun c => { c with due := true }) State.reset)), _, by decide +kernel,
    by decide +kernel, rfl, by decide +kernel⟩,
   ⟨(3), (setF 0x73 0xC00 31 29 4 (setCore 3 (fun c => { c with due := true }) State.reset)), _, by decide +kernel,
    by decide +kernel, rfl, by decide +kernel⟩,
   ⟨(3), (setF 0x73 0xC00 31 29 0 (setCore 3 (fun c => { c with due := true }) State.reset)), _, by decide +kernel,
    by decide +kernel, rfl, by decide +kernel⟩,
   ⟨0, (memWrite (winBase State.reset 0) [77, 76, 71, 65, 80, 80, 48, 49, 67, 1, 0, 0, 0, 0, 0, 4, 0, 0, 0, 64, 72,
    103, 75, 199] (setF 0x70 0xC00 29 29 0 (setCoreState 0 2 State.reset))), _, by decide +kernel,
    by decide +kernel, rfl, by decide +kernel⟩,
   ⟨0, (setCoreState 0 2 State.reset), _, by decide +kernel, by decide +kernel, rfl, by decide +kernel⟩,
   ⟨0, 0, 0, (setClk (fun c => { c with tb := 400000 }) (setF 0x70 0xC02 31 24 1 (setCoreState 0 3 State.reset))), _,
    by decide +kernel, rfl⟩,
   ⟨0, (setCoreState 0 3 State.reset), by decide +kernel⟩,
   ⟨0, (setCoreState 0 3 State.reset), by decide +kernel⟩,
   ⟨0, ({ State.reset with cmd := { State.reset.cmd with deferred := [⟨0xC03, rq 0x70 [], []⟩] } }), (⟨0xC03,
    rq 0x70 [], []⟩), by decide +kernel⟩⟩

theorem witness_CoreRegisterWriteCommands :
  (∃ (n : Fin 4) (v : W32) (s : State) (t : State),
    coreRuns s n.val = true
    ∧ (t = (if v.getLsbD 3 then setCore n.val (fun c => { c with cjDone := false }) s else s)))
  ∧ (∃ (n : Fin 4) (s : State) (p : Pkt) (t : State),
    coreRuns s n.val = true ∧ qPop (0x10 + n.val) s = some (p, t))
  ∧ (∃ (n : Fin 4) (s : State),
    coreRuns s n.val = true)
  ∧ (∃ (n : Fin 4) (payload : Bytes) (s : State) (tag : Byte) (bytes : Nat) (t : State) (p : Pkt) (u : State),
    (coreOf s n.val).out = some (tag, bytes) ∧ coreRuns s n.val = true ∧ outReady s n.val = true
    ∧ t = (qPush (0x14 + n.val) (0x1D + n.val) false tag.toNat (slice payload 0 bytes)
        (setCore n.val (fun c => { c with out := none }) s)).1
    ∧ qPop (0x14 + n.val) t = some (p, u))
  ∧ (∃ (n : Fin 4) (s : State),
    coreRuns s n.val = true)
  ∧ (∃ (n : Fin 4) (addr : W32) (s : State) (a : Nat),
    (coreRuns s n.val = true ∧ 0x40000000 ≤ addr.toNat ∧ addr.toNat % 8 = 0)
    ∧ a = partBase s 7 + (addr.toNat - 0x40000000) ∧ inWindow s n.val a 48 = true
    ∧ (coreOf s n.val).cj.length < 16)
  ∧ (∃ (n : Fin 4) (addr : W32) (s : State) (a : Nat),
    (coreRuns s n.val = true ∧ 0x40000000 ≤ addr.toNat ∧ addr.toNat % 8 = 0)
    ∧ a = partBase s 7 + (addr.toNat - 0x40000000) ∧ inWindow s n.val a 48 = true
    ∧ 16 ≤ (coreOf s n.val).cj.length)
  ∧ (∃ (n : Fin 4) (s : State),
    coreRuns s n.val = true)
  ∧ (∃ (n : Fin 4) (s : State),
    coreRuns s n.val = true)
  ∧ (∃ (n : Fin 4) (s : State),
    coreRuns s n.val = true) :=
  ⟨⟨(3), (0xA), (setCoreState 3 3 State.reset), _, by decide +kernel, rfl⟩,
   ⟨(3), (setCoreState 3 3 (setQ 0x13 { que0 with pkts := [default] } State.reset)), (_), (_), by decide +kernel, rfl⟩,
   ⟨(3), (setCoreState 3 3 State.reset), by decide +kernel⟩,
   ⟨(3), [], (setCoreState 3 3 (setCore 3 (fun c => { c with out := some (0, 8) }) State.reset)), 0, (8), _, (_), (_),
    (by decide +kernel), by decide +kernel, by decide +kernel, rfl, rfl⟩,
   ⟨(3), (setCoreState 3 3 State.reset), by decide +kernel⟩,
   ⟨(3), (0x40000000), (setF 0x73 0xC01 31 27 0 (setCoreState 3 3 State.reset)), _, by decide +kernel, rfl,
    by decide +kernel⟩,
   ⟨(3), (0x40000000),
    (setF 0x73 0xC01 31 27 0 (setCoreState 3 3 (setCore 3 (fun c => { c with cj := List.replicate 16 0 }) State.reset))),
    _, by decide +kernel, rfl, by decide +kernel⟩,
   ⟨(3), (setCoreState 3 3 State.reset), by decide +kernel⟩,
   ⟨(3), (setCoreState 3 3 State.reset), by decide +kernel⟩,
   ⟨(3), (setCoreState 3 3 State.reset), by decide +kernel⟩⟩

theorem witness_ServiceAndTestPortCommands :
  (∃ (s : State) (new : Fin 5) (t : State) (u : State),
    s.pw.lcNext = some new ∧ s.phase = .running
    ∧ (t = ({ s with
        cmd := { s.cmd with deferred := [] }
        fuse := { s.fuse with
          records := s.fuse.records ++ [new], svcGens := if new.val = 2 then [] else s.fuse.svcGens } } : State))
    ∧ (u = (if new.val = 3 ∨ new.val = 4 then wipeKeys (revokeKek t) else t)))
  ∧ (∃ (reading : Nat) (s : State) (m : Nat),
    accepting s = true ∧ meterLevel s (meterSel s) reading = some m)
  ∧ (∃ (s : State) (e : W64),
    s.svc.locate = some e ∧ s.phase = .running ∧ e.toNat ≤ now s)
  ∧ (∃ (s : State),
    s.phase = .running ∧ s.svc.ledTest = true)
  ∧ (∃ (op : BitVec 6) (s : State) (t : State),
    t = tapSelects (setSvc (fun c => { c with tapIr := op }) s) ∧ tapHold t = true)
  ∧ (∃ (op : BitVec 6) (s : State) (t : State),
    t = tapSelects (setSvc (fun c => { c with tapIr := op }) s) ∧ tapHold t = false)
  ∧ (∃ (addr : BitVec 23) (s : State) (a : Nat) (m : Nat × Bytes × State),
    tapPrivate 0x20 s = true ∧ a = 8 * (addr.toNat / 8) ∧ heldAt s a 8 = none ∧ m = mcRead a 8 s)
  ∧ (∃ (addr : BitVec 23) (s : State) (a : Nat) (l : Nat),
    tapPrivate 0x20 s = true ∧ a = 8 * (addr.toNat / 8) ∧ heldAt s a 8 = some l)
  ∧ (∃ (s : State),
    tapPrivate 0x21 s = true) :=
  ⟨⟨(setPw (fun p => { p with lcNext := some 1 }) State.reset), (1), _, _, by decide +kernel, by decide +kernel, rfl,
    rfl⟩,
   ⟨0, (setF 0 0xD00 31 24 0x20 State.reset), 0, by decide +kernel⟩,
   ⟨(setSvc (fun c => { c with locate := some 0 }) State.reset), (0), by decide +kernel⟩,
   ⟨(setSvc (fun c => { c with ledTest := true }) State.reset), by decide +kernel⟩,
   ⟨(4), State.reset, _, rfl, by decide +kernel⟩,
   ⟨(2), State.reset, _, rfl, by decide +kernel⟩,
   ⟨0, (setSvc (fun c => { c with tapIr := 0x20 }) State.reset), _, _, by decide +kernel, rfl, by decide +kernel, rfl⟩,
   ⟨0,
    ({ setSvc (fun c => { c with tapIr := 0x20 }) State.reset with tr := { State.reset.tr with wiping := [⟨0, trSize, true, none⟩] } }),
    _, (0), by decide +kernel, rfl, by decide +kernel⟩,
   ⟨(setSvc (fun c => { c with tapIr := 0x21 }) State.reset), by decide +kernel⟩⟩

theorem witness_IdentityAndObjectReads :
  (∃ (r : Req) (s : State) (t : State),
    Serves 0x001 s ∧ t = takeMgmt 0x001 r s ∧ r.func = 0 ∧ r.params.length ≤ 2040)
  ∧ (∃ (r : Req) (s : State) (t : State),
    Serves 0x002 s ∧ t = takeMgmt 0x002 r s ∧ r.func = 0 ∧ r.params = [])
  ∧ (∃ (r : Req) (s : State) (t : State) (a : State × Bytes),
    Serves 0x101 s ∧ t = takeMgmt 0x101 r s ∧ (funcDefined r.func.toNat = true ∧ listLen r 4 255 = none
    ∧ badRead r.func.toNat (chunks 4 r.params) = none) ∧ a = sampleAll r.func.toNat (chunks 4 r.params) t)
  ∧ (∃ (r : Req) (s : State) (t : State) (d : Nat),
    Serves 0x101 s ∧ t = takeMgmt 0x101 r s ∧ funcDefined r.func.toNat = true ∧ listLen r 4 255 = none
    ∧ badRead r.func.toNat (chunks 4 r.params) = some d) :=
  ⟨⟨(rq 0 (List.replicate 2040 0)), State.reset, _, serves_of (by decide +kernel) (by decide +kernel), rfl,
    by decide +kernel⟩,
   ⟨(rq 0 []), State.reset, _, serves_of (by decide +kernel) (by decide +kernel), rfl, by decide +kernel⟩,
   ⟨(rq 0x78 [0x0E, 0x09, 0, 1]), State.reset, _, _, serves_of (by decide +kernel) (by decide +kernel), rfl,
    by decide +kernel, rfl⟩,
   ⟨(rq 0 [0xFF, 0xFF, 0, 0]), State.reset, _, (0), serves_of (by decide +kernel) (by decide +kernel), rfl,
    by decide +kernel⟩⟩

theorem witness_ObjectWrites :
  (∃ (r : Req) (s : State) (t : State) (u : State),
    Serves 0x102 s ∧ t = takeMgmt 0x102 r s ∧ funcDefined r.func.toNat = true ∧ listLen r 8 256 = none
    ∧ writeEntries r 8 0 (chunks 8 r.params) t = .ok u)
  ∧ (∃ (r : Req) (s : State) (t : State) (d : Nat) (st : W16),
    Serves 0x102 s ∧ t = takeMgmt 0x102 r s ∧ funcDefined r.func.toNat = true ∧ listLen r 8 256 = none
    ∧ writeEntries r 8 0 (chunks 8 r.params) t = .error (d, st))
  ∧ (∃ (r : Req) (s : State) (t : State) (u : State),
    Serves 0x103 s ∧ t = takeMgmt 0x103 r s ∧ funcDefined r.func.toNat = true ∧ listLen r 12 170 = none
    ∧ writeEntries r 12 0 (chunks 12 r.params) t = .ok u)
  ∧ (∃ (r : Req) (s : State) (t : State) (u : State),
    Serves 0x102 s ∧ isModify r s = false ∧ t = takeMgmt 0x102 r s ∧ funcDefined r.func.toNat = true
    ∧ listLen r 8 256 = none ∧ writeEntries r 8 0 (chunks 8 r.params) t = .ok u)
  ∧ (∃ (r : Req) (s : State) (t : State) (u : State),
    Serves 0x103 s ∧ isModify r s = true ∧ t = takeMgmt 0x103 r s ∧ funcDefined r.func.toNat = true
    ∧ listLen r 12 170 = none ∧ writeEntries r 12 0 (chunks 12 r.params) t = .ok u)
  ∧ (∃ (func : Byte) (id : W16) (s : State) (old : W32),
    old = ((s.w1c.find? (fun e => e.1 == okey func.toNat id.toNat)).map (·.2)).getD 0) :=
  ⟨⟨(rq 0 [0x0E, 0x20, 0, 0, 0, 0, 0, 0]), State.reset, _, (_), serves_of (by decide +kernel) (by decide +kernel),
    rfl, by decide +kernel, by decide +kernel, (rfl)⟩,
   ⟨(rq 0 [0xFF, 0xFF, 0, 0, 0, 0, 0, 0]), State.reset, _, (_), (_),
    serves_of (by decide +kernel) (by decide +kernel), rfl, by decide +kernel, by decide +kernel, (rfl)⟩,
   ⟨(rq 0 [0x0E, 0x20, 0, 0, 0, 0, 0, 0, 0, 0, 0, 0]), State.reset, _, (_),
    serves_of (by decide +kernel) (by decide +kernel), rfl, by decide +kernel, by decide +kernel, (rfl)⟩,
   ⟨(rq 0 [0x0E, 0x20, 0, 0, 0, 0, 0, 0]), State.reset, _, (_), serves_of (by decide +kernel) (by decide +kernel),
    by decide +kernel, rfl, by decide +kernel, by decide +kernel, (rfl)⟩,
   ⟨(rq 0 [0x0E, 0x20, 0, 0, 0, 0, 0, 0, 0, 0, 0, 0]),
    ({ State.reset with cmd := { State.reset.cmd with mgmt := [(0x103, rq 0 [0x0E, 0x20, 0, 0, 0, 0, 0, 0, 0, 0, 0, 0])] } }),
    _, (_), serves_of (by decide +kernel) (by decide +kernel), by decide +kernel, rfl, by decide +kernel,
    by decide +kernel, (rfl)⟩,
   ⟨0, 0, State.reset, _, rfl⟩⟩

theorem witness_ResetAndPowerRequests :
  (∃ (r : Req) (s : State) (t : State),
    Serves 0x201 s ∧ t = takeMgmt 0x201 r s ∧ r.func = 0 ∧ r.params = [])
  ∧ (∃ (r : Req) (s : State) (t : State),
    Serves 0x202 s ∧ t = takeMgmt 0x202 r s ∧ funcDefined r.func.toNat = true ∧ r.func.toNat ≠ 0
    ∧ r.params.length = 4 ∧ resetRefused r.func.toNat t = none ∧ deferRule r t = none)
  ∧ (∃ (r : Req) (s : State) (t : State),
    Serves 0x203 s ∧ t = takeMgmt 0x203 r s ∧ funcDefined r.func.toNat = true ∧ r.func.toNat ≠ 0 ∧ r.params = []
    ∧ funcHeld t r.func.toNat = true ∧ deferRule r t = none)
  ∧ (∃ (r : Req) (s : State) (t : State) (d : Nat),
    Serves 0x210 s ∧ t = takeMgmt 0x210 r s ∧ r.func = 0 ∧ r.params.length = 4 ∧ d = byteAt r.params 0 ∧ d ≤ 29
    ∧ byteAt r.params 1 = 0 ∧ pdSetOk t d false = true ∧ domOf t d ≠ .off)
  ∧ (∃ (r : Req) (s : State) (t : State) (d : Nat),
    Serves 0x210 s ∧ t = takeMgmt 0x210 r s ∧ r.func = 0 ∧ r.params.length = 4 ∧ d = byteAt r.params 0 ∧ d ≤ 29
    ∧ byteAt r.params 1 = 1 ∧ pdSetOk t d true = true ∧ domOf t d ≠ .on)
  ∧ (∃ (r : Req) (s : State) (t : State),
    Serves 0x220 s ∧ t = takeMgmt 0x220 r s ∧ r.func = 0 ∧ r.params = [] ∧ objF t 0x69 0xB09 22 22 ≠ 1) :=
  ⟨⟨(rq 0 []), State.reset, _, serves_of (by decide +kernel) (by decide +kernel), rfl, by decide +kernel⟩,
   ⟨(rq 0x10 [0, 0, 0, 0]), State.reset, _, serves_of (by decide +kernel) (by decide +kernel), rfl, by decide +kernel⟩,
   ⟨(rq 0x10 []), (setPw (fun p => { p with held := [0x10] }) State.reset), _,
    serves_of (by decide +kernel) (by decide +kernel), rfl, by decide +kernel⟩,
   ⟨(rq 0 [5, 0, 0, 0]), State.reset, _, _, serves_of (by decide +kernel) (by decide +kernel), rfl, by decide +kernel,
    by decide +kernel, rfl, by decide +kernel⟩,
   ⟨(rq 0 [26, 1, 0, 0]), (setDom 26 .off State.reset), _, _, serves_of (by decide +kernel) (by decide +kernel), rfl,
    by decide +kernel, by decide +kernel, rfl, by decide +kernel⟩,
   ⟨(rq 0 []), State.reset, _, serves_of (by decide +kernel) (by decide +kernel), rfl, by decide +kernel⟩⟩

theorem witness_LifeCycleRequests :
  (∃ (r : Req) (low : Bool) (s : State) (u : State) (t : State),
    (u = (if tapHold s then s else setPw (fun p => { p with svcLow := low }) s)) ∧ Serves 0x301 u
    ∧ t = takeMgmt 0x301 r u ∧ r.func = 0 ∧ r.params.length = 4 ∧ beAt r.params 0 4 = Config.eui.toNat % 2 ^ 32
    ∧ t.pw.lcNext = none ∧ (viaHost r || viaConsole r) = true ∧ lifeCycle t = 0 ∧ kekOk t t.fuse.kekGen = true
    ∧ t.fuse.records.length < 31)
  ∧ (∃ (r : Req) (low : Bool) (s : State) (u : State) (t : State),
    (u = (if tapHold s then s else setPw (fun p => { p with svcLow := low }) s)) ∧ Serves 0x302 u
    ∧ t = takeMgmt 0x302 r u ∧ r.func = 0 ∧ r.params.length = 4 ∧ beAt r.params 0 4 = Config.eui.toNat % 2 ^ 32
    ∧ t.pw.lcNext = none ∧ viaHost r = true ∧ lifeCycle t = 1 ∧ (netSlot t).isSome = true
    ∧ t.fuse.records.length < 31)
  ∧ (∃ (r : Req) (low : Bool) (s : State) (u : State) (t : State),
    (u = (if tapHold s then s else setPw (fun p => { p with svcLow := low }) s)) ∧ Serves 0x303 u
    ∧ t = takeMgmt 0x303 r u ∧ r.func = 0 ∧ r.params.length = 4 ∧ beAt r.params 0 4 = Config.eui.toNat % 2 ^ 32
    ∧ t.pw.lcNext = none ∧ viaConsole r = true ∧ (lifeCycle t = 1 ∨ lifeCycle t = 2) ∧ t.pw.svcLow = true
    ∧ t.fuse.records.length < 31)
  ∧ (∃ (r : Req) (low : Bool) (s : State) (u : State) (t : State),
    (u = (if tapHold s then s else setPw (fun p => { p with svcLow := low }) s)) ∧ Serves 0x304 u
    ∧ t = takeMgmt 0x304 r u ∧ r.func = 0 ∧ r.params.length = 4 ∧ beAt r.params 0 4 = Config.eui.toNat % 2 ^ 32
    ∧ t.pw.lcNext = none ∧ viaHost r = true ∧ lifeCycle t = 3 ∧ t.pw.svcLow = false ∧ t.fuse.svcGens ≠ []
    ∧ t.fuse.records.length < 31)
  ∧ (∃ (r : Req) (low : Bool) (s : State) (u : State) (t : State),
    (u = (if tapHold s then s else setPw (fun p => { p with svcLow := low }) s)) ∧ Serves 0x305 u
    ∧ t = takeMgmt 0x305 r u ∧ r.func = 0 ∧ r.params.length = 4 ∧ beAt r.params 0 4 = Config.eui.toNat % 2 ^ 32
    ∧ t.pw.lcNext = none ∧ (viaHost r = true ∨ (viaConsole r = true ∧ t.pw.svcLow = true))) :=
  ⟨⟨(lcReq (.host 0 0 none)), false, (withKek), _, _, rfl, serves_of (by decide +kernel) (by decide +kernel), rfl,
    by decide +kernel, by decide +kernel, (lcReq_confirms _), by decide +kernel⟩,
   ⟨(lcReq (.host 0 0 none)), false, (committed), _, _, rfl, serves_of (by decide +kernel) (by decide +kernel), rfl,
    by decide +kernel, by decide +kernel, (lcReq_confirms _), by decide +kernel⟩,
   ⟨(lcReq (.console)), (true), (inLife [1, 2]), _, _, rfl, serves_of (by decide +kernel) (by decide +kernel), rfl,
    by decide +kernel, by decide +kernel, (lcReq_confirms _), by decide +kernel⟩,
   ⟨(lcReq (.host 0 0 none)), false, (inService3), _, _, rfl, serves_of (by decide +kernel) (by decide +kernel), rfl,
    by decide +kernel, by decide +kernel, (lcReq_confirms _), by decide +kernel⟩,
   ⟨(lcReq (.host 0 0 none)), false, (inLife []), _, _, rfl, serves_of (by decide +kernel) (by decide +kernel), rfl,
    by decide +kernel, by decide +kernel, (lcReq_confirms _), by decide +kernel⟩⟩

theorem witness_PortRequests :
  (∃ (r : Req) (s : State) (t : State),
    Serves 0x401 s ∧ t = takeMgmt 0x401 r s ∧ portFunc r = true ∧ r.params = []
    ∧ funcDown s r.func.toNat = false ∧ testRefused t (reqPort r) = false ∧ deferRule r t = none)
  ∧ (∃ (r : Req) (s : State) (t : State) (b : Bytes),
    Serves 0x402 s ∧ t = takeMgmt 0x402 r s ∧ portFunc r = true ∧ r.params = []
    ∧ funcDown s r.func.toNat = false ∧ (portOf t (reqPort r)).sound = some b)
  ∧ (∃ (r : Req) (s : State) (t : State),
    Serves 0x403 s ∧ t = takeMgmt 0x403 r s ∧ portFunc r = true ∧ r.params.length = 4
    ∧ funcDown s r.func.toNat = false ∧ portState t (reqPort r) = 2
    ∧ (nbit (beAt r.params 0 4) 0 = true ∨ dependsOn t (reqPort r) = false))
  ∧ (∃ (r : Req) (s : State) (t : State) (u : W64),
    Serves 0x404 s ∧ t = takeMgmt 0x404 r s ∧ portFunc r = true ∧ r.params = []
    ∧ funcDown s r.func.toNat = false
    ∧ (portState t (reqPort r) = 3 ∨ portState t (reqPort r) = 4 ∨ portState t (reqPort r) = 5)
    ∧ (portOf t (reqPort r)).passTb = some u ∧ now t ≤ u.toNat + 24000000000 ∧ needsReset t (reqPort r) = false) :=
  ⟨⟨(rq 0x15 []), (setClk (fun c => { c with track := .slew }) State.reset), _,
    serves_of (by decide +kernel) (by decide +kernel), rfl, by decide +kernel⟩,
   ⟨(rq 0x15 []), (setPort 5 (fun k => { k with sound := some [0] }) State.reset), _, ([0]),
    serves_of (by decide +kernel) (by decide +kernel), rfl, by decide +kernel⟩,
   ⟨(rq 0x15 [0, 0, 0, 1]), (setF 0x15 0x403 31 28 2 State.reset), _,
    serves_of (by decide +kernel) (by decide +kernel), rfl, by decide +kernel⟩,
   ⟨(rq 0x15 []), (setF 0x15 0x403 31 28 3 (setPort 5 (fun k => { k with passTb := some 0 }) State.reset)), _, (0),
    serves_of (by decide +kernel) (by decide +kernel), rfl, by decide +kernel⟩⟩

theorem witness_MaskAndShapeRequests :
  (∃ (r : Req) (s : State) (t : State),
    Serves 0x501 s ∧ t = takeMgmt 0x501 r s ∧ r.func = 0 ∧ r.params.length = 216)
  ∧ (∃ (r : Req) (s : State) (t : State),
    Serves 0x502 s ∧ t = takeMgmt 0x502 r s ∧ r.func = 0 ∧ r.params = [])
  ∧ (∃ (r : Req) (s : State) (t : State) (p : Nat) (h : List (BitVec 16)),
    Serves 0x510 s ∧ t = takeMgmt 0x510 r s ∧ portFunc r = true ∧ r.params.length = 132 ∧ p = reqPort r
    ∧ funcDown s r.func.toNat = false
    ∧ h = (List.range 64).map (fun i => BitVec.ofNat 16 (beAt r.params (4 + 2 * i) 2)) ∧ byteAt r.params 0 = 0
    ∧ shapeRefusal t p 0 = none)
  ∧ (∃ (r : Req) (s : State) (t : State) (p : Nat) (h : List (BitVec 16)),
    Serves 0x510 s ∧ t = takeMgmt 0x510 r s ∧ portFunc r = true ∧ r.params.length = 132 ∧ p = reqPort r
    ∧ funcDown s r.func.toNat = false
    ∧ h = (List.range 64).map (fun i => BitVec.ofNat 16 (beAt r.params (4 + 2 * i) 2)) ∧ byteAt r.params 0 = 1
    ∧ shapeRefusal t p 1 = none)
  ∧ (∃ (r : Req) (s : State) (t : State) (b : Nat),
    Serves 0x511 s ∧ t = takeMgmt 0x511 r s ∧ (portFunc r = true ∧ r.params.length = 4
    ∧ funcDown s r.func.toNat = false) ∧ b = byteAt r.params 0 ∧ b ≤ 1 ∧ byteAt r.params 1 ≤ 3
    ∧ shapeRefusal t (reqPort r) b = none)
  ∧ (∃ (r : Req) (s : State) (t : State) (p : Nat),
    Serves 0x512 s ∧ t = takeMgmt 0x512 r s ∧ portFunc r = true ∧ r.params = [] ∧ p = reqPort r
    ∧ funcDown s r.func.toNat = false ∧ objF t (pf p) 0x503 13 13 ≠ 1 ∧ (portOf t p).fadeAt = none
    ∧ (portOf t p).fadeWait = false)
  ∧ (∃ (r : Req) (s : State) (t : State) (p : Nat) (u : Nat) (q : Nat),
    Serves 0x512 s ∧ t = takeMgmt 0x512 r s ∧ portFunc r = true ∧ r.params = [] ∧ p = reqPort r
    ∧ (funcDown s r.func.toNat = false ∧ objF t (pf p) 0x503 13 13 ≠ 1 ∧ (portOf t p).fadeAt = some u)
    ∧ q = min (portOf t p).fadeLen (now t - u))
  ∧ (∃ (r : Req) (s : State) (t : State) (p : Nat),
    Serves 0x512 s ∧ t = takeMgmt 0x512 r s ∧ portFunc r = true ∧ r.params = [] ∧ p = reqPort r
    ∧ funcDown s r.func.toNat = false ∧ objF t (pf p) 0x503 13 13 ≠ 1 ∧ (portOf t p).fadeAt = none
    ∧ (portOf t p).fadeWait = true)
  ∧ (∃ (r : Req) (s : State) (t : State) (b : Nat) (id : Nat) (h : List W16),
    Serves 0x513 s ∧ t = takeMgmt 0x513 r s ∧ (portFunc r = true ∧ r.params.length = 4
    ∧ funcDown s r.func.toNat = false) ∧ b = byteAt r.params 0 ∧ b ≤ 1
    ∧ (id = (if b = 1 then objF t (pf (reqPort r)) 0x503 16 14 else objF t (pf (reqPort r)) 0x503 19 17))
    ∧ (h = (if b = 1 then (portOf t (reqPort r)).coefB else (portOf t (reqPort r)).coefA))) :=
  ⟨⟨(rq 0 (List.replicate 216 0)), State.reset, _, serves_of (by decide +kernel) (by decide +kernel), rfl,
    by decide +kernel⟩,
   ⟨(rq 0 []), State.reset, _, serves_of (by decide +kernel) (by decide +kernel), rfl, by decide +kernel⟩,
   ⟨(rq 0x15 (List.replicate 132 0)), (setF 0x15 0x503 31 31 1 State.reset), _, _, _,
    serves_of (by decide +kernel) (by decide +kernel), rfl, by decide +kernel, by decide +kernel, rfl,
    by decide +kernel, rfl, by decide +kernel⟩,
   ⟨(rq 0x15 (1 :: List.replicate 131 0)), State.reset, _, _, _, serves_of (by decide +kernel) (by decide +kernel),
    rfl, by decide +kernel, by decide +kernel, rfl, by decide +kernel, rfl, by decide +kernel⟩,
   ⟨(rq 0x15 [1, 3, 0, 0]), State.reset, _, _, serves_of (by decide +kernel) (by decide +kernel), rfl,
    by decide +kernel, rfl, by decide +kernel⟩,
   ⟨(rq 0x15 []), State.reset, _, _, serves_of (by decide +kernel) (by decide +kernel), rfl, by decide +kernel,
    by decide +kernel, rfl, by decide +kernel⟩,
   ⟨(rq 0x15 []), (setPort 5 (fun k => { k with fadeAt := some 0 }) State.reset), _, _, (0), _,
    serves_of (by decide +kernel) (by decide +kernel), rfl, by decide +kernel, by decide +kernel, rfl,
    by decide +kernel, rfl⟩,
   ⟨(rq 0x15 []), (setPort 5 (fun k => { k with fadeWait := true }) State.reset), _, _,
    serves_of (by decide +kernel) (by decide +kernel), rfl, by decide +kernel, by decide +kernel, rfl,
    by decide +kernel⟩,
   ⟨(rq 0x15 [1, 0, 0, 0]), State.reset, _, _, _, _, serves_of (by decide +kernel) (by decide +kernel), rfl,
    by decide +kernel, rfl, by decide +kernel, rfl, rfl⟩⟩

theorem witness_BroadbandRequests :
  (∃ (r : Req) (s : State) (t : State) (v : Nat),
    Serves 0x530 s ∧ t = takeMgmt 0x530 r s ∧ (portFunc r = true ∧ r.params.length = 4
    ∧ funcDown s r.func.toNat = false) ∧ v = beAt r.params 0 4 ∧ 1 ≤ nfield v 31 26 ∧ nfield v 31 26 ≤ 60
    ∧ 1 ≤ nfield v 25 22 ∧ nfield v 25 22 ≤ 12 ∧ nfield v 21 20 ≠ 3 ∧ testRefused t (reqPort r) = false
    ∧ deferRule r t = none)
  ∧ (∃ (r : Req) (s : State) (t : State) (b : Bytes),
    Serves 0x520 s ∧ t = takeMgmt 0x520 r s ∧ r.func = 0 ∧ r.params.length = 4 ∧ byteAt r.params 0 ≤ 5
    ∧ (rxOf t (byteAt r.params 0)).report = some b)
  ∧ (∃ (r : Req) (s : State) (t : State),
    Serves 0x521 s ∧ t = takeMgmt 0x521 r s ∧ r.func = 0 ∧ r.params.length = 4 ∧ 1 ≤ reqNode r
    ∧ reqNode r ≤ 4094 ∧ nState t (reqNode r) ≠ 0)
  ∧ (∃ (r : Req) (s : State) (t : State) (v : Nat) (n : BitVec 12) (idx : Nat) (t0 : Nat) (views : List Bytes),
    Serves 0x522 s ∧ t = takeMgmt 0x522 r s ∧ r.func = 0 ∧ r.params.length = 4 ∧ v = byteAt r.params 0 ∧ v ≤ 6
    ∧ t.bb.snrCap = some (n, idx, t0, views))
  ∧ (∃ (r : Req) (s : State) (t : State),
    Serves 0x523 s ∧ t = takeMgmt 0x523 r s ∧ portFunc r = true ∧ r.params = []
    ∧ funcDown s r.func.toNat = false) :=
  ⟨⟨(rq 0x15 [0xF3, 0, 0, 0]), (setClk (fun c => { c with track := .slew }) State.reset), _, _,
    serves_of (by decide +kernel) (by decide +kernel), rfl, by decide +kernel, rfl, by decide +kernel⟩,
   ⟨(rq 0 [5, 0, 0, 0]), (setRx 5 (fun x => { x with report := some [0] }) State.reset), _, ([0]),
    serves_of (by decide +kernel) (by decide +kernel), rfl, by decide +kernel⟩,
   ⟨(rq 0 [0xFF, 0xE0, 0, 0]), (nSet 4094 8 2 0x4000 State.reset), _,
    serves_of (by decide +kernel) (by decide +kernel), rfl, by decide +kernel⟩,
   ⟨(rq 0 [6, 0, 0, 0]), (setBb (fun b => { b with snrCap := some (1, 0, 0, []) }) State.reset), _, _, (1), 0, 0, [],
    serves_of (by decide +kernel) (by decide +kernel), rfl, by decide +kernel, by decide +kernel, rfl,
    by decide +kernel⟩,
   ⟨(rq 0x15 []), State.reset, _, serves_of (by decide +kernel) (by decide +kernel), rfl, by decide +kernel⟩⟩

theorem witness_DecoderAndNarrowbandRequests :
  (∃ (r : Req) (s : State) (t : State) (b : Bytes),
    Serves 0x540 s ∧ t = takeMgmt 0x540 r s ∧ r.func = 0 ∧ r.params.length = 4 ∧ byteAt r.params 0 ≤ 5
    ∧ vAt t.dec.report (byteAt r.params 0) = some b)
  ∧ (∃ (r : Req) (s : State) (t : State),
    Serves 0x541 s ∧ t = takeMgmt 0x541 r s ∧ 0x20 ≤ r.func.toNat ∧ r.func.toNat ≤ 0x33 ∧ r.params = []
    ∧ funcHeld s r.func.toNat = false ∧ s.pw.resetting.any (fun x => decide (x.func = r.func)) = false
    ∧ (funcDomains r.func.toNat).any (fun d => decide (domOf t d ≠ .on)) = false
    ∧ clOf t (r.func.toNat - 0x20) ≠ .active ∧ deferRule r t = none)
  ∧ (∃ (r : Req) (s : State) (t : State) (b : Bytes),
    Serves 0x601 s ∧ t = takeMgmt 0x601 r s ∧ r.func = 0 ∧ r.params.length = 4 ∧ byteAt r.params 0 ≤ 5
    ∧ byteAt r.params 1 ≤ 7 ∧ (nbOf t (nbI (byteAt r.params 0) (byteAt r.params 1))).report = some b)
  ∧ (∃ (r : Req) (s : State) (t : State),
    Serves 0x602 s ∧ t = takeMgmt 0x602 r s ∧ portFunc r = true ∧ r.params = []
    ∧ funcDown s r.func.toNat = false)
  ∧ (∃ (r : Req) (s : State) (t : State) (v : Nat),
    Serves 0x603 s ∧ t = takeMgmt 0x603 r s ∧ (portFunc r = true ∧ r.params.length = 4
    ∧ funcDown s r.func.toNat = false) ∧ v = beAt r.params 0 4 ∧ 1 ≤ nfield v 31 26 ∧ nfield v 31 26 ≤ 60
    ∧ testRefused t (reqPort r) = false
    ∧ nbEnabled (nbOf t (nbI (groupOf t (reqPort r)) (nfield v 25 23))).cfg = true ∧ deferRule r t = none) :=
  ⟨⟨(rq 0 [5, 0, 0, 0]),
    ({ State.reset with dec := { State.reset.dec with report := vSet State.reset.dec.report 5 (some [0]) } }), _,
    ([0]), serves_of (by decide +kernel) (by decide +kernel), rfl, by decide +kernel⟩,
   ⟨(rq 0x33 []), State.reset, _, serves_of (by decide +kernel) (by decide +kernel), rfl, by decide +kernel⟩,
   ⟨(rq 0 [5, 7, 0, 0]), (setNbRx 47 (fun x => { x with report := some [0] }) State.reset), _, ([0]),
    serves_of (by decide +kernel) (by decide +kernel), rfl, by decide +kernel⟩,
   ⟨(rq 0x15 []), State.reset, _, serves_of (by decide +kernel) (by decide +kernel), rfl, by decide +kernel⟩,
   ⟨(rq 0x15 [0xF3, 0x80, 0, 0]),
    (setClk (fun c => { c with track := .slew }) (setNbRx 7 (fun x => { x with cfg := 0x2000 }) State.reset)), _,
    _, serves_of (by decide +kernel) (by decide +kernel), rfl, by decide +kernel, rfl, by decide +kernel⟩⟩

theorem witness_NodeRequests :
  (∃ (r : Req) (s : State) (t : State),
    Serves 0x710 s ∧ t = takeMgmt 0x710 r s ∧ r.func = 0 ∧ r.params.length = 4 ∧ reqNode r ≤ 4094
    ∧ hasEntry t (reqNode r) = true)
  ∧ (∃ (r : Req) (s : State) (t : State) (n : Nat),
    Serves 0x711 s ∧ t = takeMgmt 0x711 r s ∧ r.func = 0 ∧ r.params.length = 8
    ∧ nodeOfEui t (beAt r.params 0 8) = some n)
  ∧ (∃ (r : Req) (s : State) (t : State) (n : Nat),
    Serves 0x712 s ∧ t = takeMgmt 0x712 r s ∧ r.func = 0 ∧ r.params.length = 4 ∧ n = reqNode r ∧ n ≤ 4094
    ∧ n ≠ 0 ∧ nState t n ≠ 0)
  ∧ (∃ (r : Req) (s : State) (t : State) (n : Nat) (v : Nat) (c : Nat),
    Serves 0x713 s ∧ t = takeMgmt 0x713 r s ∧ r.func = 0 ∧ r.params.length = 4 ∧ n = reqNode r ∧ n ≤ 4094
    ∧ v = beAt r.params 0 4 ∧ mapSlot t n (nfield v 19 19) (nfield v 18 16) = some c)
  ∧ (∃ (r : Req) (s : State) (t : State) (n : Nat),
    Serves 0x714 s ∧ t = takeMgmt 0x714 r s ∧ r.func = 0 ∧ r.params.length = 4 ∧ n = reqNode r ∧ n ≤ 4094
    ∧ hasEntry t n = true)
  ∧ (∃ (r : Req) (s : State) (t : State) (b : Bytes),
    Serves 0x715 s ∧ t = takeMgmt 0x715 r s ∧ r.func = 0 ∧ r.params.length = 4 ∧ byteAt r.params 0 ≤ 5
    ∧ (grpL t (byteAt r.params 0)).beacon = some b)
  ∧ (∃ (r : Req) (s : State) (t : State) (n : Nat),
    Serves 0x716 s ∧ t = takeMgmt 0x716 r s ∧ r.func = 0 ∧ r.params.length = 4 ∧ n = reqNode r ∧ n ≤ 4094
    ∧ n ≠ 0 ∧ nState t n ≠ 0)
  ∧ (∃ (r : Req) (s : State) (t : State) (n : Nat) (v : Nat),
    Serves 0x720 s ∧ t = takeMgmt 0x720 r s ∧ r.func = 0 ∧ r.params.length = 4 ∧ n = reqNode r ∧ n ≤ 4094
    ∧ v = beAt r.params 0 4 ∧ nbit v 11 = true ∧ n ≠ 0 ∧ nState t n ≠ 0)
  ∧ (∃ (r : Req) (s : State) (t : State) (n : Nat) (v : Nat) (kind : Nat) (idx : Nat),
    Serves 0x720 s ∧ t = takeMgmt 0x720 r s ∧ r.func = 0 ∧ r.params.length = 4 ∧ n = reqNode r ∧ n ≤ 4094
    ∧ v = beAt r.params 0 4 ∧ kind = nfield v 19 18 ∧ idx = nfield v 15 12 ∧ (nbit v 11 = false ∨ n = 0)
    ∧ (nbit v 11 = true ∨ kind ≠ 2 ∨ idx ≤ 3) ∧ (n = 0 ∨ nState t n ≠ 0)
    ∧ (kind ≠ 1 ∨ objF t 0 (0x910 + idx) 31 31 ≠ 0))
  ∧ (∃ (r : Req) (s : State) (t : State) (n : Nat) (d : Nat × Nat × Bool),
    Serves 0x721 s ∧ t = takeMgmt 0x721 r s ∧ r.func = 0 ∧ r.params.length = 4 ∧ n = reqNode r ∧ n ≤ 4094
    ∧ d = destOf t n) :=
  ⟨⟨(rq 0 [0xFF, 0xE0, 0, 0]), (nSet 4094 8 2 0x4000 State.reset), _,
    serves_of (by decide +kernel) (by decide +kernel), rfl, by decide +kernel⟩,
   ⟨(rq 0 (beBytes 8 Config.eui.toNat)), State.reset, _, (0), serves_of (by decide +kernel) (by decide +kernel), rfl,
    by decide +kernel, by decide +kernel, (nodeOfEui_own _)⟩,
   ⟨(rq 0 [0xFF, 0xE0, 0, 0]), (nSet 4094 8 2 0x4000 State.reset), _, _,
    serves_of (by decide +kernel) (by decide +kernel), rfl, by decide +kernel, by decide +kernel, rfl,
    by decide +kernel⟩,
   ⟨(rq 0 [0xFF, 0xEF, 0, 0]),
    (memSetNat 0x4FFFF0 8 0x0FFE070101010000 (setMapRef 4094 15 (some 511) (nSet 4094 23 1 1 State.reset))), _, _,
    _, (511), serves_of (by decide +kernel) (by decide +kernel), rfl, by decide +kernel, by decide +kernel, rfl,
    by decide +kernel, rfl, by decide +kernel⟩,
   ⟨(rq 0 [0xFF, 0xE0, 0, 0]), (nSet 4094 8 2 0x4000 State.reset), _, _,
    serves_of (by decide +kernel) (by decide +kernel), rfl, by decide +kernel, by decide +kernel, rfl,
    by decide +kernel⟩,
   ⟨(rq 0 [5, 0, 0, 0]), (setGrpL 5 (fun l => { l with beacon := some [0] }) State.reset), _, ([0]),
    serves_of (by decide +kernel) (by decide +kernel), rfl, by decide +kernel⟩,
   ⟨(rq 0 [0xFF, 0xE0, 0, 0]), (nSet 4094 8 2 0x4000 State.reset), _, _,
    serves_of (by decide +kernel) (by decide +kernel), rfl, by decide +kernel, by decide +kernel, rfl,
    by decide +kernel⟩,
   ⟨(rq 0 [0xFF, 0xE0, 8, 0]), (nSet 4094 8 2 0x4000 State.reset), _, _, _,
    serves_of (by decide +kernel) (by decide +kernel), rfl, by decide +kernel, by decide +kernel, rfl,
    by decide +kernel, rfl, by decide +kernel⟩,
   ⟨(rq 0 [0xFF, 0xE4, 0xF0, 0]), (setF 0 0x91F 31 31 1 (nSet 4094 8 2 0x4000 State.reset)), _, _, _, _, _,
    serves_of (by decide +kernel) (by decide +kernel), rfl, by decide +kernel, by decide +kernel, rfl,
    by decide +kernel, rfl, rfl, rfl, by decide +kernel⟩,
   ⟨(rq 0 [0xFF, 0xE0, 0, 0]), State.reset, _, _, _, serves_of (by decide +kernel) (by decide +kernel), rfl,
    by decide +kernel, by decide +kernel, rfl, by decide +kernel, rfl⟩⟩

theorem witness_ClocheRequests_1 :
  ∃ (r : Req) (s : State) (t : State) (j : JobSpec),
    Serves 0x801 s ∧ t = takeMgmt 0x801 r s ∧ (r.func = 0 ∧ 40 ≤ r.params.length ∧ funcDown s 0x50 = false)
    ∧ j = specOf r.params ∧ j.opOk = true ∧ j.lensOk = true
    ∧ (r.params.length = 40 + j.adLen + j.dataLen + (if j.seals then 0 else j.tagLen))
    ∧ ((if clocheUp t ∧ t.clo.jobs.isEmpty ∧ t.clo.redo.isEmpty then freeEngine t else none) = none) :=
  ⟨(rq 0 ([5, 0, 0, 2] ++ List.replicate 16 0 ++ [16] ++ List.replicate 19 0)), State.reset, _, _,
    serves_of (by decide +kernel) (by decide +kernel), rfl, by decide +kernel, rfl, by decide +kernel⟩

theorem witness_ClocheRequests_2 :
  ∃ (r : Req) (s : State) (t : State) (j : JobSpec) (e : Nat) (u : State) (key : Bytes) (nonce : Bytes) (o : State × W16 × Bytes),
    Serves 0x801 s ∧ t = takeMgmt 0x801 r s ∧ (r.func = 0 ∧ 40 ≤ r.params.length ∧ funcDown s 0x50 = false)
    ∧ j = specOf r.params ∧ (j.opOk = true ∧ j.lensOk = true
    ∧ (r.params.length = 40 + j.adLen + j.dataLen + (if j.seals then 0 else j.tagLen)))
    ∧ ((if clocheUp t ∧ t.clo.jobs.isEmpty ∧ t.clo.redo.isEmpty then freeEngine t else none) = some e)
    ∧ sampleJob j 1 t = (u, .inr (key, nonce))
    ∧ o = hostOutcome j r.params key nonce (bumpF (0x40 + e) 0x808 23 0 1
        (splitKey key (setClo (fun c => { c with lastReq := 0 }) u)).2) :=
  ⟨(rq 0 ([5, 0, 0, 2] ++ List.replicate 16 0 ++ [16] ++ List.replicate 19 0)),
    (setKeySlot 2 (List.replicate 24 0 ++ [3, 3, 7, 0, 0, 0, 0, 0]) keyed), _, _, (0), (_), (_), (_), _,
    serves_of (by decide +kernel) (by decide +kernel), rfl, by decide +kernel, rfl, by decide +kernel,
    (by decide +kernel), (rfl), rfl⟩

theorem witness_ClocheRequests_3 :
  ∃ (r : Req) (s : State) (t : State) (n : Nat),
    Serves 0x802 s ∧ t = takeMgmt 0x802 r s ∧ r.func = 0 ∧ r.params.length = 4
    ∧ n = nfield (beAt r.params 0 4) 31 21 ∧ 1 ≤ n ∧ funcDown s 0x50 = false ∧ objF t 0x50 0x800 31 31 ≠ 0
    ∧ drbgDead t = false :=
  ⟨(rq 0 [0xFF, 0xE0, 0, 0]), (keyed), _, _, serves_of (by decide +kernel) (by decide +kernel), rfl,
    by decide +kernel, by decide +kernel, rfl, by decide +kernel⟩

theorem witness_ClocheRequests_4 :
  ∃ (r : Req) (s : State) (t : State),
    Serves 0x802 s ∧ t = takeMgmt 0x802 r s ∧ r.func = 0 ∧ r.params.length = 4
    ∧ 1 ≤ nfield (beAt r.params 0 4) 31 21 ∧ funcDown s 0x50 = false ∧ objF t 0x50 0x800 31 31 = 0 :=
  ⟨(rq 0 [0xFF, 0xE0, 0, 0]), State.reset, _, serves_of (by decide +kernel) (by decide +kernel), rfl,
    by decide +kernel⟩

theorem witness_ClocheRequests_5 :
  ∃ (r : Req) (s : State) (t : State) (g : Nat),
    Serves 0x803 s ∧ t = takeMgmt 0x803 r s ∧ (r.func = 0 ∧ r.params.length = 32 ∧ funcDown s 0x50 = false
    ∧ (lifeCycle t = 0 ∨ lifeCycle t = 3)) ∧ g = t.fuse.kekGen + 1 ∧ g ≤ 15 :=
  ⟨(rq 0 (List.replicate 32 0)), State.reset, _, _, serves_of (by decide +kernel) (by decide +kernel), rfl,
    by decide +kernel, rfl, by decide +kernel⟩

theorem witness_ClocheRequests_6 :
  ∃ (r : Req) (s : State) (t : State) (n : Nat) (u : Bytes × Bool) (d : Bytes),
    Serves 0x810 s ∧ t = takeMgmt 0x810 r s ∧ (r.func = 0x50 ∧ r.params.length = 60 ∧ funcDown s 0x50 = false
    ∧ objF t 0x50 0x800 31 31 ≠ 0) ∧ n = reqSlot r ∧ (keyLife t = true ∧ kekOk t t.fuse.kekGen = true
    ∧ kClass t n ≠ 4 ∧ u = kwUnwrap (kekKey t t.fuse.kekGen) (slice r.params 4 56) ∧ u.2 = true) ∧ d = u.1
    ∧ byteAt d 11 ≤ 1 ∧ keyFits t n (beAt d 0 8) (byteAt d 8) (byteAt d 9) (byteAt d 11 == 1) = true :=
  ⟨(rq 0x50 ([0, 0, 0, 0] ++ wrapped48)), (setF 0x50 0x800 31 31 1 withKek), _, _, ((List.replicate 8 0 ++ [2, 1, 7,
    0] ++ List.replicate 36 0, true)), _, serves_of (by decide +kernel) (by decide +kernel), rfl,
    by decide +kernel, rfl, by decide +kernel, rfl, by decide +kernel⟩

theorem witness_ClocheRequests_7 :
  ∃ (r : Req) (s : State) (t : State) (n : Nat) (u : State) (d : Bytes),
    Serves 0x811 s ∧ t = takeMgmt 0x811 r s ∧ (r.func = 0x50 ∧ r.params.length = 4 ∧ funcDown s 0x50 = false
    ∧ objF t 0x50 0x800 31 31 ≠ 0) ∧ n = reqSlot r ∧ (keyLife t = true ∧ kekOk t t.fuse.kekGen = true
    ∧ kClass t n ≠ 4 ∧ kClass t n ≠ 0) ∧ u = resetUse n (setKFlag n 2 false t)
    ∧ d = slice (keySlot u n) 16 12 ++ slice (keySlot u n) 28 4 ++ keyCtr u n ++ List.replicate 6 0 ++ slice (keyBytes u n) 0 32 :=
  ⟨(rq 0x50 [0, 0, 0, 0]), (setF 0x50 0x800 31 31 1 (setKeySlot 0 (slotOf 2 0) withKek)), _, _, _, _,
    serves_of (by decide +kernel) (by decide +kernel), rfl, by decide +kernel, rfl, by decide +kernel, rfl, rfl⟩

theorem witness_ClocheRequests_8 :
  ∃ (r : Req) (s : State) (t : State) (g : Nat) (n : Nat) (u : Bytes × Bool) (d : Bytes) (c : Bytes × Bool),
    Serves 0x812 s ∧ t = takeMgmt 0x812 r s ∧ (r.func = 0x50 ∧ r.params.length = 80 ∧ funcDown s 0x50 = false
    ∧ objF t 0x50 0x800 31 31 ≠ 0) ∧ g = byteAt r.params 0 ∧ n = beAt r.params 2 2 % 4096 ∧ (keyLife t = true
    ∧ kekOk t g = true ∧ u = kwUnwrap (kekKey t g) (slice r.params 8 72) ∧ u.2 = true) ∧ d = u.1
    ∧ c = restoredCtr (byteAt d 8) (byteAt d 9) (slice d 16 10)
    ∧ keyFits t n (beAt d 0 8) (byteAt d 8) (byteAt d 9) (nbit (byteAt d 11) 4) = true :=
  ⟨(rq 0x50 ([1, 0, 0, 0, 0, 0, 0, 0] ++ wrapped64)), (setF 0x50 0x800 31 31 1 withKek), _, _, _,
    ((List.replicate 8 0 ++ [2, 1, 7, 0, 0, 0, 0, 0] ++ List.replicate 48 0, true)), _, _,
    serves_of (by decide +kernel) (by decide +kernel), rfl, by decide +kernel, rfl, rfl, by decide +kernel, rfl,
    rfl, by decide +kernel⟩

theorem witness_ClocheRequests_9 :
  ∃ (r : Req) (s : State) (t : State) (n : Nat) (u : State),
    Serves 0x813 s ∧ t = takeMgmt 0x813 r s ∧ (r.func = 0x50 ∧ r.params.length = 4 ∧ funcDown s 0x50 = false)
    ∧ n = reqSlot r ∧ keyLife t = true ∧ kClass t n ≠ 4 ∧ u = setKeyCtr n ctr0 (setKeySlot n slot0 t) :=
  ⟨(rq 0x50 [0xFF, 0xF0, 0, 0]), State.reset, _, _, _, serves_of (by decide +kernel) (by decide +kernel), rfl,
    by decide +kernel, rfl, by decide +kernel, by decide +kernel, rfl⟩

theorem witness_ClocheRequests_10 :
  ∃ (r : Req) (s : State) (t : State) (n : Nat),
    Serves 0x814 s ∧ t = takeMgmt 0x814 r s ∧ (r.func = 0x50 ∧ r.params.length = 4 ∧ funcDown s 0x50 = false)
    ∧ n = reqSlot r ∧ kClass t n ≠ 4 :=
  ⟨(rq 0x50 [0xFF, 0xF0, 0, 0]), State.reset, _, _, serves_of (by decide +kernel) (by decide +kernel), rfl,
    by decide +kernel, rfl, by decide +kernel⟩

theorem witness_ClocheRequests_11 :
  ∃ (r : Req) (s : State) (t : State) (e : Nat),
    Serves 0x820 s ∧ t = takeMgmt 0x820 r s ∧ (engFunc r = true ∧ r.params = []
    ∧ funcDown s r.func.toNat = false) ∧ e = r.func.toNat - 0x40 ∧ deferRule r t = none :=
  ⟨(rq 0x4F []), State.reset, _, _, serves_of (by decide +kernel) (by decide +kernel), rfl, by decide +kernel, rfl,
    by decide +kernel⟩

theorem witness_BackhaulRequests :
  (∃ (r : Req) (s : State) (t : State) (g : Nat) (l : Nat) (ts : Nat) (n : Nat) (ms : List BhMember) (top : Nat),
    Serves 0x901 s ∧ t = takeMgmt 0x901 r s ∧ (r.func = 0 ∧ r.params.length = 4 ∧ graftArgs r = (g, l, ts, n)
    ∧ graftRange r = true ∧ graftEn t g = true ∧ laneOn t l = true
    ∧ (t.bh.members.any (fun m => m.lane == l && decide (ts ≤ m.ts ∧ m.ts < ts + n)) = false)
    ∧ graftPending t g = false) ∧ ms = membersOf t g ∧ ms.length + n ≤ 48
    ∧ skewSum t g (maxSkew t g) (skewMembers t g + n) ≤ skewLimit t
    ∧ (top = ms.foldl (fun a m => if m.ann.1 = 1 ∨ isPay m.ann then max a (m.ann.2 + 1) else a) 0))
  ∧ (∃ (r : Req) (s : State) (t : State) (g : Nat) (l : Nat) (ts : Nat) (n : Nat),
    Serves 0x902 s ∧ t = takeMgmt 0x902 r s ∧ r.func = 0 ∧ r.params.length = 4 ∧ graftArgs r = (g, l, ts, n)
    ∧ graftRange r = true ∧ graftEn t g = true ∧ graftPending t g = false
    ∧ ((List.range n).all (fun i => t.bh.members.any (fun m => (m.gid == g && m.lane == l && decide (ts ≤ m.ts ∧ m.ts < ts + n))
        && m.ts == ts + i && m.ann.1 != 0)) = true))
  ∧ (∃ (r : Req) (s : State) (t : State) (ms : List BhMember),
    Serves 0x903 s ∧ t = takeMgmt 0x903 r s ∧ r.func = 0 ∧ r.params.length = 4
    ∧ ms = membersOf t (nfield (beAt r.params 0 4) 31 28))
  ∧ (∃ (r : Req) (s : State) (t : State),
    Serves 0x910 s ∧ t = takeMgmt 0x910 r s ∧ r.func = 0 ∧ r.params.length = 4 ∧ byteAt r.params 0 ≤ 23
    ∧ byteAt r.params 1 ≤ 1 ∧ (byteAt r.params 2 ≤ (if byteAt r.params 1 = 0 then 32 else 1)))
  ∧ (∃ (r : Req) (s : State) (t : State) (u : State),
    Serves 0x911 s ∧ t = takeMgmt 0x911 r s ∧ r.func = 0 ∧ r.params.length = 8
    ∧ u = setBh (fun b => { b with secs15 := 0, secs24 := 0, align := BitVec.ofNat 64 (beAt r.params 0 8) }) t)
  ∧ (∃ (r : Req) (s : State) (t : State) (l : Nat),
    Serves 0x920 s ∧ t = takeMgmt 0x920 r s ∧ (bhReq r = true ∧ r.params.length = 4 ∧ byteAt r.params 0 ≤ 3
    ∧ funcDown s r.func.toNat = false) ∧ l = reqLane r ∧ laneF t l 31 30 = 2)
  ∧ (∃ (r : Req) (s : State) (t : State) (l : Nat),
    Serves 0x921 s ∧ t = takeMgmt 0x921 r s ∧ (bhReq r = true ∧ r.params.length = 4 ∧ byteAt r.params 0 ≤ 3
    ∧ funcDown s r.func.toNat = false) ∧ l = reqLane r ∧ laneF t l 31 30 = 2 ∧ (laneRec t l).trace ≠ [])
  ∧ (∃ (r : Req) (s : State) (t : State) (l : Nat),
    Serves 0x930 s ∧ t = takeMgmt 0x930 r s ∧ (bhReq r = true ∧ r.params.length = 4 ∧ byteAt r.params 0 ≤ 3
    ∧ 1 ≤ byteAt r.params 1 ∧ byteAt r.params 1 ≤ 60 ∧ funcDown s r.func.toNat = false) ∧ l = reqLane r
    ∧ laneOn t l = true ∧ t.bh.members.any (fun m => m.lane == l) = false ∧ deferRule r t = none) :=
  ⟨⟨(rq 0 [0xFE, 0, 0x20, 0]), (setF 0 0xF00 31 27 4 (setF 0x59 0x900 31 31 1 (setF 0 0x91F 31 31 1 State.reset))), _,
    (15), (7), (0), (1), _, _, serves_of (by decide +kernel) (by decide +kernel), rfl, by decide +kernel, rfl,
    by decide +kernel, by decide +kernel, rfl⟩,
   ⟨(rq 0 [0xFE, 0, 0x20, 0]),
    (setBh (fun b => { b with members := [{ (default : BhMember) with gid := 15, lane := 7, ts := 0, ann := (2, 0), prev := (2, 0), eff := (2, 0) }] }) (setF 0 0x91F 31 31 1 State.reset)),
    _, (15), (7), (0), (1), serves_of (by decide +kernel) (by decide +kernel), rfl, by decide +kernel⟩,
   ⟨(rq 0 [0, 0, 0, 0]), State.reset, _, _, serves_of (by decide +kernel) (by decide +kernel), rfl, by decide +kernel,
    by decide +kernel, rfl⟩,
   ⟨(rq 0 [23, 1, 1, 0]), State.reset, _, serves_of (by decide +kernel) (by decide +kernel), rfl, by decide +kernel⟩,
   ⟨(rq 0 (List.replicate 8 0)), State.reset, _, _, serves_of (by decide +kernel) (by decide +kernel), rfl,
    by decide +kernel, by decide +kernel, rfl⟩,
   ⟨(rq 0x59 [3, 0, 0, 0]), (setLaneF 7 31 30 2 State.reset), _, _, serves_of (by decide +kernel) (by decide +kernel),
    rfl, by decide +kernel, rfl, by decide +kernel⟩,
   ⟨(rq 0x59 [3, 0, 0, 0]), (setLaneRec 7 (fun x => { x with trace := [0] }) (setLaneF 7 31 30 2 State.reset)), _, _,
    serves_of (by decide +kernel) (by decide +kernel), rfl, by decide +kernel, rfl, by decide +kernel⟩,
   ⟨(rq 0x59 [3, 60, 0, 0]), (setF 0x59 0x900 31 31 1 State.reset), _, _,
    serves_of (by decide +kernel) (by decide +kernel), rfl, by decide +kernel, rfl, by decide +kernel⟩⟩

theorem witness_MeasurementRequests :
  (∃ (r : Req) (s : State) (t : State) (n : Nat),
    Serves 0xA01 s ∧ t = takeMgmt 0xA01 r s ∧ r.func = 0x60 ∧ r.params.length = 4 ∧ n = byteAt r.params 0
    ∧ 1 ≤ n ∧ n ≤ 64 ∧ funcDown s 0x60 = false ∧ (measFwd t).isEmpty = true)
  ∧ (∃ (r : Req) (s : State) (t : State) (n : Nat),
    Serves 0xA01 s ∧ t = takeMgmt 0xA01 r s ∧ r.func = 0x60 ∧ r.params.length = 4 ∧ n = byteAt r.params 0
    ∧ 1 ≤ n ∧ n ≤ 64 ∧ funcDown s 0x60 = false ∧ (measFwd t).isEmpty = false)
  ∧ (∃ (r : Req) (s : State) (t : State),
    Serves 0xA02 s ∧ t = takeMgmt 0xA02 r s ∧ r.func = 0x60 ∧ r.params = [] ∧ funcDown s 0x60 = false
    ∧ trigEn t = true ∧ measRun t = true ∧ (trigger 0 t).2 = true)
  ∧ (∃ (r : Req) (s : State) (t : State),
    Serves 0xA03 s ∧ t = takeMgmt 0xA03 r s ∧ r.func = 0x60 ∧ r.params.length = 8 ∧ funcDown s 0x60 = false
    ∧ trigEn t = true ∧ measRun t = true ∧ now t < beAt r.params 0 8)
  ∧ (∃ (r : Req) (s : State) (t : State),
    Serves 0xA03 s ∧ t = takeMgmt 0xA03 r s ∧ r.func = 0x60 ∧ r.params.length = 8 ∧ funcDown s 0x60 = false
    ∧ trigEn t = true ∧ measRun t = true ∧ beAt r.params 0 8 ≤ now t)
  ∧ (∃ (r : Req) (s : State) (t : State) (p : Bytes),
    Serves 0xA04 s ∧ t = takeMgmt 0xA04 r s ∧ r.func = 0x60 ∧ p = r.params ∧ p.length = 8 ∧ byteAt p 0 ≤ 23
    ∧ byteAt p 1 ≤ 1 ∧ 1 ≤ byteAt p 2 ∧ funcDown s 0x60 = false ∧ objF t 0x60 0xA01 18 18 ≠ 1
    ∧ objF t 0x60 0xA01 9 9 ≠ 1 ∧ spareSlice t ≠ 15 ∧ deferRule r t = none)
  ∧ (∃ (r : Req) (s : State) (t : State) (b : List (BitVec 8)),
    Serves 0xA05 s ∧ t = takeMgmt 0xA05 r s ∧ r.func = 0x60 ∧ r.params.length = 4 ∧ byteAt r.params 0 ≤ 23
    ∧ funcDown s 0x60 = false ∧ b = smGet (fun _ => []) t.meas.last (byteAt r.params 0) ∧ b ≠ []) :=
  ⟨⟨(rq 0x60 [64, 0, 0, 0]), State.reset, _, _, serves_of (by decide +kernel) (by decide +kernel), rfl,
    by decide +kernel, by decide +kernel, rfl, by decide +kernel⟩,
   ⟨(rq 0x60 [64, 0, 0, 0]), (setF 0x73 0xC02 19 19 1 State.reset), _, _,
    serves_of (by decide +kernel) (by decide +kernel), rfl, by decide +kernel, by decide +kernel, rfl,
    by decide +kernel⟩,
   ⟨(rq 0x60 []), (setF 0x60 0xA00 23 23 1 (setF 0x60 0xA00 31 31 1 State.reset)), _,
    serves_of (by decide +kernel) (by decide +kernel), rfl, by decide +kernel⟩,
   ⟨(rq 0x60 (List.replicate 8 0xFF)), (setF 0x60 0xA00 23 23 1 (setF 0x60 0xA00 31 31 1 State.reset)), _,
    serves_of (by decide +kernel) (by decide +kernel), rfl, by decide +kernel⟩,
   ⟨(rq 0x60 (List.replicate 8 0)), (setF 0x60 0xA00 23 23 1 (setF 0x60 0xA00 31 31 1 State.reset)), _,
    serves_of (by decide +kernel) (by decide +kernel), rfl, by decide +kernel⟩,
   ⟨(rq 0x60 [23, 1, 1, 0, 0, 0, 0, 0]), (setF 0x60 0xA01 31 28 8 State.reset), _, _,
    serves_of (by decide +kernel) (by decide +kernel), rfl, by decide +kernel, rfl, by decide +kernel⟩,
   ⟨(rq 0x60 [23, 0, 0, 0]), (setMeas (fun m => { m with last := [(23, [0])] }) State.reset), _, ([0]),
    serves_of (by decide +kernel) (by decide +kernel), rfl, by decide +kernel⟩⟩

theorem witness_ChainAndCoreRequests :
  (∃ (r : Req) (s : State) (t : State),
    Serves 0xB01 s ∧ t = takeMgmt 0xB01 r s ∧ r.func = 0x69 ∧ r.params = [] ∧ funcDown s 0x69 = false
    ∧ chainStuckNow t = false ∧ objF t 0x69 0xB09 22 22 ≠ 1 ∧ t.chain.run = none ∧ deferRule r t = none)
  ∧ (∃ (r : Req) (s : State) (t : State) (a : Nat),
    Serves 0xB02 s ∧ t = takeMgmt 0xB02 r s ∧ r.func = 0x69 ∧ r.params.length = 4 ∧ a = byteAt r.params 0
    ∧ 1 ≤ a ∧ a ≤ 62 ∧ funcDown s 0x69 = false ∧ chainStuckNow t = false ∧ t.aon.addr ≠ 0 ∧ deferRule r t = none)
  ∧ (∃ (r : Req) (s : State) (t : State) (n : Nat) (o : Nat),
    Serves 0xC01 s ∧ t = takeMgmt 0xC01 r s ∧ (coreFunc r = true ∧ 8 ≤ r.params.length
    ∧ r.params.length - 4 ≤ 2044 ∧ (r.params.length - 4) % 4 = 0 ∧ funcDown s r.func.toNat = false)
    ∧ n = coreNo r ∧ o = beAt r.params 0 4 ∧ coreStopped t n = true
    ∧ inWindow t n (winBase t n + o) (r.params.length - 4) = true)
  ∧ (∃ (r : Req) (s : State) (t : State) (n : Nat) (f : Bool),
    Serves 0xC02 s ∧ t = takeMgmt 0xC02 r s ∧ (coreFunc r = true ∧ r.params.length = 4
    ∧ funcDown s r.func.toNat = false) ∧ n = coreNo r ∧ f = nbit (beAt r.params 0 4) 31 ∧ coreStopped t n = true
    ∧ windowOk t n = true ∧ mayStart t n = true ∧ deferRule r t = none)
  ∧ (∃ (r : Req) (s : State) (t : State),
    Serves 0xC03 s ∧ t = takeMgmt 0xC03 r s ∧ coreFunc r = true ∧ r.params.length = 4
    ∧ funcDown s r.func.toNat = false ∧ deferRule r t = none) :=
  ⟨⟨(rq 0x69 []), State.reset, _, serves_of (by decide +kernel) (by decide +kernel), rfl, by decide +kernel⟩,
   ⟨(rq 0x69 [62, 0, 0, 0]), ({ State.reset with aon := { State.reset.aon with addr := 1 } }), _, _,
    serves_of (by decide +kernel) (by decide +kernel), rfl, by decide +kernel, by decide +kernel, rfl,
    by decide +kernel⟩,
   ⟨(rq 0x73 (List.replicate 8 0)), State.reset, _, _, _, serves_of (by decide +kernel) (by decide +kernel), rfl,
    by decide +kernel, rfl, rfl, by decide +kernel⟩,
   ⟨(rq 0x73 [0x80, 0, 0, 0]), State.reset, _, _, _, serves_of (by decide +kernel) (by decide +kernel), rfl,
    by decide +kernel, rfl, rfl, by decide +kernel⟩,
   ⟨(rq 0x73 [0, 0, 0, 0]), State.reset, _, serves_of (by decide +kernel) (by decide +kernel), rfl, by decide +kernel⟩⟩

theorem witness_ServiceAndEventRequests :
  (∃ (r : Req) (s : State) (t : State),
    Serves 0xD01 s ∧ t = takeMgmt 0xD01 r s ∧ r.func = 0 ∧ r.params = [] ∧ deferRule r t = none)
  ∧ (∃ (r : Req) (s : State) (t : State) (n : Nat),
    Serves 0xD02 s ∧ t = takeMgmt 0xD02 r s ∧ r.func = 0 ∧ r.params.length = 4 ∧ n = byteAt r.params 0)
  ∧ (∃ (r : Req) (s : State) (t : State),
    Serves 0xD03 s ∧ t = takeMgmt 0xD03 r s ∧ r.func = 0 ∧ r.params = [])
  ∧ (∃ (r : Req) (s : State) (t : State),
    Serves 0xE01 s ∧ t = takeMgmt 0xE01 r s ∧ r.func = 0 ∧ r.params.length = 8 ∧ 1 ≤ beAt r.params 2 2
    ∧ beAt r.params 2 2 ≤ 63)
  ∧ (∃ (r : Req) (s : State) (t : State) (obj : Nat) (day : Nat) (n : Nat),
    Serves 0xE10 s ∧ t = takeMgmt 0xE10 r s ∧ r.func = 0 ∧ r.params.length = 4 ∧ obj = byteAt r.params 0
    ∧ obj ≤ 23 ∧ day = byteAt r.params 1 ∧ day ≤ 1 ∧ (n = (if day = 0 then 33 else 2))) :=
  ⟨⟨(rq 0 []), State.reset, _, serves_of (by decide +kernel) (by decide +kernel), rfl, by decide +kernel⟩,
   ⟨(rq 0 [255, 0, 0, 0]), State.reset, _, _, serves_of (by decide +kernel) (by decide +kernel), rfl,
    by decide +kernel, by decide +kernel, rfl⟩,
   ⟨(rq 0 []), State.reset, _, serves_of (by decide +kernel) (by decide +kernel), rfl, by decide +kernel⟩,
   ⟨(rq 0 [0, 0, 0, 63, 0, 0, 0, 0]), State.reset, _, serves_of (by decide +kernel) (by decide +kernel), rfl,
    by decide +kernel⟩,
   ⟨(rq 0 [23, 1, 0, 0]), State.reset, _, _, _, _, serves_of (by decide +kernel) (by decide +kernel), rfl,
    by decide +kernel, by decide +kernel, rfl, by decide +kernel, rfl, by decide +kernel, rfl⟩⟩

theorem witness_TrellisAndQueueRequests :
  (∃ (r : Req) (s : State) (t : State),
    Serves 0xF01 s ∧ t = takeMgmt 0xF01 r s ∧ r.func = 0 ∧ r.params.length = 4 ∧ byteAt r.params 0 = 6
    ∧ allDown t [0x58, 0x59] = true)
  ∧ (∃ (r : Req) (s : State) (t : State),
    Serves 0xF01 s ∧ t = takeMgmt 0xF01 r s ∧ r.func = 0 ∧ r.params.length = 4 ∧ byteAt r.params 0 = 7
    ∧ (List.range 4).all (fun n => coreStopped t n) = true)
  ∧ (∃ (r : Req) (s : State) (t : State) (v : Nat),
    Serves 0xF02 s ∧ t = takeMgmt 0xF02 r s ∧ r.func = 0 ∧ r.params.length = 4 ∧ v = byteAt r.params 0 ∧ 2 ≤ v
    ∧ v ≤ 8 ∧ allDown t [0x58, 0x59, 0x70, 0x71, 0x72, 0x73] = true)
  ∧ (∃ (r : Req) (s : State) (t : State) (b : Nat),
    Serves 0xF03 s ∧ t = takeMgmt 0xF03 r s ∧ (0x7C ≤ r.func.toNat ∧ r.func.toNat ≤ 0x7F ∧ r.params.length = 4)
    ∧ b = byteAt r.params 0 ∧ b ≤ 16 ∧ regionLost s (r.func.toNat - 0x7C) = false
    ∧ funcDown s r.func.toNat = false
    ∧ ((b = 16 ∧ spareFree t (r.func.toNat - 0x7C) = true) ∨ nbit (objF t r.func.toNat 0xF08 23 7) b = true)
    ∧ deferRule r t = none)
  ∧ (∃ (r : Req) (s : State) (t : State) (a : Nat) (n : Nat) (m : Nat × Bytes × State),
    Serves 0xF04 s ∧ t = takeMgmt 0xF04 r s ∧ r.func = 0 ∧ r.params.length = 8 ∧ a = beAt r.params 0 4
    ∧ n = beAt r.params 4 4 ∧ (a < trSize ∧ 1 ≤ n ∧ n ≤ 1024 ∧ a + n ≤ trSize
    ∧ (lifeCycle t = 0 ∨ lifeCycle t = 3) ∧ heldAt t a n = none) ∧ m = mcRead a n t)
  ∧ (∃ (r : Req) (s : State) (t : State) (a : Nat) (n : Nat) (l : Nat),
    Serves 0xF04 s ∧ t = takeMgmt 0xF04 r s ∧ r.func = 0 ∧ r.params.length = 8 ∧ a = beAt r.params 0 4
    ∧ n = beAt r.params 4 4 ∧ a < trSize ∧ 1 ≤ n ∧ n ≤ 1024 ∧ a + n ≤ trSize
    ∧ (lifeCycle t = 0 ∨ lifeCycle t = 3) ∧ heldAt t a n = some l)
  ∧ (∃ (r : Req) (s : State) (t : State) (q : Nat) (c : QCat),
    Serves 0xF10 s ∧ t = takeMgmt 0xF10 r s ∧ r.func = 0 ∧ r.params.length = 4 ∧ q = byteAt r.params 0
    ∧ qCat q = some c)
  ∧ (∃ (r : Req) (s : State) (t : State) (q : Nat) (c : QCat),
    Serves 0xF11 s ∧ t = takeMgmt 0xF11 r s ∧ r.func = 0 ∧ r.params.length = 4 ∧ q = byteAt r.params 0
    ∧ qCat q = some c) :=
  ⟨⟨(rq 0 [6, 0, 0, 0]), (setPw (fun p => { p with held := [0x58, 0x59] }) State.reset), _,
    serves_of (by decide +kernel) (by decide +kernel), rfl, by decide +kernel⟩,
   ⟨(rq 0 [7, 0, 0, 0]), State.reset, _, serves_of (by decide +kernel) (by decide +kernel), rfl, by decide +kernel⟩,
   ⟨(rq 0 [8, 0, 0, 0]), (setPw (fun p => { p with held := [0x58, 0x59, 0x70, 0x71, 0x72, 0x73] }) State.reset), _, _,
    serves_of (by decide +kernel) (by decide +kernel), rfl, by decide +kernel, by decide +kernel, rfl,
    by decide +kernel⟩,
   ⟨(rq 0x7F [16, 0, 0, 0]), State.reset, _, _, serves_of (by decide +kernel) (by decide +kernel), rfl,
    by decide +kernel, rfl, by decide +kernel⟩,
   ⟨(rq 0 [0, 0x7F, 0xFC, 0, 0, 0, 4, 0]), State.reset, _, _, _, _, serves_of (by decide +kernel) (by decide +kernel),
    rfl, by decide +kernel, by decide +kernel, rfl, rfl, by decide +kernel, rfl⟩,
   ⟨(rq 0 [0, 0x7F, 0xFC, 0, 0, 0, 4, 0]),
    ({ State.reset with tr := { State.reset.tr with wiping := [⟨0, trSize, true, none⟩] } }), _, _, _, (0x7FFC00),
    serves_of (by decide +kernel) (by decide +kernel), rfl, by decide +kernel, by decide +kernel, rfl, rfl,
    by decide +kernel⟩,
   ⟨(rq 0 [0x73, 1, 0, 0]), State.reset, _, _, (⟨512, 9, true, false, false⟩),
    serves_of (by decide +kernel) (by decide +kernel), rfl, by decide +kernel, by decide +kernel, rfl,
    by decide +kernel⟩,
   ⟨(rq 0 [0x73, 1, 0, 0]), State.reset, _, _, (⟨512, 9, true, false, false⟩),
    serves_of (by decide +kernel) (by decide +kernel), rfl, by decide +kernel, by decide +kernel, rfl,
    by decide +kernel⟩⟩

theorem witness_TestCompletions :
  (∃ (p : Fin 6) (m : SoundMeas) (s : State) (d : Deferred) (r : Nat × Bytes),
    findDeferred 0x401 (pf p.val) s = some d ∧ r = soundRecord s p.val m true (portOf s p.val).testAt)
  ∧ (∃ (p : Fin 6) (s : State) (d : Deferred),
    findDeferred 0x530 (pf p.val) s = some d)
  ∧ (∃ (p : Fin 6) (s : State) (d : Deferred),
    findDeferred 0x603 (pf p.val) s = some d)
  ∧ (∃ (c : Fin 20) (s : State) (d : Deferred),
    findDeferred 0x541 (cf c.val) s = some d)
  ∧ (∃ (e : Fin 16) (s : State) (d : Deferred) (t : State),
    (findDeferred 0x820 (0x40 + e.val) s = some d ∧ vAt s.clo.eng e.val = none ∧ d.aux.headD 1 ≠ 4
    ∧ engState s e.val ≠ 4) ∧ t = setF (0x40 + e.val) 0x808 31 28 1 s)
  ∧ (∃ (e : Fin 16) (s : State) (d : Deferred),
    findDeferred 0x820 (0x40 + e.val) s = some d ∧ vAt s.clo.eng e.val = none
    ∧ (d.aux.headD 1 = 4 ∨ engState s e.val = 4))
  ∧ (∃ (lane : Fin 8) (s : State) (d : Deferred),
    findDeferred 0x930 (bhFunc lane.val) s = some d ∧ d.aux.headD 8 = lane.val)
  ∧ (∃ (s : State) (d : Deferred),
    findDeferred 0xD01 0 s = some d)
  ∧ (∃ (r : Fin 4) (result : Fin 3) (line : W16) (bits : W16) (bad : List (Fin 2048 × Fin 8)) (s : State) (d : Deferred) (t : State),
    findDeferred 0xF03 (0x7C + r.val) s = some d ∧ wipeOn s r.val = false
    ∧ t = finish d stDone (beBytes 1 result.val ++ [0] ++ beBytes 2 line.toNat ++ beBytes 2 bits.toNat ++ [0, 0])
        (wordsLost r.val (d.aux.headD 0) bad s))
  ∧ (∃ (s : State) (t : State) (r : AssignRun) (d : Deferred),
    t = chainSettle s ∧ t.chain.run = some r ∧ r.ended = true
    ∧ findDeferred 0xB01 0x69 (setChain (fun c => { c with run := none }) t) = some d)
  ∧ (∃ (s : State) (t : State) (a : Nat) (u : State) (d : Deferred),
    t = chainSettle s ∧ t.chain.wake = some (a, true)
    ∧ u = emit (.wakeChars a) (setChain (fun c => { c with wake := none }) t)
    ∧ findDeferred 0xB02 0x69 u = some d)
  ∧ (∃ (s : State) (d : Deferred),
    findDeferred 0xA04 0x60 s = some d ∧ spareSlice s = 15)
  ∧ (∃ (rx : ModRx) (s : State) (d : Deferred) (p : Nat) (ch : Nat) (w : W32) (fine : List MeasOut) (r : Interval) (t : State × W16),
    findDeferred 0xA04 0x60 s = some d ∧ p = spareSlice s ∧ p ≠ 15 ∧ ch = d.aux.getD 0 0 ∧ w = sliceCfg s p
    ∧ fine = measFine s p w rx
    ∧ r = intervalOf (sliceOf s p).start (sliceOf s p).till (fineTicks w) fine (measCoarse s p w rx)
    ∧ t = syscalStore ch (d.aux.getD 1 0) (d.aux.getD 3 0) r s) :=
  ⟨⟨(5), meas0, (late 0x401 0x15 [] State.reset), (⟨0x401, rq 0x15 [], []⟩), _, by decide +kernel, rfl⟩,
   ⟨(5), (late 0x530 0x15 [] State.reset), (⟨0x530, rq 0x15 [], []⟩), by decide +kernel⟩,
   ⟨(5), (late 0x603 0x15 [] State.reset), (⟨0x603, rq 0x15 [], []⟩), by decide +kernel⟩,
   ⟨(19), (late 0x541 0x33 [] State.reset), (⟨0x541, rq 0x33 [], []⟩), by decide +kernel⟩,
   ⟨(15), (late 0x820 0x4F [1] State.reset), (⟨0x820, rq 0x4F [], [1]⟩), _, by decide +kernel, rfl⟩,
   ⟨(15), (late 0x820 0x4F [4] State.reset), (⟨0x820, rq 0x4F [], [4]⟩), by decide +kernel⟩,
   ⟨(7), (late 0x930 0x59 [7] State.reset), (⟨0x930, rq 0x59 [], [7]⟩), by decide +kernel⟩,
   ⟨(late 0xD01 0 [] State.reset), (⟨0xD01, rq 0 [], []⟩), by decide +kernel⟩,
   ⟨(3), 0, 0, 0, [], (late 0xF03 0x7F [16] State.reset), (⟨0xF03, rq 0x7F [], [16]⟩), _, by decide +kernel,
    by decide +kernel, rfl⟩,
   ⟨(late 0xB01 0x69 [] (setChain (fun c => { c with run := some ⟨1, 0, [], true⟩ }) State.reset)), _, (⟨1, 0, [],
    true⟩), (⟨0xB01, rq 0x69 [], []⟩), rfl, by decide +kernel⟩,
   ⟨(late 0xB02 0x69 [] (setChain (fun c => { c with wake := some (62, true) }) State.reset)), _, (62), _, (⟨0xB02,
    rq 0x69 [], []⟩), rfl, by decide +kernel, rfl, by decide +kernel⟩,
   ⟨(late 0xA04 0x60 [23, 0, 1, 0] (setF 0x60 0xA01 31 28 15 State.reset)), (⟨0xA04, rq 0x60 [], [23, 0, 1, 0]⟩),
    by decide +kernel⟩,
   ⟨default, (late 0xA04 0x60 [23, 0, 1, 0] State.reset), (⟨0xA04, rq 0x60 [], [23, 0, 1, 0]⟩), _, _, _, _, _, _,
    by decide +kernel, rfl, by decide +kernel, rfl, rfl, rfl, rfl, rfl⟩⟩

/-- A state that is about to run a command. -/
def poised (c : Instr) (s : State) : State := { s with pending := [c] }

theorem witness_FrontCommandIsExecuted :
    (∃ s c rest, (s : State).pending = (c : Instr) :: rest) ∧ ∃ s : State, s.pending = [] :=
  ⟨⟨poised .tapReset State.reset, _, _, rfl⟩, State.reset, rfl⟩

theorem witness_ResetHoldsTheStatedValues :
    ∃ func id, id < 65536 ∧ (func, id) ≠ (0, 0x200) ∧ (func, id) ≠ (0x78, 0xE09) := ⟨0, 65535, by decide, by decide, by decide⟩

theorem witness_LifeCycleStaysSound : ∃ s t, lifeSound s = true ∧ step s = .next t :=
  ⟨poised .tapReset (inLife [1, 2, 3]), _, by decide +kernel, rfl⟩

theorem witness_OnlyTheCommitBurnsARecord :
    (∃ c s t, exec c s = .next t ∧ ∀ f, c ≠ .lifeCycleCommit f) ∧ ∃ f s t, exec (.lifeCycleCommit f) s = .next t :=
  ⟨⟨.tapReset, State.reset, _, rfl, by intro f h; cases h⟩, noFinds, State.reset, _, rfl⟩

theorem witness_ContentsStayCanonical : ∃ s t, canonical s = true ∧ step s = .next t :=
  ⟨poised .tapReset (nSet 4094 8 2 0x4000 State.reset), _, by decide +kernel, rfl⟩

theorem witness_DeferredCommandsStayWithinLimits : ∃ s t, deferWithin s = true ∧ step s = .next t :=
  ⟨poised .tapReset (late 0xD01 0 [] State.reset), _, by decide +kernel, rfl⟩

theorem witness_RetiredRefusesRequests :
    (∃ r s op c, accepting s = true ∧ lifeCycle s = 4 ∧ RequestRow r op c ∧ op ∉ retiredOps)
    ∧ ∃ (r : Req) (low : Bool) (s u : State) (p : Nat × Instr),
      u = (if tapHold s then s else setPw (fun p => { p with svcLow := low }) s) ∧ accepting u = true ∧ lifeCycle u = 4
      ∧ p ∈ [(0x301, Instr.lcProvision r low), (0x302, .lcCommit r low), (0x303, .lcService r low),
        (0x304, .lcReturn r low), (0x305, .lcRetire r low)] :=
  ⟨⟨rq 0 [], inLife [4], 0x102, .paramWrite (rq 0 []), by decide +kernel, by decide +kernel, by simp [RequestRow],
      by decide⟩,
    rq 0 [], true, inLife [4], _, (0x301, .lcProvision (rq 0 []) true), rfl, by decide +kernel, by decide +kernel, by simp⟩

theorem witness_LifeCycleCommandsAreConfirmed :
    (∃ (r : Req) (low : Bool) (s u : State) (p : Nat × Instr),
      u = (if tapHold s then s else setPw (fun p => { p with svcLow := low }) s) ∧ accepting u = true ∧ r.func = 0
      ∧ r.params.length = 4 ∧ beAt r.params 0 4 ≠ Config.eui.toNat % 2 ^ 32
      ∧ p ∈ [(0x301, Instr.lcProvision r low), (0x302, .lcCommit r low), (0x303, .lcService r low),
        (0x304, .lcReturn r low), (0x305, .lcRetire r low)])
    ∧ ∃ (r : Req) (low : Bool) (s u : State) (p : Nat × Instr × Bool),
      u = (if tapHold s then s else setPw (fun p => { p with svcLow := low }) s) ∧ accepting u = true ∧ r.func = 0
      ∧ r.params.length = 4 ∧ beAt r.params 0 4 = Config.eui.toNat % 2 ^ 32
      ∧ p ∈ [(0x301, Instr.lcProvision r low, (viaHost r || viaConsole r) && lifeCycle u == 0 && kekOk u u.fuse.kekGen),
        (0x302, .lcCommit r low, viaHost r && lifeCycle u == 1 && (netSlot (takeMgmt 0x302 r u)).isSome),
        (0x303, .lcService r low, viaConsole r && (lifeCycle u == 1 || lifeCycle u == 2) && u.pw.svcLow),
        (0x304, .lcReturn r low, viaHost r && lifeCycle u == 3 && !u.pw.svcLow && !u.fuse.svcGens.isEmpty),
        (0x305, .lcRetire r low, lifeCycle u != 4 && (viaHost r || (viaConsole r && u.pw.svcLow)))] ∧ p.2.2 = false := by
  refine ⟨⟨rq 0 (beBytes 4 (Config.eui.toNat + 1)), true, inLife [], _,
    (0x301, .lcProvision (rq 0 (beBytes 4 (Config.eui.toNat + 1))) true), rfl, ?_, rfl, rfl, ?_, by simp⟩,
    lcReq (.chain 1), true, inLife [], _, (0x305, .lcRetire (lcReq (.chain 1)) true, false), rfl, ?_, rfl, rfl,
    lcReq_confirms _, ?_, rfl⟩
  · decide +kernel
  · show beAt (beBytes 4 _) 0 4 ≠ _; rw [beAt_beBytes4]; omega
  · decide +kernel
  · have h : (lifeCycle (inLife []) != 4 && (viaHost (lcReq (.chain 1)) || (viaConsole (lcReq (.chain 1)) &&
      (inLife []).pw.svcLow))) = false := by decide +kernel
    simp only [List.mem_cons, Prod.mk.injEq]
    refine .inr (.inr (.inr (.inr (.inl ⟨trivial, trivial, ?_⟩))))
    decide +kernel

theorem witness_EventSourcesHoldFourRecords :
    (∃ src s q, src < 108 ∧ q = vAt (s : State).ev.srcs src ∧ q.dropped = 0 ∧ q.q.length < 4)
    ∧ (∃ src s q, src < 108 ∧ q = vAt (s : State).ev.srcs src ∧ q.q.length = 4 ∧ smWf regD s.regs = true)
    ∧ ∃ src s q, src < 108 ∧ q = vAt (s : State).ev.srcs src ∧ q.dropped ≠ 0 ∧ q.q.length ≤ 2 :=
  ⟨⟨107, State.reset, _, by decide, rfl, by decide +kernel, by decide +kernel⟩,
   ⟨107, { State.reset with ev := { State.reset.ev with srcs := vSet State.reset.ev.srcs 107 ⟨List.replicate 4 default, 0, 0⟩ } },
     _, by decide, rfl, by decide +kernel, by decide +kernel⟩,
   ⟨107, { State.reset with ev := { State.reset.ev with srcs := vSet State.reset.ev.srcs 107 ⟨List.replicate 2 default, 65535, 0⟩ } },
     _, by decide, rfl, by decide +kernel, by decide +kernel⟩⟩

theorem witness_WatermarkEventNeedsUpClear :
    (∃ qid v lv, lv = qLevel (qSize qid) v ∧ v.above = false ∧ v.wm.toNat * qSize qid ≤ 256 * lv ∧ v.up = false)
    ∧ (∃ qid v lv, lv = qLevel (qSize qid) v ∧ v.above = false ∧ v.wm.toNat * qSize qid ≤ 256 * lv ∧ v.up = true)
    ∧ (∃ qid v lv, lv = qLevel (qSize qid) v ∧ v.above = true)
    ∧ ∃ qid v lv, lv = qLevel (qSize qid) v ∧ 256 * lv < v.wm.toNat * qSize qid :=
  ⟨⟨0x73, { que0 with wp := 384, pp := 384 }, _, rfl, by decide +kernel, by decide +kernel, by decide +kernel⟩,
   ⟨0x73, { que0 with wp := 384, pp := 384, up := true }, _, rfl, by decide +kernel, by decide +kernel, by decide +kernel⟩,
   ⟨0x73, { que0 with above := true }, _, rfl, by decide +kernel⟩, ⟨0x73, { que0 with wp := 383, pp := 383 }, _, rfl, by decide +kernel⟩⟩

theorem witness_ReadRequestsLeaveTheUnitsAlone :
    ∃ r s t c func id, ReadRow r c ∧ exec c s = .next t ∧ id < 65536 ∧ (func, id) ≠ (0x78, 0xE0A) ∧ (func, id) ≠ (0x68, 0xB00)
      ∧ (func, id) ≠ (0, 0xF20) :=
  ⟨rq 0 [1, 2], State.reset, _, .ping (rq 0 [1, 2]), 0x78, 65535, by simp [ReadRow], rfl, by decide, by decide, by decide,
    by decide⟩

/-- An access of the fabric that writes one line but its first byte. -/
def lineWrite : HeldAcc := ⟨0x21, 0x7FFFC0, true, none :: List.replicate 63 (some 1), [], 20, true, .fabric⟩

theorem witness_TrellisWriteStoresItsBytes :
    ∃ (client : BitVec 6) (addr : BitVec 23) (data : List (Option Byte)) (ecc : List (Fin 8 × EccResult)) (wait : Nat)
      (within : Bool) (s u t : State) (h : HeldAcc) (i a w : Nat) (b : Byte), data.length ≠ 0 ∧ addr.toNat % 64 + data.length ≤ 64
      ∧ accessHeld s addr.toNat = false ∧ h = (⟨client, addr, true, data, ecc, wait, within, .fabric⟩ : HeldAcc)
      ∧ mayAccess (chargeGrant h s) client.toNat addr.toNat true = true
      ∧ u = (eccFinds h).foldl (fun v e => eccReport h e v) (chargeGrant h s)
      ∧ regionLost u (place u addr.toNat).1 = false ∧ Memory.wf u = true
      ∧ exec (.trellisAccess client addr true data ecc wait within) s = .next t
      ∧ data[i]? = some (some b) ∧ a < trSize ∧ data[a - addr.toNat]? = some none ∧ w ∈ u.poison
      ∧ (partOf u addr.toNat ≠ 4) ∧ ∀ k, k < 8 → addr.toNat ≤ 8 * w + k ∧ ∃ b, data[8 * w + k - addr.toNat]? = some (some b) :=
  ⟨0x21, 0x7FFFC0, none :: List.replicate 63 (some 1), [], 20, true, { State.reset with poison := [0xFFFFF] }, _, _, lineWrite,
    63, 0x7FFFC0, 0xFFFFF, 1, by decide, by decide, by decide +kernel, rfl, by decide +kernel, rfl, by decide +kernel,
    by decide +kernel, rfl, rfl, by decide, rfl, by decide +kernel, by decide +kernel, by decide +kernel⟩

theorem witness_NoOtherResetReachesTheTestPort :
    (∃ s t, exec .tapReset s = .next t) ∧ (∃ s t, exec .powerOn s = .next t)
    ∧ ∃ s t c, exec c s = .next t ∧ ((∃ f, c = .wholeDeviceReset f) ∨ (∃ x, c = .brownout x) ∨ (∃ n, c = .resetNLow n)
      ∨ c = .thermalShutdown ∨ c = .thermalRecovery ∨ c = .mcLockstepMismatch ∨ (∃ f, c = .lifeCycleCommit f)
      ∨ (∃ a b, c = .wakeCharacters a b) ∨ c = .resetClocksReady) :=
  ⟨⟨State.reset, _, rfl⟩, ⟨State.reset, _, rfl⟩, State.reset, _, .wholeDeviceReset noFinds, rfl, .inl ⟨_, rfl⟩⟩

-- Ill-formed commands are refused by the check, one for each of its conditions.

theorem test_wf_refuses_tag_zero : (Instr.ping { rq 0 [] with tag := 0 }).wf = false := by decide
theorem test_wf_refuses_dest_bit_6 : (Instr.ping { rq 0 [] with tag := 1, dest := 0x40 }).wf = false := by decide
theorem test_wf_refuses_2049_parameters : (Instr.ping { rq 0 (List.replicate 2049 0) with tag := 1 }).wf = false := by
  decide +kernel
theorem test_wf_takes_a_request : (Instr.ping { rq 0 (List.replicate 2048 0) with tag := 0xFFFF }).wf = true := by
  decide +kernel
theorem test_wf_refuses_an_empty_access : (Instr.trellisAccess 0x21 0 true [] [] 0 false).wf = false := by decide
theorem test_wf_refuses_two_lines : (Instr.trellisAccess 0x21 0x3F true [some 0, none] [] 0 false).wf = false := by decide
theorem test_wf_refuses_a_start_up_test_without_its_samples : (Instr.wholeDeviceReset noFinds).wf = false := by
  decide +kernel
theorem test_wf_refuses_slots_out_of_order : (Instr.scheduleFix [⟨0, 0, 5, 4, 0, 1, 0, 0⟩] []).wf = false := by decide
theorem test_wf_refuses_an_empty_opening : (Instr.scheduleFix [] [⟨0, 0, 1, 0, 0, 0, 0, false, 1⟩]).wf = false := by decide
theorem test_wf_refuses_more_passed_than_tested : (Instr.svcSelftestDone [⟨0, 3, 4, []⟩]).wf = false := by decide
theorem test_wf_refuses_an_item_twice : (Instr.svcSelftestDone [⟨0, 3, 3, []⟩, ⟨0, 3, 3, []⟩]).wf = false := by decide
theorem test_wf_refuses_a_frame_no_longer_than_its_payload :
    (Instr.hostFrameReceive 0 ⟨1, true, 0, 0, none, 0x88B5, [0]⟩).wf = false := by decide
theorem test_wf_refuses_the_opcode_of_a_reply : (Instr.commandForward 0x8001 { rq 0 [] with tag := 1 }).wf = false := by decide
/-- The table gives its rows no bits. -/
theorem test_no_word_spells_a_command : decodeTableWord 32 0 = none := by decide

-- Worked examples of the manual, and vectors of the standards that it names.

/-- 00, reading a field. -/
theorem test_field_of_a_word : nfield 0x0000A5C3 11 4 = 92 := by decide
/-- 02, slot starts at 60 Hz: slots 0, 7, 8 and 15, and slot 0 of the next superframe. -/
theorem test_slot_starts_at_60_hz :
    let s := setF 0x78 0xE05 15 0 0x1000 (setClk (fun c => { c with
      tb := 1000000000, c := some 256000000000, p := 6666666 * 256 + 171, per := 6666666 * 256 + 171 }) State.reset)
    (sfOffset s, [0, 7, 8, 15, 16].map (slotStartTb s))
      = (0x1000, [1000416666, 1006250000, 1007083333, 1012916666, 1013750000]) := by decide +kernel
/-- 04, the two-slot grant: 185 symbols fit. -/
theorem test_symbols_of_the_two_slot_grant : symsFit 0 1002924666 0 1004575333 = 185 := by decide +kernel
/-- 06, a one-symbol downlink frame. -/
theorem test_fit_of_the_one_symbol_frame :
    let f := fitBb 2 12872 (fun x => 15510 * x)
    f = ⟨7, 568, 15560, 1, 50, 0⟩ ∧ (f.short 0, f.short 6, f.punct 0, f.punct 6) = (82, 81, 8, 7)
      ∧ (f.sent 96 0, f.sent 96 6, f.len) = (2214, 2216, 15510) := by decide +kernel
/-- 09, node 1200 in the node table: its line is in A_14, line 600, and its copy in B_16. -/
theorem test_place_of_a_node_entry : place State.reset 0x512C00 = (0, 14, 600) ∧ mirLoc State.reset 0 = 1 := by decide +kernel
/-- 09 R283: SKEW_BANKS 4 puts the application cores at 0x70_0000. -/
theorem test_base_after_repartitioning : partBase (setF 0 0xF00 25 22 4 State.reset) 7 = 0x700000 := by decide +kernel
/-- 10, a host receive queue crossed twice. -/
theorem test_queue_crossed_twice :
    let at_ := fun n s => putQ 0 { getQ s 0 with wp := n, pp := n } s
    let v := getQ (at_ 3700 (at_ 5750 (at_ 6150 (at_ 5500 (at_ 6250 (at_ 5000 State.reset)))))) 0
    (v.above, v.up, v.down, v.upCount, v.downCount, v.peak) = (false, true, true, 2, 2, 6250) := by decide +kernel
/-- 14, the boundary write: the second request's 24 bytes before its CRC. -/
theorem test_request_of_the_boundary_write :
    (cmdPacket 0x0102 0x002B 0x80 0 0 0 [0x04, 0x10, 0, 0, 0x50, 0x10, 0x14, 0]).take 24
      = [0x6B, 0x43, 0x01, 0x02, 0x00, 0x2B, 0x80, 0, 0, 8, 0, 0, 0, 0, 0, 0, 0x04, 0x10, 0, 0, 0x50, 0x10, 0x14, 0] := by
  decide +kernel
/-- 14, the boundary write: CAPACITY is read-only, so both entries are refused with the offset of the second. -/
theorem test_write_of_a_read_only_object :
    exec (.paramWrite (rq 0 [0x04, 0x10, 0, 0, 0x50, 0x10, 0x14, 0, 0, 0x20, 0, 0, 0, 0, 0, 0])) State.reset
      = .next (sendReply 0x102 (rq 0 [0x04, 0x10, 0, 0, 0x50, 0x10, 0x14, 0, 0, 0x20, 0, 0, 0, 0, 0, 0]) stNotWritable
          (beBytes 4 8) State.reset) := rfl
/-- 03, after an open fuse: CAPACITY with PORT_OK 0x2F; and with six ports in SERVICE at reset of the rest, no host link. -/
theorem test_capacity_without_port_4 :
    let s := [0, 1, 2, 3, 5].foldl (fun s p => setF (0x10 + p) 0x403 31 28 2 s)
      (setF 0x5C 0x30 31 31 1 (setF 0x5D 0x30 31 31 1 State.reset))
    capacityWord s = 0x84925FC0 := by decide +kernel
/-- FIPS 197, C.3. -/
theorem test_aes_256 : aesBlock ((List.range 32).map (BitVec.ofNat 8)) ((List.range 16).map (· * 17))
    = [0x8E, 0xA2, 0xB7, 0xCA, 0x51, 0x67, 0x45, 0xBF, 0xEA, 0xFC, 0x49, 0x90, 0x4B, 0x49, 0x60, 0x89] := by decide +kernel
/-- RFC 4493, example 1. -/
theorem test_cmac : cmac [0x2B, 0x7E, 0x15, 0x16, 0x28, 0xAE, 0xD2, 0xA6, 0xAB, 0xF7, 0x15, 0x88, 0x09, 0xCF, 0x4F, 0x3C] []
    = [0xBB, 0x1D, 0x69, 0x29, 0xE9, 0x59, 0x37, 0x28, 0x7F, 0xA3, 0x7D, 0x12, 0x9B, 0x75, 0x67, 0x46] := by decide +kernel

end
end

section
/-!
PROOF. What State.reset holds (00 R8, 17 R461): one lemma for each accessor of the state.
-/
namespace Sys2Proof.Machine

/-- The key of an object gives back its FUNC and its ID. -/
theorem okey_eq_okey_iff {func id f i : Nat} (hid : id < 65536) (hi : i < 65536) :
    okey func id = okey f i ↔ (func, id) = (f, i) := by
  simp only [okey, Prod.mk.injEq]
  omega

/-- An object with nothing listed for it reads its Reset column. -/
theorem regD_okey {func id : Nat} (hid : id < 65536) : regD (okey func id) = objReset func id := by
  have hf : okey func id / 65536 = func := by unfold okey; omega
  have hi : okey func id % 65536 = id := by unfold okey; omega
  rw [regD, hf, hi]

/-- The two objects of the register file at reset are RESET_INFO and CLK_STATUS. -/
theorem reset_regs : State.reset.regs = [(okey 0 0x200, 0x00100000), (okey 0x78 0xE09, clkLocked)] := rfl

/-- 00 R8, 17 R461: every other object is at its Reset column. -/
theorem getObj_reset {func id : Nat} (hid : id < 65536) (hinfo : (func, id) ≠ (0, 0x200))
    (hclk : (func, id) ≠ (0x78, 0xE09)) : getObj State.reset func id = objReset func id := by
  have h1 : okey 0 0x200 ≠ okey func id := fun h => hinfo ((okey_eq_okey_iff hid (by decide)).mp h.symm)
  have h2 : okey 0x78 0xE09 ≠ okey func id := fun h => hclk ((okey_eq_okey_iff hid (by decide)).mp h.symm)
  rw [getObj, reset_regs, smGet, if_neg h1, smGet, if_neg h2, smGet, regD_okey hid]

/-- 09 R284: the Trellis is wiped with zero. -/
theorem memByte_reset (a : Nat) : memByte State.reset a = 0 := rfl

/-- 10, queue status block: no queue is listed at reset, so each is as after its own reset. -/
theorem getQ_reset (q : Nat) : getQ State.reset q = que0 := rfl

/-- A vector of equal elements reads that element up to its end, the default past it. -/
theorem vAt_replicate {α : Type} [Inhabited α] (n i : Nat) (a : α) :
    vAt (Vector.replicate n a) i = if i < n then a else default := by
  rw [vAt, Vector.toList_replicate, List.getD_eq_getElem?_getD, List.getElem?_replicate]
  split_ifs <;> rfl

/-- 02 R59: no event source holds a record or has lost one. -/
theorem srcs_reset (k : Nat) : (vAt State.reset.ev.srcs k).q = [] ∧ (vAt State.reset.ev.srcs k).dropped = 0 := by
  have h : vAt State.reset.ev.srcs k = if k < 108 then ⟨[], 0, 0⟩ else default := vAt_replicate 108 k _
  rw [h]
  split
  · exact ⟨rfl, rfl⟩
  · exact ⟨rfl, rfl⟩

/-- 03: the Reset column of PORT_STATUS holds STATE OUT on each of the six line ports. -/
theorem portStatus_reset_state : ∀ p < 6, fget (objReset (pf p) 0x403) 31 28 = 0 := by decide

/-- Every line port is OUT. -/
theorem portState_reset {p : Nat} (hp : p < 6) : portState State.reset p = 0 := by
  rw [portState, objF, getObj_reset (by decide) (by simp [pf]) (by simp [pf])]
  exact portStatus_reset_state p hp

/-- A cluster at reset is the spare of its row of five when it is the fifth, else active. -/
theorem clOf_reset {c : Nat} (hc : c < 20) : clOf State.reset c = if c % 5 = 4 then .spare else .active := by
  simp [clOf, State.reset, List.getD_eq_getElem?_getD, hc]

/-- Settles O2, accessor by accessor. The empty command queue, the empty W1C store and the key store of a device as delivered
are the model's own choices (logs 2, 62 and 4); the other values are the manual's. -/
theorem resetHoldsTheStatedValues : Obligations.ResetHoldsTheStatedValues := by
  refine ⟨fun func id => getObj_reset, memByte_reset, fun q => ?queues, srcs_reset, rfl, rfl, rfl, rfl, rfl, rfl, rfl, rfl,
    fun p => portState_reset, fun r hr => ⟨?spare, fun i hi => ?active⟩⟩
  case queues => rw [getQ_reset]; exact ⟨rfl, rfl, rfl, rfl, rfl, rfl⟩
  case spare => rw [clOf_reset (by omega), if_pos (by omega)]
  case active => rw [clOf_reset (by omega), if_neg (by omega)]

end Sys2Proof.Machine
end

section
/-!
PROOF. A permitted write of the fabric (09 R269, R273, R278): which bytes the runs of a byte mask store, which words they cover
whole, and that the rest of the state stays.
-/
namespace Sys2Proof.Machine

-- The byte mask and its runs.

/-- The byte at x is under the mask d of a write at a (09 R269). -/
def underMask (a : Nat) (d : List (Option Byte)) (x : Nat) : Prop := a ≤ x ∧ ∃ b, d[x - a]? = some (some b)

theorem not_underMask_nil (a x : Nat) : ¬ underMask a [] x := by simp [underMask]

theorem underMask_none {a x : Nat} {t : List (Option Byte)} : underMask a (none :: t) x ↔ underMask (a + 1) t x := by
  rcases Nat.lt_trichotomy x a with h | rfl | h
  · simp only [underMask]; omega
  · simp [underMask]
  · have hx : x - a = x - (a + 1) + 1 := by omega
    simp [underMask, hx, Nat.le_of_lt h, Nat.succ_le_of_lt h]

theorem underMask_some {a x : Nat} {b : Byte} {t : List (Option Byte)} :
    underMask a (some b :: t) x ↔ x = a ∨ underMask (a + 1) t x := by
  rcases Nat.lt_trichotomy x a with h | rfl | h
  · simp only [underMask]; omega
  · simp [underMask]
  · have hx : x - a = x - (a + 1) + 1 := by omega
    simp [underMask, hx, Nat.le_of_lt h, Nat.succ_le_of_lt h, Nat.ne_of_gt h]

/-- A byte joins the run that begins right behind it. -/
theorem maskRuns_joins {a : Nat} {b : Byte} {t : List (Option Byte)} {l : Bytes} {r : List (Nat × Bytes)}
    (h : maskRuns (a + 1) t = (a + 1, l) :: r) : maskRuns a (some b :: t) = (a, b :: l) :: r := by
  simp [maskRuns, h]

/-- A byte joins the run right behind it, or is a run of its own. -/
theorem maskRuns_some (a : Nat) (b : Byte) (t : List (Option Byte)) :
    (∃ l r, maskRuns (a + 1) t = (a + 1, l) :: r ∧ maskRuns a (some b :: t) = (a, b :: l) :: r)
    ∨ maskRuns a (some b :: t) = (a, [b]) :: maskRuns (a + 1) t := by
  cases h : maskRuns (a + 1) t with
  | nil => exact .inr (by simp [maskRuns, h])
  | cons e r =>
    obtain ⟨x, l⟩ := e
    by_cases hx : x = a + 1
    · subst hx; exact .inl ⟨l, r, rfl, maskRuns_joins h⟩
    · exact .inr (by simp [maskRuns, h, hx])

/-- A run begins within the data. -/
theorem maskRuns_start {d : List (Option Byte)} : ∀ {a : Nat} {e : Nat × Bytes}, e ∈ maskRuns a d →
    a ≤ e.1 ∧ e.1 < a + d.length := by
  induction d with
  | nil => intro a e h; simp [maskRuns] at h
  | cons o t ih =>
    intro a e h
    have later : e ∈ maskRuns (a + 1) t → a ≤ e.1 ∧ e.1 < a + (o :: t).length := fun h => by
      have := ih h; simp only [List.length_cons]; omega
    cases o with
    | none => exact later h
    | some b =>
      rcases maskRuns_some a b t with ⟨l, r, ht, hc⟩ | hc <;> rw [hc, List.mem_cons] at h
      · rcases h with rfl | h
        · simp
        · exact later (by simp [ht, h])
      · rcases h with rfl | h
        · simp
        · exact later h

/-- Every byte of a run is under the mask. -/
theorem underMask_of_mem_maskRuns {d : List (Option Byte)} : ∀ {a x : Nat} {e : Nat × Bytes}, e ∈ maskRuns a d →
    e.1 ≤ x → x < e.1 + e.2.length → underMask a d x := by
  induction d with
  | nil => intro a x e h; simp [maskRuns] at h
  | cons o t ih =>
    intro a x e h hl hr
    cases o with
    | none => exact underMask_none.mpr (ih h hl hr)
    | some b =>
      rw [underMask_some]
      rcases maskRuns_some a b t with ⟨l, r, ht, hc⟩ | hc <;> rw [hc, List.mem_cons] at h
      · rcases h with rfl | h
        · simp only [List.length_cons] at hl hr
          refine (Nat.eq_or_lt_of_le hl).imp Eq.symm fun hx => ?_
          exact ih (e := (a + 1, l)) (by simp [ht]) hx (by dsimp only; omega)
        · exact .inr (ih (by simp [ht, h]) hl hr)
      · rcases h with rfl | h
        · simp only [List.length_singleton] at hl hr
          exact .inl (by omega)
        · exact .inr (ih h hl hr)

/-- Where the mask begins with n bytes, its first run holds them. -/
theorem maskRuns_head {d : List (Option Byte)} : ∀ {a n : Nat}, (∀ x, a ≤ x → x ≤ a + n → underMask a d x) →
    ∃ l r, maskRuns a d = (a, l) :: r ∧ n < l.length := by
  induction d with
  | nil => intro a n h; exact absurd (h a (by omega) (by omega)) (not_underMask_nil a a)
  | cons o t ih =>
    intro a n h
    cases o with
    | none =>
      have := (underMask_none.mp (h a (by omega) (by omega))).1
      omega
    | some b =>
      cases n with
      | zero =>
        rcases maskRuns_some a b t with ⟨l, r, -, hc⟩ | hc
        · exact ⟨_, _, hc, by simp⟩
        · exact ⟨_, _, hc, by simp⟩
      | succ n =>
        obtain ⟨l, r, ht, hl⟩ := ih (a := a + 1) (n := n) fun x hx hx' =>
          (underMask_some.mp (h x (by omega) (by omega))).resolve_left (by omega)
        exact ⟨_, _, maskRuns_joins ht, by simpa using hl⟩

/-- The runs are maximal: bytes in a row that are all under the mask lie in one run. -/
theorem exists_run_of_underMask {d : List (Option Byte)} : ∀ {a y n : Nat},
    (∀ x, y ≤ x → x ≤ y + n → underMask a d x) → ∃ e ∈ maskRuns a d, e.1 ≤ y ∧ y + n < e.1 + e.2.length := by
  induction d with
  | nil => intro a y n h; exact absurd (h y (by omega) (by omega)) (not_underMask_nil a y)
  | cons o t ih =>
    intro a y n h
    have hy : a ≤ y := (h y (by omega) (by omega)).1
    cases o with
    | none => exact ih fun x hx hx' => underMask_none.mp (h x hx hx')
    | some b =>
      rcases Nat.eq_or_lt_of_le hy with rfl | hy
      · obtain ⟨l, r, hm, hl⟩ := maskRuns_head h
        exact ⟨(a, l), by simp [hm], Nat.le_refl a, by simp; omega⟩
      · obtain ⟨e, he, h1, h2⟩ := ih (a := a + 1) (y := y) (n := n) fun x hx hx' =>
          (underMask_some.mp (h x hx hx')).resolve_left (by omega)
        rcases maskRuns_some a b t with ⟨l, r, ht, hc⟩ | hc
        · rw [ht, List.mem_cons] at he
          rw [hc]
          rcases he with rfl | he
          · exact ⟨(a, b :: l), by simp, by simp; omega, by simp at h2 ⊢; omega⟩
          · exact ⟨e, by simp [he], h1, h2⟩
        · exact ⟨e, by simp [hc, he], h1, h2⟩

/-- 09 R278: a run covers a word whole exactly when all its bytes are under the mask. -/
theorem wholeWords_maskRuns {a w : Nat} {d : List (Option Byte)} :
    (maskRuns a d).any (fun e => wholeWords e.1 e.2.length w) = true ↔ ∀ k, k < 8 → underMask a d (8 * w + k) := by
  simp only [List.any_eq_true, wholeWords, Bool.and_eq_true, decide_eq_true_eq]
  constructor
  · rintro ⟨e, he, hl, hr⟩ k hk
    exact underMask_of_mem_maskRuns he (by omega) (by omega)
  · intro h
    obtain ⟨e, he, hl, hr⟩ := exists_run_of_underMask (y := 8 * w) (n := 7) fun x hx hx' => by
      have := h (x - 8 * w) (by omega)
      rwa [show 8 * w + (x - 8 * w) = x by omega] at this
    exact ⟨e, he, hl, by omega⟩

-- The bytes that the runs store.

/-- The Trellis contents with the bytes of d under its mask stored from address a on. -/
def maskPut : Nat → List (Option Byte) → List Host.Cell → List Host.Cell
  | _, [], m => m
  | a, none :: t, m => maskPut (a + 1) t m
  | a, some b :: t, m => maskPut (a + 1) t (memPut a b m)

/-- Storing run after run stores the bytes under the mask. -/
theorem foldl_memPutL_maskRuns {d : List (Option Byte)} : ∀ {a : Nat} {m : List Host.Cell},
    (maskRuns a d).foldl (fun m e => memPutL e.1 e.2 m) m = maskPut a d m := by
  induction d with
  | nil => intro a m; rfl
  | cons o t ih =>
    intro a m
    cases o with
    | none => exact ih
    | some b =>
      rw [maskPut, ← ih]
      rcases maskRuns_some a b t with ⟨l, r, ht, hc⟩ | hc
      · rw [hc, ht]; rfl
      · rw [hc]; rfl

/-- A byte that no byte under the mask is stored at reads as before. -/
theorem smGet_maskPut_other {d : List (Option Byte)} : ∀ {a x : Nat} {m : List Host.Cell},
    (∀ i b, d[i]? = some (some b) → x ≠ (a + i) % trSize) → smGet memD (maskPut a d m) x = smGet memD m x := by
  induction d with
  | nil => intro a x m _; rfl
  | cons o t ih =>
    intro a x m h
    have ht : ∀ i b, t[i]? = some (some b) → x ≠ (a + 1 + i) % trSize := fun i b hi => by
      have := h (i + 1) b hi
      rwa [show a + (i + 1) = a + 1 + i by omega] at this
    cases o with
    | none => exact ih ht
    | some b => exact (ih ht).trans (smGet_smPut_other (h 0 b rfl))

/-- A byte under the mask reads back. -/
theorem smGet_maskPut_same {d : List (Option Byte)} : ∀ {a i : Nat} {b : Byte} {m : List Host.Cell},
    smWf memD m = true → d.length ≤ trSize → d[i]? = some (some b) →
    smGet memD (maskPut a d m) ((a + i) % trSize) = b := by
  induction d with
  | nil => intro a i b m _ _ h; simp at h
  | cons o t ih =>
    intro a i b m hm hd h
    simp only [List.length_cons] at hd
    cases i with
    | zero =>
      obtain rfl : o = some b := by simpa using h
      rw [maskPut, smGet_maskPut_other fun i c hi => ?_]
      · exact smGet_smPut_same hm
      · have := (List.getElem?_eq_some_iff.mp hi).1
        unfold trSize at *
        omega
    | succ i =>
      rw [show a + (i + 1) = a + 1 + i by omega]
      cases o with
      | none => exact ih hm (by omega) h
      | some c => exact ih (smWf_smPut hm) (by omega) h

-- What one run does: the same in the packet rings as beside them.

/-- No word is covered whole by one byte. -/
theorem wholeWords_one (a w : Nat) : wholeWords a 1 w = false := by
  simp only [wholeWords, Bool.and_eq_false_iff, decide_eq_false_iff_not]
  omega

/-- A byte written to partition 4 is stored at its address, in a ring too. -/
theorem packetPut_stores (a : Nat) (b : Byte) (s : State) :
    ∃ queues, packetPut a b s = { s with mem := memPut a b s.mem, queues := queues } := by
  have one : ∀ x, memWrite x [b] s = { s with mem := memPut x b s.mem } := fun x => by
    simp [memWrite, memPutL, wholeWords_one]
  unfold packetPut
  split
  · rename_i q hq
    have hle : 0x540000 + Config.ringBase q ≤ a := by
      have := List.find?_some hq
      simp only [Bool.and_eq_true, decide_eq_true_eq] at this
      exact this.1
    have ha : 0x540000 + Config.ringBase q + ringOff q a = a := by unfold ringOff; omega
    dsimp only [ringPut]
    rw [ha, one]
    exact ⟨_, rfl⟩
  · exact ⟨s.queues, one a⟩

theorem foldl_packetPut_stores (a : Nat) (l : Bytes) : ∀ (n : Nat) (s : State),
    ∃ queues, (l.zipIdx n).foldl (fun s e => packetPut (a + e.2) e.1 s) s
      = { s with mem := memPutL (a + n) l s.mem, queues := queues } := by
  induction l with
  | nil => intro n s; exact ⟨s.queues, rfl⟩
  | cons b t ih =>
    intro n s
    obtain ⟨_, h⟩ := packetPut_stores (a + n) b s
    obtain ⟨queues, ht⟩ := ih (n + 1) (packetPut (a + n) b s)
    rw [List.zipIdx_cons, List.foldl_cons, ht, h]
    exact ⟨queues, rfl⟩

/-- 09 R270, R278: a permitted write in a region that works stores its bytes and unpoisons the words that it covers whole; only in
partition 4 does it change the packets of a ring. -/
theorem trWrite_stores {a : Nat} {b : Bytes} {s : State} (h : regionLost s (place s a).1 = false) :
    ∃ queues, trWrite a b s = { s with
      mem := memPutL a b s.mem, poison := s.poison.filter (fun w => !wholeWords a b.length w), queues := queues }
      ∧ (partOf s a ≠ 4 → queues = s.queues) := by
  unfold trWrite
  rw [h]
  by_cases h4 : partOf s a = 4
  · obtain ⟨queues, hf⟩ := foldl_packetPut_stores a b 0 s
    exact ⟨queues, by rw [if_neg (by simp), if_pos h4, hf]; rfl, fun h => absurd h4 h⟩
  · exact ⟨s.queues, by rw [if_neg (by simp), if_neg h4]; rfl, fun _ => rfl⟩

/-- The runs of one access in turn. -/
theorem foldl_trWrite_stores (l : List (Nat × Bytes)) : ∀ (s : State),
    (∀ e ∈ l, regionLost s (place s e.1).1 = false) → ∃ queues, l.foldl (fun s e => trWrite e.1 e.2 s) s = { s with
      mem := l.foldl (fun m e => memPutL e.1 e.2 m) s.mem
      poison := s.poison.filter (fun w => !l.any (fun e => wholeWords e.1 e.2.length w))
      queues := queues }
      ∧ ((∀ e ∈ l, partOf s e.1 ≠ 4) → queues = s.queues) := by
  induction l with
  | nil => intro s _; exact ⟨s.queues, by simp, fun _ => rfl⟩
  | cons e l ih =>
    intro s h
    obtain ⟨_, h1, hq1⟩ := trWrite_stores (b := e.2) (h e (by simp))
    have ht := ih (trWrite e.1 e.2 s)
    rw [h1] at ht
    -- place, partOf and regionLost read the object file alone, which the first run leaves
    obtain ⟨queues, h2, hq2⟩ := ht fun x hx => h x (by simp [hx])
    refine ⟨queues, ?_, fun h4 => (hq2 fun x hx => h4 x (by simp [hx])).trans (hq1 (h4 e (by simp)))⟩
    rw [List.foldl_cons, h1, h2]
    simp [List.filter_filter, Bool.and_comm]

-- An access lies in one line, and a line in one partition and one bank (09 R270, R271).

theorem partOf_line {s : State} {a x : Nat} (h : x / 64 = a / 64) : partOf s x = partOf s a := by
  unfold partOf
  split_ifs <;> omega

/-- Every partition begins at a line. -/
theorem partBase_line (s : State) (p : Nat) : 64 ∣ partBase s p := by
  unfold partBase
  split_ifs <;> omega

theorem place_line {s : State} {a x : Nat} (h : x / 64 = a / 64) : place s x = place s a := by
  obtain ⟨k, hk⟩ := partBase_line s (partOf s a)
  have hl : (x - partBase s (partOf s a)) / 64 = (a - partBase s (partOf s a)) / 64 := by omega
  simp only [place, partOf_line h, hl]

/-- The address of an access is in the Trellis, with all the bytes of its line. -/
theorem line_lt_trSize {addr : BitVec 23} {n : Nat} (h : addr.toNat % 64 + n ≤ 64) : addr.toNat + n ≤ trSize := by
  have := addr.isLt
  unfold trSize
  omega

-- The access.

/-- 01 R17, R285: an access that is not held is served. -/
theorem exec_trellisAccess_served {client : BitVec 6} {addr : BitVec 23} {write : Bool} {data : List (Option Byte)}
    {ecc : List (Fin 8 × EccResult)} {wait : Nat} {within : Bool} {s : State} (h0 : data.length ≠ 0)
    (h64 : addr.toNat % 64 + data.length ≤ 64) (hh : accessHeld s addr.toNat = false) :
    exec (.trellisAccess client addr write data ecc wait within) s
      = .next (fabricAccess ⟨client, addr, write, data, ecc, wait, within, .fabric⟩ s) := by
  change execTrellisAccess .. = _
  rw [execTrellisAccess, if_neg (by omega)]
  simp [hh]

/-- 01 R18, 09 R286: a write of a client that may write there, or in a lost region, is one of its runs. -/
theorem fabricAccess_writes {h : HeldAcc} {s t : State} (ht : t = chargeGrant h s)
    (hok : regionLost t (place t h.addr.toNat).1 = true ∨ mayAccess t h.client.toNat h.addr.toNat h.write = true)
    (hw : h.write = true) :
    fabricAccess h s = emit (.writeAck h.client h.addr) ((maskRuns h.addr.toNat h.data).foldl (fun u e => trWrite e.1 e.2 u)
      ((eccFinds h).foldl (fun u e => eccReport h e u) t)) := by
  subst ht
  dsimp only [fabricAccess]
  rw [if_neg (by rcases hok with hok | hok <;> simp [hok]), if_pos hw]
  rfl

/-- 09 R269, R270, R278: what a write in a region that works stores, by its byte mask. -/
theorem maskedWrite_stores {a : Nat} {d : List (Option Byte)} {s : State} (h64 : a % 64 + d.length ≤ 64)
    (h : regionLost s (place s a).1 = false) :
    ∃ queues, (maskRuns a d).foldl (fun s e => trWrite e.1 e.2 s) s = { s with
      mem := maskPut a d s.mem
      poison := s.poison.filter (fun w => !(maskRuns a d).any (fun e => wholeWords e.1 e.2.length w))
      queues := queues }
      ∧ (partOf s a ≠ 4 → queues = s.queues) := by
  have line : ∀ e ∈ maskRuns a d, e.1 / 64 = a / 64 := fun e he => by
    have := maskRuns_start he
    omega
  obtain ⟨queues, h1, hq⟩ := foldl_trWrite_stores (maskRuns a d) s fun e he => by rwa [place_line (line e he)]
  rw [foldl_memPutL_maskRuns] at h1
  exact ⟨queues, h1, fun h4 => hq fun e he => by rwa [partOf_line (line e he)]⟩

/-- Settles O13: the access is one of its runs (`fabricAccess_writes`), which store the bytes under the mask
(`maskedWrite_stores`). -/
theorem trellisWriteStoresItsBytes : Obligations.TrellisWriteStoresItsBytes := by
  unfold Obligations.TrellisWriteStoresItsBytes
  intro client addr data ecc wait within s h u t h0 h64 hheld hh hmay hu hlost hwf hexec
  obtain ⟨queues, hruns, hq⟩ := maskedWrite_stores h64 hlost
  obtain rfl : t = emit (.writeAck client addr) { u with
      mem := maskPut addr.toNat data u.mem
      poison := u.poison.filter (fun w => !(maskRuns addr.toNat data).any (fun e => wholeWords e.1 e.2.length w))
      queues := queues } := by
    rw [exec_trellisAccess_served h0 h64 hheld, ← hh, Host.Outcome.next.injEq,
      fabricAccess_writes rfl (.inr (by subst hh; exact hmay)) (by rw [hh]), ← hu] at hexec
    rw [← hexec, ← hruns, hh]
  have hsize := line_lt_trSize h64
  refine ⟨fun i b hi => ?stored, fun a ha hout => ?kept, fun w => ?poison, rfl, hq, rfl⟩
  case stored => exact smGet_maskPut_same hwf (by omega) hi
  case kept =>
    refine smGet_maskPut_other fun i b hi => ?_
    have hlen := (List.getElem?_eq_some_iff.mp hi).1
    rw [Nat.mod_eq_of_lt ha, Nat.mod_eq_of_lt (by omega)]
    rintro rfl
    rcases hout with hout | hout | hout
    · omega
    · omega
    · simp [hi] at hout
  case poison =>
    rw [emit_poison, List.mem_filter, Bool.not_eq_true', ← Bool.not_eq_true, wholeWords_maskRuns]
    rfl

end Sys2Proof.Machine
end

section
/-!
PROOF. Accesses, scrubbing, bank switches, the mirror, rebuilds and wipes of the Trellis (01 R18, R26; 09 R279, R281, R282, R284,
R285): one lemma for each case of a command.
-/
namespace Sys2Proof.Machine

section access

variable {client : BitVec 6} {addr : BitVec 23} {write : Bool} {data : List (Option Byte)} {ecc : List (Fin 8 × EccResult)}
  {wait : Nat} {within : Bool} {s : State}

/-- 01 R17, 09 R285: behind a restart or a wipe an access waits at its region controller. -/
theorem exec_trellisAccess_held (h0 : data.length ≠ 0) (h64 : addr.toNat % 64 + data.length ≤ 64)
    (hh : accessHeld s addr.toNat = true) : exec (.trellisAccess client addr write data ecc wait within) s
      = .next (holdAccess ⟨client, addr, write, data, ecc, wait, within, .fabric⟩ addr.toNat s) := by
  change execTrellisAccess .. = _
  rw [execTrellisAccess, if_neg (by omega)]
  simp [hh]

/-- Operands that name no line are ill-formed. -/
theorem exec_trellisAccess_illFormed (h : data.length = 0 ∨ 64 < addr.toNat % 64 + data.length) :
    exec (.trellisAccess client addr write data ecc wait within) s = .fault .illFormed :=
  if_pos h

end access

/-- 01 R18: outside the client's partitions a write is dropped and a read answered with zero. -/
theorem fabricAccess_outside {h : HeldAcc} {s t : State} (ht : t = chargeGrant h s)
    (hl : regionLost t (place t h.addr.toNat).1 = false) (hm : mayAccess t h.client.toNat h.addr.toNat h.write = false) :
    fabricAccess h s = emit (if h.write then .writeAck h.client h.addr
        else .readData h.client h.addr (List.replicate h.data.length 0) false)
      (windowFault h.client.toNat h.addr.toNat h.write t) := by
  subst ht
  dsimp only [fabricAccess]
  rw [if_pos (by simp [hl, hm])]
  split <;> rfl

/-- 09 R279: a scrub read of a region that is enabled, running and under no wipe. -/
theorem exec_scrubRead {r : Fin 4} {s : State} (finds : List ScrubFind) (port : Option (Fin 17 × Bool))
    (hen : objF s 0 0xF01 31 31 ≠ 0) (hrun : objF s (0x7C + r.val) 0xF08 31 30 = 0) (hw : wipeOn s r.val = false)
    {t u : State} (ht : t = finds.foldl (fun t x => scrubFind r.val (regOf s r.val).scrubLine x t) s)
    (hu : u = port.elim t (fun b => bankFailing r.val b.1.val b.2 t)) :
    exec (.scrubRead r finds port) s = .next (if (regOf s r.val).scrubLine = 2047 then
        bumpF (0x7C + r.val) 0xF09 11 0 1 (setReg r.val (fun g => { g with scrubLine := 0, ceWords := [] }) u)
      else setReg r.val (fun g => { g with scrubLine := (regOf s r.val).scrubLine + 1 }) u) := by
  subst hu
  change execScrubRead .. = _
  dsimp only [execScrubRead]
  rw [if_neg (by simp [hen, hrun, hw]), ← ht]
  cases port <;> rfl

/-- 09 R281 step 3, 01 R26: the switch away from a bank that does not answer; its contents are rebuilt. -/
theorem bankSwitch_dead {r : Nat} (bad : List (Fin 2048 × Fin 8)) {s : State} {u : Subst} (hu : (regOf s r).sub = some u)
    (hw : wipeOn s r = false) (ha : u.answers = false) :
    bankSwitch r bad s = wipesBegin (raise (71 + r) (0x7C + r) .faultBank
      (beBytes 1 (bankCode r u.idx.val) ++ beBytes 1 (bankCode r 16) ++ beBytes 1 1)
      (setReg r (fun g => { g with
          sub := none, fenced := g.fenced ||| BitVec.ofNat 17 (2 ^ u.idx.val), rebuild := some (u.idx, u.mirror) })
        (setF (0x7C + r) 0xF08 29 28 2 (setF (0x7C + r) 0xF08 27 24 u.idx.val
          (setF (0x7C + r) 0xF08 23 7 (objF s (0x7C + r) 0xF08 23 7 ||| 2 ^ u.idx.val) s))))) := by
  simp [bankSwitch, hu, hw, ha]

/-- 09 R282: the copy of a mirror half ends, with no wipe in its region. -/
theorem exec_mirrorCopyDone {half : Fin 2} {s : State} (hc : vAt s.tr.mirCopy half.val = true)
    (hw : wipeOn s (mirLoc s half.val) = false) :
    exec (.mirrorCopyDone half) s = .next (raise (71 + mirLoc s half.val) (0x7C + mirLoc s half.val) .ntMirrorRestored
      (beBytes 1 half.val ++ beBytes 1 (bankCode (mirLoc s half.val) 16))
      (setF (0x7C + mirLoc s half.val) 0xF08 6 6 0 { s with tr := { s.tr with
        mirCur := vSet s.tr.mirCur half.val true, mirCopy := vSet s.tr.mirCopy half.val false } })) := by
  change execMirrorCopyDone .. = _
  rw [execMirrorCopyDone, if_pos (by simp [hc, hw])]

/-- 01 R26: the rebuild of a bank ends, with no wipe in its region. -/
theorem exec_bankRebuildDone {r : Fin 4} {s : State} {i : Fin 17 × Bool} (hi : (regOf s r.val).rebuild = some i)
    (hw : wipeOn s r.val = false) :
    exec (.bankRebuildDone r) s = .next (rebuildBank r.val i.1.val i.2
      (setF (0x7C + r.val) 0xF08 6 6 0 (setReg r.val (fun g => { g with rebuild := none }) s))) := by
  change execBankRebuildDone .. = _
  simp [execBankRebuildDone, hi, hw]

/-- 09 R284, R285: the oldest wipe that runs ends. -/
theorem exec_trellisWipeComplete {s : State} {w : WipeRun} (hw : s.tr.wiping.find? (fun w => w.started) = some w) :
    exec .trellisWipeComplete s = .next (wipeEnds w s) := by
  change execTrellisWipeComplete s = _
  rw [execTrellisWipeComplete, hw]

/-- Settles O30, command by command. That operands which name no line end in the fault is the model's own reading (log 95), as is
the order of the accesses held (log 96). -/
theorem trellisMaintenanceCommands : Obligations.TrellisMaintenanceCommands := by
  unfold Obligations.TrellisMaintenanceCommands
  refine ⟨fun _ _ _ _ _ _ _ _ => exec_trellisAccess_served, fun _ _ _ _ _ _ _ _ => exec_trellisAccess_held,
    fun _ _ _ _ _ _ _ _ => exec_trellisAccess_illFormed, fun _ _ _ => fabricAccess_writes, fun _ _ _ => fabricAccess_outside,
    ?scrub, ?lastScrub, fun _ _ _ => rfl, ?switch, ?mirror, fun _ _ _ => exec_bankRebuildDone, ?wipe⟩
  case scrub =>
    intro r finds port s t u hen hrun hw ht hu hline
    rw [exec_scrubRead finds port hen hrun hw ht hu, if_neg hline]
  case lastScrub =>
    intro r finds port s t u hen hrun hw ht hu hline
    rw [exec_scrubRead finds port hen hrun hw ht hu, if_pos hline]
  case switch =>
    rintro r bad s u t hu hw ha rfl
    exact bankSwitch_dead bad hu hw ha
  case mirror =>
    rintro half s t hc hw rfl
    exact exec_mirrorCopyDone hc hw
  case wipe =>
    rintro s w t u v x hw rfl rfl rfl rfl
    exact exec_trellisWipeComplete hw

end Sys2Proof.Machine
end

section
/-!
PROOF. Clusters, spares, die-to-die lanes and the capacity that they leave (01 R19, R21, R23, R28, R521; 06 R186): one lemma for
each case of a fault.
-/
namespace Sys2Proof.Machine

/-- A unit of a cluster fails: ERR_COUNT, LAST_ERR and STATE of its UNIT_STATUS (01 R13). -/
def unitFails (f unit err : Nat) (s : State) : State :=
  setF f (0x10 + unit) 31 28 4 (setF f (0x10 + unit) 15 8 err (bumpF f (0x10 + unit) 23 16 1 s))

/-- The spare of a region is one of the twenty clusters, so its FUNC is not the 0xFF of no spare. -/
theorem cf_spareOf_ne {s : State} {r sp : Nat} (h : spareOf s r = some sp) : cf sp ≠ 0xFF := by
  have : sp < 20 := List.mem_range.mp (List.mem_of_find?_eq_some h)
  unfold cf
  omega

section cluster

variable {c : Nat} {s : State}

/-- 06 R186: what a failed cluster was decoding restarts on the spare, which takes its slice. -/
theorem takeover_spare {sp : Nat} (h : spareOf s (clRegion c) = some sp) :
    takeover c s = (giveSlice c sp (setClSt sp .active (restartOn c (some sp) s)), cf sp) := by
  rw [takeover, h]

/-- 06 R188: with no spare the work goes to the clusters that are left. -/
theorem takeover_none (h : spareOf s (clRegion c) = none) : takeover c s = (reslice (restartOn c none s), 0xFF) := by
  rw [takeover, h]

/-- A fault of a cluster that is active and not in reset (01 R23). -/
theorem clusterFault_active (unit err : Nat) (hc : clOf s c = .active) (hd : funcDown s (cf c) = false) {u : State}
    {r : State × Nat} (hu : u = unitFails (cf c) unit err s) (hr : takeover c (setClSt c .retired u) = r) :
    clusterFault c unit err s = if r.2 = 0xFF then raise c (cf c) .faultUnabsorbed (beBytes 1 (cf c))
        (raise c (cf c) .faultCluster (beBytes 1 (cf c) ++ beBytes 1 r.2 ++ beBytes 2 (cwsOn u c)) (recomputeCap r.1))
      else raise c (cf c) .faultCluster (beBytes 1 (cf c) ++ beBytes 1 r.2 ++ beBytes 2 (cwsOn u c)) (recomputeCap r.1) := by
  have hact : clOf u c = .active := by rw [hu]; exact hc
  subst hr
  dsimp only [clusterFault]
  rw [if_neg (by simp [hc, hd]), ← unitFails, ← hu, if_pos hact]

/-- 01 R521: a spare that fails is retired, and none replaces it. -/
theorem clusterFault_spare (unit err : Nat) (hc : clOf s c = .spare) (hd : funcDown s (cf c) = false) :
    clusterFault c unit err s = raise c (cf c) .faultCluster (beBytes 1 (cf c) ++ [0xFF] ++ beBytes 2 0)
      (setClSt c .retired (unitFails (cf c) unit err s)) := by
  have hspare : clOf (unitFails (cf c) unit err s) c ≠ .active := by
    change clOf s c ≠ _
    simp [hc]
  dsimp only [clusterFault]
  rw [if_neg (by simp [hc, hd]), ← unitFails, if_neg hspare]

/-- A retired cluster has no further faults (log 3). -/
theorem clusterFault_retired (unit err : Nat) (hc : clOf s c = .retired) : clusterFault c unit err s = s := by
  dsimp only [clusterFault]
  rw [if_pos (by simp [hc])]

end cluster

/-- 01 R521: an unclaimed spare bank that does not answer is retired and fenced, and the mirror placed anew where it can be. -/
theorem bankFailing_spare {r : Nat} {s : State} (hsp : objF s (0x7C + r) 0xF08 29 28 = 0)
    (hret : nbit (objF s (0x7C + r) 0xF08 23 7) 16 = false) (hl : regionLost s r = false) (hsub : (regOf s r).sub = none) :
    bankFailing r 16 false s = placeHalves (raise (71 + r) (0x7C + r) .faultBank (beBytes 1 (bankCode r 16) ++ [0xFF, 2])
      (bankDies r 16 (setF (0x7C + r) 0xF08 23 7 (objF s (0x7C + r) 0xF08 23 7 ||| 2 ^ 16)
        (setF (0x7C + r) 0xF08 29 28 3 s)))) := by
  simp [bankFailing, hsp, hret, hl, hsub]

/-- 01 R19, R23, R28: a lane that is active fails; a spare of its direction replaces it, else the fault is not absorbed. -/
theorem laneFault_active {l2d : Bool} {lane : Nat} {s : State} (h : laneOf s l2d lane = .active) :
    laneFault l2d lane s = match spareLane s l2d with
      | some sp => raise 76 0 .faultD2d (beBytes 1 (b2n l2d) ++ beBytes 1 lane ++ beBytes 1 sp)
          (setLane l2d sp .active (setLane l2d lane .retired s))
      | none => raise 76 0 .faultUnabsorbed [0] (raise 76 0 .faultD2d (beBytes 1 (b2n l2d) ++ beBytes 1 lane ++ beBytes 1 0xFF)
          (setLane l2d lane .retired s)) := by
  dsimp only [laneFault]
  rw [if_neg (by simp [h])]
  cases spareLane s l2d <;> rfl

/-- Settles O27, fault by fault. FAULT_UNABSORBED beside FAULT_CLUSTER where no spare is left is the model's own choice (log 29),
and so is that a fault of a retired cluster changes nothing (log 3). -/
theorem clusterAndLaneCommands : Obligations.ClusterAndLaneCommands := by
  unfold Obligations.ClusterAndLaneCommands
  refine ⟨?takenOver, ?unabsorbed, ?spare, ?retired, ?spareCluster, ?spareBank, ?spareD2L, ?spareL2D, fun _ _ _ => rfl,
    ?laneReplaced, ?laneLost, ?capacity, ?sameCapacity⟩
  case takenOver =>
    rintro c unit err s f u v sp rfl hc hd hu rfl hsp
    exact congrArg Host.Outcome.next
      ((clusterFault_active unit.val err.toNat hc hd hu (takeover_spare hsp)).trans (if_neg (cf_spareOf_ne hsp)))
  case unabsorbed =>
    rintro c unit err s f u v rfl hc hd hu rfl hsp
    exact congrArg Host.Outcome.next
      ((clusterFault_active unit.val err.toNat hc hd hu (takeover_none hsp)).trans (if_pos rfl))
  case spare =>
    rintro c unit err s f rfl hc hd
    exact congrArg Host.Outcome.next (clusterFault_spare unit.val err.toNat hc hd)
  case retired =>
    intro c unit err s hc
    exact congrArg Host.Outcome.next (clusterFault_retired unit.val err.toNat hc)
  case spareCluster =>
    rintro r unit err s c f hsp hc hd rfl
    change execSpareFailed (.cluster r unit err) s = _
    simp only [execSpareFailed, hsp]
    exact congrArg Host.Outcome.next (clusterFault_spare unit.val err.toNat hc hd)
  case spareBank =>
    intro r s hsp hret hl hsub
    change execSpareFailed (.bank r) s = _
    rw [execSpareFailed, if_pos (by simp [hsp, hsub]), bankFailing_spare hsp hret hl hsub]
  case spareD2L => exact fun i s h => congrArg Host.Outcome.next (if_pos h)
  case spareL2D => exact fun i s h => congrArg Host.Outcome.next (if_pos h)
  case laneReplaced =>
    intro l2d lane s sp ha hsp
    exact congrArg Host.Outcome.next ((laneFault_active ha).trans (by rw [hsp]))
  case laneLost =>
    intro l2d lane s ha hsp
    exact congrArg Host.Outcome.next ((laneFault_active ha).trans (by rw [hsp]))
  case capacity => exact fun s h => congrArg Host.Outcome.next (if_neg h)
  case sameCapacity => exact fun s h => congrArg Host.Outcome.next (if_pos h)

end Sys2Proof.Machine
end

section
/-!
PROOF. Domains, the management controller, region controllers, per-function reset and heat (01 R17; 17 R457, R458, R462 to R467,
R471): one lemma for each case of a command.
-/
namespace Sys2Proof.Machine

/-- 17 R457, R458: a domain in power trips while the device runs; within 1 s of its re-power it stays off. -/
theorem exec_domainTrip {d : Fin 30} {s : State} (hd : domOf s d.val = .on) (hp : s.phase = .running) :
    exec (.domainTrip d) s = .next (tripped d.val
      ((if s.pw.repowers.any (fun e => e.1 == d.val && decide (now s ≤ e.2.toNat + 400000000)) then
          setPw (fun p => { p with locked := p.locked ++ [d.val] }) else id)
        (setF 0 0x203 23 19 d.val (bumpF 0 0x203 31 24 1 (setDom d.val .tripped s))))) := by
  change execDomainTrip d s = _
  rw [execDomainTrip, if_neg (by simp [hd, hp])]
  dsimp only
  split <;> rfl

/-- 17 R471: the readings of the sensors, and what a device that runs shows of them. -/
theorem exec_hotChange (temps : Vector Int 8) (s : State) :
    exec (.hotChange temps) s = .next (
      let t := setPw (fun p => { p with temps := temps }) s
      if s.phase ≠ .running then t
      else throttleEvents 1 0xFF (setF 0 0x211 20 20 (b2n (hotNow t))
        (setF 0 0x211 23 21 (temps.toList.findIdx (fun x => decide (x = hottest t)))
          (setF 0 0x211 31 24 (clampInt 0 255 (hottest t / 10 + 64)).toNat t)))) := rfl

/-- 17 R466: a mismatch of the controller before any restart of it. -/
theorem exec_mcLockstepMismatch_first {s : State} (hp : s.phase = .running) (hd : s.pw.mcDown = false)
    (hl : s.pw.mcLast = none) :
    exec .mcLockstepMismatch s = .next (setPw (fun p => { p with mcDown := true }) (mcForgets s)) := by
  change execMcLockstepMismatch s = _
  simp [execMcLockstepMismatch, hp, hd, hl]

/-- 17 R467: a mismatch within 1 s of the last restart resets the device. -/
theorem exec_mcLockstepMismatch_soon {s : State} {u : W64} (hp : s.phase = .running) (hd : s.pw.mcDown = false)
    (hl : s.pw.mcLast = some u) (hsoon : now s < u.toNat + 400000000) :
    exec .mcLockstepMismatch s = .next (beginReset 4 .resetRun s) := by
  change execMcLockstepMismatch s = _
  simp [execMcLockstepMismatch, hp, hd, hl, hsoon]

/-- 17 R467: the ROM check after a restart fails. -/
theorem exec_mcRestartDone_romBad {s : State} (hd : s.pw.mcDown = true) :
    exec (.mcRestartDone false) s = .next (beginReset 4 .resetRun s) := by
  change execMcRestartDone false s = _
  simp [execMcRestartDone, hd]

/-- 17 R466: the controller has restarted. -/
theorem exec_mcRestartDone {s : State} (hd : s.pw.mcDown = true) : exec (.mcRestartDone true) s = .next
    (raise 76 0 .mcRestart (beBytes 2 (min 0xFFFF (s.pw.mcRestarts + 1))) (setPw (fun p => { p with
      mcDown := false, mcLast := some s.clk.tb, mcRestarts := min 0xFFFF (s.pw.mcRestarts + 1) }) s)) := by
  change execMcRestartDone true s = _
  simp [execMcRestartDone, hd]

section funcReset

variable {func : Byte} {s t : State} {run : ResetRun}

/-- 17 R462 to R465: a reset or release ends where no codeword of a leaving cluster is awaited. A domain tripped meanwhile
prevails, else the function is held or leaves reset. -/
theorem exec_funcResetDone (failed : Bool) (hrun : s.pw.resetting.find? (fun r => decide (r.func = func)) = some run)
    (hl : s.cl.leaving.any (fun c => decide (cf c = func.toNat)) = false)
    (ht : t = setPw (fun p => { p with resetting := p.resetting.filter (fun r => decide (r.func ≠ func)) }) s) {u : State}
    (hu : u = if run.hold then setPw (fun p => { p with held := p.held ++ [func] }) t else leaveReset func.toNat t) :
    exec (.funcResetDone func failed) s = .next (if (trippedOf t func.toNat).isEmpty then
        funcAnswer func.toNat run.release stDone (if run.release then u
          else resetDone func.toNat (if run.repower then 9 else 8) (b2n failed) ((now u - run.start.toNat) / 400) u)
      else funcAnswer func.toNat run.release stNotInState t) := by
  change execFuncResetDone func failed s = _
  simp only [execFuncResetDone, hrun, hl, ← ht, ← hu]
  cases (trippedOf t func.toNat).isEmpty <;> rfl

/-- 06 R187: the reset of a cluster waits for its codeword boundary. -/
theorem exec_funcResetDone_leaving (failed : Bool) (hrun : s.pw.resetting.find? (fun r => decide (r.func = func)) = some run)
    (hl : s.cl.leaving.any (fun c => decide (cf c = func.toNat)) = true) : exec (.funcResetDone func failed) s = .next s := by
  change execFuncResetDone func failed s = _
  simp only [execFuncResetDone, hrun, hl, if_true]

end funcReset

/-- Settles O17, command by command. That readings outside the running phase are only stored (logs 3 and 7) and that
FUNC_RESET_DONE of a cluster which still leaves changes nothing (log 3) are the model's own choices. -/
theorem domainsControllersAndFunctionReset : Obligations.DomainsControllersAndFunctionReset := by
  unfold Obligations.DomainsControllersAndFunctionReset
  refine ⟨fun _ _ => exec_domainTrip, ?idleHeat, ?heat, fun _ => exec_mcLockstepMismatch_first,
    fun _ _ => exec_mcLockstepMismatch_soon, fun _ => exec_mcRestartDone_romBad, fun _ => exec_mcRestartDone, ?regionMismatch,
    ?regionRestarted, ?resetEnds, ?tripPrevails, fun _ failed _ _ => exec_funcResetDone_leaving failed⟩
  case idleHeat => exact fun temps s hp => (exec_hotChange temps s).trans (congrArg Host.Outcome.next (if_pos hp))
  case heat =>
    rintro temps s t hot hp rfl rfl
    exact (exec_hotChange temps s).trans (congrArg Host.Outcome.next (if_neg (not_not.mpr hp)))
  case regionMismatch => exact fun r s h => congrArg Host.Outcome.next (if_pos h)
  case regionRestarted => exact fun r s h => congrArg Host.Outcome.next (if_pos h)
  case resetEnds =>
    intro func failed s run t u hrun hl ht htrip hu
    rw [exec_funcResetDone failed hrun hl ht hu, if_pos htrip]
  case tripPrevails =>
    intro func failed s run t hrun hl ht htrip
    rw [exec_funcResetDone failed hrun hl ht rfl, if_neg (by simp [htrip])]

end Sys2Proof.Machine
end

section
/-!
PROOF. Events from their sources to their packets (02 R58 to R61; 14 R415, R416): what a source does with a record, one lemma for
each case of the queue of four, and what the collector and the event path do with records.
-/
namespace Sys2Proof.Machine

-- Fields of words and objects.

/-- A field reads back what was put into it, to its width. -/
theorem fget_fput_same {w : W32} {hi lo v : Nat} (hhi : hi < 32) (hv : v < 2 ^ (hi + 1 - lo)) :
    fget (fput w hi lo v) hi lo = v := by
  have hword : (fput w hi lo v).extractLsb' lo (hi + 1 - lo) = BitVec.ofNat (hi + 1 - lo) v := by
    refine BitVec.eq_of_getLsbD_eq fun i hi' => ?_
    have h32 : lo + i < 32 := by omega
    have hi32 : i < 32 := by omega
    simp only [fput, fmask, BitVec.getLsbD_extractLsb', BitVec.getLsbD_or, BitVec.getLsbD_and, BitVec.getLsbD_not,
      BitVec.getLsbD_shiftLeft, BitVec.getLsbD_ofNat, Nat.testBit_two_pow_sub_one, Nat.add_sub_cancel_left]
    simp [hi', h32, hi32]
  rw [fget, hword, BitVec.toNat_ofNat, Nat.mod_eq_of_lt hv]

/-- A saturating count of an object reads its old value and k more, or its maximum. -/
theorem objF_bumpF_same {func id hi lo k : Nat} {s : State} (hhi : hi < 32) (hwf : smWf regD s.regs = true) :
    objF (bumpF func id hi lo k s) func id hi lo = min (objF s func id hi lo + k) (2 ^ (hi + 1 - lo) - 1) := by
  have hmax : min (fget (getObj s func id) hi lo + k) (2 ^ (hi + 1 - lo) - 1) < 2 ^ (hi + 1 - lo) := by
    have := Nat.two_pow_pos (hi + 1 - lo)
    omega
  rw [objF, bumpF, getObj_setObj_same hwf, fbump, fget_fput_same hhi hmax, objF]

-- The queue of a source.

theorem vAt_vSet_same {α : Type} [Inhabited α] {n i : Nat} (v : Vector α n) (a : α) (h : i < n) : vAt (vSet v i a) i = a := by
  simp [vAt, vSet, List.getD_eq_getElem?_getD, h]

/-- A source's queue is replaced in the state. -/
def setSrc (src : Nat) (q : SrcQ) (s : State) : State := { s with ev := { s.ev with srcs := vSet s.ev.srcs src q } }

theorem vAt_srcs_setSrc {src : Nat} {q : SrcQ} {s : State} (h : src < 108) : vAt (setSrc src q s).ev.srcs src = q :=
  vAt_vSet_same _ _ h

section source

variable {r : EvRec} {s : State}

/-- 02 R59: a source without drops and with room stores the record. -/
theorem srcStore_room (hd : (vAt s.ev.srcs r.src).dropped = 0) (hl : (vAt s.ev.srcs r.src).q.length < 4) :
    srcStore r s = setSrc r.src ⟨(vAt s.ev.srcs r.src).q ++ [r], 0, 0⟩ s := by
  simp only [srcStore, hd, if_true]
  rw [if_pos (by omega), List.append_nil]
  rfl

/-- 02 R59: a full source counts the record, in its own counter and in EVT_LOST. -/
theorem srcStore_full (hl : (vAt s.ev.srcs r.src).q.length = 4) :
    srcStore r s = bumpF 0x78 0xE0A 15 0 1 (setSrc r.src ⟨(vAt s.ev.srcs r.src).q,
      min ((vAt s.ev.srcs r.src).dropped + 1) 0xFFFF,
      if (vAt s.ev.srcs r.src).dropped = 0 then r.tb else (vAt s.ev.srcs r.src).first⟩ s) := by
  have hneed : ¬ (vAt s.ev.srcs r.src).q.length + (if (vAt s.ev.srcs r.src).dropped = 0 then 1 else 2) ≤ 4 := by
    split <;> omega
  exact if_neg hneed

/-- 02 R59: a source that owes drops and has room for two stores EVENTS_DROPPED ahead of the record. -/
theorem srcStore_owed (hd : (vAt s.ev.srcs r.src).dropped ≠ 0) (hl : (vAt s.ev.srcs r.src).q.length ≤ 2) :
    srcStore r s = setSrc r.src ⟨(vAt s.ev.srcs r.src).q ++ [droppedRec r.src r.func r.tb (vAt s.ev.srcs r.src), r], 0, 0⟩ s := by
  simp only [srcStore, if_neg hd]
  rw [if_pos (by omega), List.append_assoc]
  rfl

end source

/-- The memory of FAULT_UNABSORBED is none of the event sources' nor of the objects'. -/
@[simp] theorem noteUnabsorbed_ev (e : Ev) (s : State) : (noteUnabsorbed e s).ev = s.ev := by
  unfold noteUnabsorbed; split <;> rfl

@[simp] theorem objF_noteUnabsorbed (e : Ev) (s : State) (func id hi lo : Nat) :
    objF (noteUnabsorbed e s) func id hi lo = objF s func id hi lo := by
  unfold noteUnabsorbed; split <;> rfl

/-- Settles O10, by the three cases of a source's queue. -/
theorem eventSourcesHoldFourRecords : Obligations.EventSourcesHoldFourRecords := by
  unfold Obligations.EventSourcesHoldFourRecords
  refine ⟨?room, ?full, ?owed⟩
  case room =>
    rintro src func e data s q hsrc rfl hd hl
    rw [raise, noteUnabsorbed_ev, srcStore_room hd hl, vAt_srcs_setSrc hsrc]
  case full =>
    rintro src func e data s q hsrc rfl hl hwf
    rw [raise, noteUnabsorbed_ev, objF_noteUnabsorbed, srcStore_full hl, bumpF, setObj_ev, vAt_srcs_setSrc hsrc]
    exact ⟨rfl, rfl, rfl, objF_bumpF_same (by decide) hwf⟩
  case owed =>
    rintro src func e data s q hsrc rfl hd hl
    rw [raise, noteUnabsorbed_ev, srcStore_owed hd hl, vAt_srcs_setSrc hsrc]
    exact ⟨rfl, rfl⟩

-- The collector and the event path.

/-- 02 R60, R61: the collector that is not held takes the oldest record of a source; one whose release point has passed is issued
late at once. -/
theorem acceptOldest_cons {src : Nat} {s : State} {r : EvRec} {t : List EvRec} (hh : collectorHeld s = false)
    (hq : (vAt s.ev.srcs src).q = r :: t) :
    acceptOldest src s = (let u := setSrc src { vAt s.ev.srcs src with q := t } s
      if released u r then issue { r with late := true } u else { u with ev := { u.ev with held := u.ev.held ++ [r] } }) := by
  simp only [acceptOldest, hq, hh]
  rfl

section eventPacket

variable {s : State} {r : Bytes} {rest : List Bytes}

/-- 14 R416: without an available path the packet is dropped and counted. -/
theorem exec_eventPacketSend_dropped (hu : s.ev.unsent = r :: rest)
    (hp : eventPath { s with ev := { s.ev with unsent := rest } } = false) :
    exec .eventPacketSend s = .next (bumpF 0 0xE21 15 0 1 { s with ev := { s.ev with unsent := rest } }) := by
  change execEventPacketSend s = _
  simp [execEventPacketSend, hu, hp]

/-- 14 R415, R416: a packet that EVT_CFG sends to the host is counted as sent and leaves on the event link. -/
theorem exec_eventPacketSend_host {t : State} {l : Nat} (hu : s.ev.unsent = r :: rest)
    (ht : t = bumpF 0 0xE21 31 16 1 { s with ev := { s.ev with unsent := rest } })
    (hp : eventPath { s with ev := { s.ev with unsent := rest } } = true) (hc : objF t 0 0xE20 31 31 = 0)
    (hl : eventLink t = some l) :
    exec .eventPacketSend s
      = .next (hostSend l (eventDst t).1 (eventDst t).2 (eventPacket t r) (mcPass (eventPacket t r) t)) := by
  change execEventPacketSend s = _
  simp [execEventPacketSend, hu, hp, ← ht, hc, hl]

/-- 14 R415, R416: one that EVT_CFG sends over the chain is counted as sent and joins the messages of the chain. -/
theorem exec_eventPacketSend_chain {t : State} (hu : s.ev.unsent = r :: rest)
    (ht : t = bumpF 0 0xE21 31 16 1 { s with ev := { s.ev with unsent := rest } })
    (hp : eventPath { s with ev := { s.ev with unsent := rest } } = true) (hc : objF t 0 0xE20 31 31 ≠ 0) :
    exec .eventPacketSend s = .next (chainSend 2 (objF t 0 0xE20 29 24) (eventPacket t r) t) := by
  change execEventPacketSend s = _
  simp [execEventPacketSend, hu, hp, ← ht, hc]

end eventPacket

/-- Settles O21, command by command. -/
theorem eventCommands : Obligations.EventCommands := by
  unfold Obligations.EventCommands
  refine ⟨?accept, ?release, ?dropped, fun _ _ _ _ _ => exec_eventPacketSend_host, fun _ _ _ _ => exec_eventPacketSend_chain⟩
  case accept =>
    rintro src s r t u hh hq rfl
    exact congrArg Host.Outcome.next (acceptOldest_cons hh hq)
  case release =>
    intro s hh
    exact congrArg Host.Outcome.next (if_neg (by simp [hh]))
  case dropped =>
    rintro s r rest t hu rfl hp
    exact exec_eventPacketSend_dropped hu hp

end Sys2Proof.Machine
end

section
/-!
PROOF. The timebase: the reference clock, the mains reference, the slew of TB (02 R38 to R51, R56; 20 R511), and the pulse that
keeps a chain of devices together (02 R54 to R57, 15 R434): one lemma for each case of a command.
-/
namespace Sys2Proof.Machine

section clock

variable {s : State}

/-- 02 R43, R44, R51: a channel of mains tracking whose slice runs captures the crossing found in its outputs, if there is one. -/
theorem exec_mainsCrossingCapture {ch : Fin 24} {rx : ModRx} {i k : Nat} (hm : measUp s = true)
    (hch : ch.val = refCh s ∨ ((altEn s || s.clk.onAlt) = true ∧ ch.val = altCh s)) (hk : crossSlice s ch.val = some (i, k)) :
    exec (.mainsCrossingCapture ch rx) s = .next (match crossingIn (hyst s) (crossOuts s k rx) with
      | some stamp => captureClock ch.val stamp (crossRecord ch.val i k stamp s)
      | none => s) := by
  change execMainsCrossingCapture ch rx s = _
  have hcond : ¬ ((!measUp s) = true
      ∨ (!decide (ch.val = refCh s ∨ ((altEn s || s.clk.onAlt) = true ∧ ch.val = altCh s))) = true) := by
    simp only [hm, hch]
    decide
  rw [execMainsCrossingCapture, if_neg hcond]
  cases hx : crossingIn (hyst s) (crossOuts s k rx) <;> simp only [hk, hx]

/-- 02 R46: the error that the period in use of the next cycle corrects, in LOCKED, SLEW and CHAIN. -/
def errInUse (s : State) : Int :=
  match s.clk.track with
  | .locked | .slew | .chain => s.clk.err.getD 0
  | _ => 0

/-- 02 R46, R47: the next cycle begins at C, with the period in use that the error gives it. -/
theorem cycleBegins_eq {c : Nat} :
    cycleBegins c s = setClk (fun k => { k with
      c := some (c + k.per), per := ((s.clk.p : Int) + adjOf s.clk.p (errInUse s)).toNat, cycle := k.cycle + 1
      err := k.errNext, errNext := none
      capThis := k.errNext.isSome, hist := ((c, k.per) :: k.hist).take 4, accAge := k.accAge + 1
      missRun := if (s.clk.track = .locked ∨ s.clk.track = .slew) ∧ s.clk.capThis = false then k.missRun + 1
        else k.missRun }) s := by
  simp only [cycleBegins, Bool.and_eq_true, decide_eq_true_eq, Bool.not_eq_true']
  rfl

/-- 02 R46, R47, 07 R196: C falls, and the bursts under way follow the new period. -/
theorem exec_mainsCycleStart {c : Nat} (hc : s.clk.c = some c) :
    exec .mainsCycleStart s = .next (recutBursts (cycleBegins c s)) := by
  change execMainsCycleStart s = _
  rw [execMainsCycleStart, hc]

/-- 02 R41, R56: a slew forward adds one tick in every 10 000. -/
theorem exec_tbSlewAdjust_forward (hpos : 0 < s.clk.slew) (ht : 10000 ≤ s.clk.slewTicks) :
    exec .tbSlewAdjust s = .next (setClk (fun c => { c with tb := c.tb + 1, slew := c.slew - 1, slewTicks := 0 }) s) := by
  change execTbSlewAdjust s = _
  rw [execTbSlewAdjust, if_neg (by omega), if_pos hpos]

/-- 02 R41, R56: a slew backward skips one tick in every 10 000. -/
theorem exec_tbSlewAdjust_backward (hneg : s.clk.slew < 0) (ht : 10000 ≤ s.clk.slewTicks) :
    exec .tbSlewAdjust s
      = .next (setClk (fun c => { c with skipTick := true, slew := c.slew + 1, slewTicks := 0 }) s) := by
  change execTbSlewAdjust s = _
  rw [execTbSlewAdjust, if_neg (by omega), if_neg (by omega)]

end clock

/-- Settles O18, command by command. That REF_OK reads 1 again from REFCLK_RESTORE_DETECT on is the model's own choice (log 115). -/
theorem clockAndMainsCommands : Obligations.ClockAndMainsCommands := by
  unfold Obligations.ClockAndMainsCommands
  refine ⟨?loss, ?restore, ?slewEnd, fun _ _ => rfl, fun _ _ _ _ _ => exec_mainsCrossingCapture, ?cycle, ?holdover,
    fun _ => exec_tbSlewAdjust_forward, fun _ => exec_tbSlewAdjust_backward⟩
  case loss => exact fun s h => congrArg Host.Outcome.next (if_pos h)
  case restore => exact fun s h => congrArg Host.Outcome.next (if_pos h)
  case slewEnd => exact fun s h => congrArg Host.Outcome.next (if_pos h)
  case cycle =>
    rintro s c e per hc rfl rfl
    exact (exec_mainsCycleStart hc).trans (congrArg (Host.Outcome.next ∘ recutBursts) cycleBegins_eq)
  case holdover => exact fun s ht hm => congrArg Host.Outcome.next (if_pos ⟨ht, hm⟩)

/-- 02 R55, 15 R434: a device that is not the master takes the edge and keeps the chain free for the announcement. -/
theorem exec_chainSyncEdge {s : State} (h : isMaster s = false) : exec .chainSyncEdge s = .next
    (setClk (fun c => { c with
      edgeInts := match c.lastEdge with | some l => ((now s * 256 - l) :: c.edgeInts).take 8 | none => c.edgeInts
      lastEdge := some (now s * 256), edgeWait := some (now s * 256), edgeMiss := 0 })
      { s with chain := { s.chain with syncHold := some (s.clk.tb + 10000000) } }) :=
  congrArg Host.Outcome.next (if_neg (by simp [h]))

/-- Settles O19, command by command. -/
theorem chainSynchronizationCommands : Obligations.ChainSynchronizationCommands := by
  unfold Obligations.ChainSynchronizationCommands
  refine ⟨?miss, fun _ => exec_chainSyncEdge, ?conflict, ?announce, fun _ _ _ _ => rfl⟩
  case miss => exact fun s ht hm => congrArg Host.Outcome.next (if_pos ⟨ht, hm⟩)
  case conflict => exact fun s hm hd => congrArg Host.Outcome.next (if_pos (by simp [hm, hd]))
  case announce => exact fun s hm hd => congrArg Host.Outcome.next (if_pos (by simp [hm, hd]))

end Sys2Proof.Machine
end

section
/-!
PROOF. Superframes, slots, the schedule, the acknowledgement timer and nodes that fall silent or leave (02 R52; 05 R120; 08 R228,
R245, R254, R255, R266): one lemma for each case of a command.
-/
namespace Sys2Proof.Machine

section superframe

variable {s : State}

/-- 02 R52: an even cycle of a locked device that has opened no superframe yet opens one. -/
theorem exec_superframeStart {fig : SfFigures} (hp : s.phase = .running) (hc : s.clk.c.isSome = true)
    (hl : s.clk.lockSeen = true) (he : s.clk.cycle.toNat % 2 = 0) (hn : s.clk.sfCount = 0 ∨ s.clk.sfCycle ≠ s.clk.cycle) :
    exec (.superframeStart fig) s = .next (superframeOpens fig s) := by
  have hc' : s.clk.c.isNone = false := Option.isNone_eq_false_iff.mpr hc
  refine congrArg Host.Outcome.next (if_neg ?_)
  rcases hn with hn | hn <;> simp [hp, hc', hl, he, hn]

/-- 02 R52, 05 R120: a slot of a superframe begins. -/
theorem exec_slotStart {slot : Fin 16} {t u : State} (hp : s.phase = .running) (hl : s.clk.lockSeen = true)
    (hn : s.clk.sfCount ≠ 0) (hu : u = driversDue (setClk (fun c => { c with slot := slot, slotTb := s.clk.tb }) s))
    (ht : t = testsBegin (opensEnd (if slot.val = 15 then lateWrites (now u) u else u))) :
    exec (.slotStart slot) s = .next ((List.range 6).foldl (fun s g => rearm g s)
      (if slot.val = 1 then (List.range 6).foldl (fun s g => nbBeaconSend g s) t else t)) := by
  have hcond : ¬ (s.phase ≠ .running ∨ (!s.clk.lockSeen) = true ∨ s.clk.sfCount = 0) := by simp [hp, hl, hn]
  change execSlotStart slot s = _
  rw [execSlotStart, if_neg hcond, ht, hu]

end superframe

/-- 08 R245: once T_ack of a frame has expired, the frame is sent again while it has retries left, else it is given up. -/
theorem exec_arqAckTimeout {node seq : BitVec 12} {s : State} {t : TxFrame}
    (hf : s.lk.tx.find? (fun t => decide (t.node = node) && decide (t.seq = some seq.toNat)
      && decide (t.st = .sent)) = some t)
    (hT : t.sentSf + arqTo s + nHops s node.toNat - 1 ≤ sfNow s) {u : State}
    (hu : u = moveVa node.toNat (setTx t.id (fun t => { t with st := .queued, retx := t.retx + 1 }) (bumpF 0 0x70B 31 16 1 s))) :
    exec (.arqAckTimeout node seq) s = .next (if t.retx < arqRetry s then
        if t.retx = 1 ∧ t.nego ≠ [] then
          nSetMapreq (hopOf u node.toNat) true (t.nego.foldl (fun s i => dropMap (hopOf u node.toNat) 1 i s) u)
        else u
      else moveVa node.toNat (giveUpTx t s)) := by
  subst hu
  change execArqAckTimeout node seq s = _
  simp only [execArqAckTimeout, hf]
  rw [if_neg (by omega)]

/-- 08 R266: the step watch of a group ends. -/
theorem exec_stepWatchEnd {g : Fin 6} {s : State} {e : Nat} {a : W64} {b : BitVec 6}
    (hw : (grpL s g.val).watch = some (e, a, b)) (he : e ≤ sfNow s) :
    exec (.stepWatchEnd g) s = .next (setGrpL g.val (fun l => { l with watch := none }) s) := by
  change execStepWatchEnd g s = _
  simp only [execStepWatchEnd, hw]
  rw [if_pos he]

/-- 08 R255: a leaving node's entry becomes FREE once its frames have left, or 8 superframes have passed. -/
theorem exec_leavingToFree {node : BitVec 12} {s : State} {e : Nat × Nat × Nat}
    (hf : s.lk.leaving.find? (fun e => e.1 == node.toNat) = some e) (hst : nState s node.toNat = 4)
    (hq : (framesOf s node.toNat).isEmpty = true ∨ e.2.1 + 8 ≤ sfNow s) :
    exec (.leavingToFree node) s = .next (fullCheck (raise 75 0 .nodeLeft (beBytes 2 node.toNat ++ beBytes 1 e.2.2)
      (setDescs (nodePath s node.toNat) (setLk (fun l => { l with
        canRep := l.canRep.filter (fun m => m != node.toNat), leaving := l.leaving.filter (fun e => e.1 != node.toNat)
        dest := l.dest.filter (fun e => e.1 != node.toNat)
        backAt := smErase (fun k => k == node.toNat) l.backAt, unheard := l.unheard.filter (fun e => e.toNat != node.toNat)
        heard := smErase (fun k => k / 8 == node.toNat) l.heard, fails := smErase (fun k => k / 8 == node.toNat) l.fails
        setAt := smErase (fun k => k == node.toNat) l.setAt, ulLast := smErase (fun k => k == node.toNat) l.ulLast })
        (memWrite (nodeBase node.toNat) (List.replicate 64 0) (dropFrames node.toNat (unbind node.toNat s))))))) := by
  change execLeavingToFree node s = _
  simp only [execLeavingToFree, hf]
  rw [if_pos ⟨hst, hq⟩]

/-- Settles O20, command by command. -/
theorem superframeScheduleAndNodeCommands : Obligations.SuperframeScheduleAndNodeCommands := by
  unfold Obligations.SuperframeScheduleAndNodeCommands
  refine ⟨fun _ _ => exec_superframeStart, fun _ _ _ _ => exec_slotStart, ?fixed, ?kept, ?again, ?givenUp, fun _ _ _ _ _ => exec_stepWatchEnd, ?silent,
    ?leaves⟩
  case fixed =>
    rintro props opens s t hd rfl
    exact congrArg Host.Outcome.next (if_neg (by simp [hd]))
  case kept => exact fun props opens s hd => congrArg Host.Outcome.next (if_pos hd)
  case again =>
    intro node seq s t u hf hT hr hu
    rw [exec_arqAckTimeout hf hT hu, if_pos hr]
  case givenUp =>
    intro node seq s t hf hT hr
    rw [exec_arqAckTimeout hf hT rfl, if_neg (Nat.not_lt.mpr hr)]
  case silent => exact fun node s hst hn h0 => congrArg Host.Outcome.next (if_pos ⟨hst, hn, h0⟩)
  case leaves =>
    rintro node s n e rfl hf hst hq
    exact exec_leavingToFree hf hst hq

end Sys2Proof.Machine
end

section
/-!
PROOF. The front of the command queue (02 R41), and the requests that read the identity and the objects of the device (14 R403,
R409, R517; 02 R42).
-/
namespace Sys2Proof.Machine

/-- Settles O1, by the two shapes of the queue. That an empty one lets a tick pass is the model's own choice (log 1). -/
theorem frontCommandIsExecuted : Obligations.FrontCommandIsExecuted := by
  unfold Obligations.FrontCommandIsExecuted
  refine ⟨fun s c rest h => ?front, fun s h => ?empty⟩
  case front => rw [step, h]
  case empty => rw [step, h]

section paramRead

variable {r : Req} {s : State}

/-- 14 R409: a PARAM_READ whose IDs the FUNC holds answers their samples, in list order. -/
theorem readParams_done (hs : Serves 0x101 s) (hfunc : funcDefined r.func.toNat = true) (hlen : listLen r 4 255 = none)
    (hok : badRead r.func.toNat (chunks 4 r.params) = none) {a : State × Bytes}
    (ha : a = sampleAll r.func.toNat (chunks 4 r.params) (takeMgmt 0x101 r s)) :
    readParams r s = sendReply 0x101 r stDone a.2 a.1 := by
  rw [readParams, hfunc, hlen, execReq_runs hs]
  simp only [hok, ← ha]

/-- 14 R409: one that names an ID which the FUNC does not hold is refused with the offset of its entry. -/
theorem readParams_badObject (hs : Serves 0x101 s) (hfunc : funcDefined r.func.toNat = true) (hlen : listLen r 4 255 = none)
    {d : Nat} (hbad : badRead r.func.toNat (chunks 4 r.params) = some d) :
    readParams r s = sendReply 0x101 r stBadObject (beBytes 4 d) (takeMgmt 0x101 r s) := by
  rw [readParams, hfunc, hlen, execReq_runs hs]
  simp only [hbad, refuse]

end paramRead

/-- Settles O45, request by request. That the rows of RC objects and of TB_LO run the whole PARAM_READ that names them is the
model's own reading (log 61). -/
theorem identityAndObjectReads : Obligations.IdentityAndObjectReads := by
  unfold Obligations.IdentityAndObjectReads
  refine ⟨?ping, ?identify, ?samples, ?badObject⟩
  case ping =>
    rintro r s t hs rfl hfunc hlen
    change execPing r s = _
    rw [execPing, beq_iff_eq.mpr hfunc, if_pos hlen, execReq_runs hs]
  case identify =>
    rintro r s t hs rfl hfunc hparams
    have hlen : lenIs r 0 = none := if_pos (by simp [hparams])
    change execIdentify r s = _
    rw [execIdentify, beq_iff_eq.mpr hfunc, hlen, execReq_runs hs]
  case samples =>
    rintro r s t a hs rfl hfunc hlen hok ha
    have h := congrArg (Host.Outcome.next (φ := Fault) (ρ := Refusal)) (readParams_done hs hfunc hlen hok ha)
    exact ⟨h, h, h⟩
  case badObject =>
    rintro r s t d hs rfl hfunc hlen hbad
    exact congrArg Host.Outcome.next (readParams_badObject hs hfunc hlen hbad)

end Sys2Proof.Machine
end

section
/-!
PROOF. The line ports (03 R70, R72, R75, R77, R83 to R86; 04 R115): one lemma for each case of what happens on a port, and what a
request on a port answers once its FUNC and its parameters are in order.
-/
namespace Sys2Proof.Machine

section linePort

variable {p : Fin 6} {s : State}

/-- 03 R75, R77: the record of the tones decides whether the port enters SERVICE, and the next port has its turn. -/
theorem exec_portChecksDone {m : SoundMeas} {start : W64} {r : Nat × Bytes} (hc : (portOf s p.val).checking = some start)
    (hr : r = soundRecord s p.val m (objF s (pf p.val) 0x400 26 26 == 1) start) :
    exec (.portChecksDone p m) s = .next (checkOutcome p.val r.1 r.2 m
      (turnsNext p.val (now s) (setPort p.val (fun k => { k with move := if r.1 = 0 then some .enter else none })
        (sieveReset p.val (portRests p.val s))))) := by
  change execPortChecksDone p m s = _
  simp only [execPortChecksDone, hc, hr]

/-- 03 R72: a port out of reset takes its manual gain, keeps the gain that a reception holds, or moves one step towards the gain
that its samples ask for. -/
theorem exec_agcUpdate (rx : List Int) (hd : funcDown s (pf p.val) = false) :
    exec (.agcUpdate p rx) s = .next (
      if objF s (pf p.val) 0x402 31 31 = 0 then setPga p.val (pgaMan s p.val) s
      else if (portOf s p.val).pgaHeld then s
      else
        let g : Int := objF s (pf p.val) 0x403 19 14
        setPga p.val (clampInt 0 48 (clampInt (g - 1) (g + 1) (agcWant s p.val (rx.take 20000)))).toNat s) :=
  congrArg Host.Outcome.next (if_neg (by simp [hd]))

end linePort

/-- Settles O22, command by command. -/
theorem linePortCommands : Obligations.LinePortCommands := by
  unfold Obligations.LinePortCommands
  refine ⟨?startup, fun _ _ _ _ _ => exec_portChecksDone, ?episode, ?timeout, ?unitFault, ?manualGain, ?heldGain, ?gainStep,
    fun _ => rfl, ?fadeStart, ?fadeEnd⟩
  case startup =>
    intro p s hmay hd hst hcoup hlc
    exact congrArg Host.Outcome.next (if_pos (by simp [hmay, hd, hst, hcoup, hlc]))
  case episode =>
    rintro p s t hd rfl
    exact congrArg Host.Outcome.next (if_neg (by simp [hd]))
  case timeout => exact fun p s hd => congrArg Host.Outcome.next (if_neg (by simp [hd]))
  case unitFault => exact fun p unit err s hd => congrArg Host.Outcome.next (if_neg (by simp [hd]))
  case manualGain =>
    intro p rx s hd hman
    rw [exec_agcUpdate rx hd, if_pos hman]
  case heldGain =>
    intro p rx s hd hauto hheld
    rw [exec_agcUpdate rx hd, if_neg hauto, if_pos hheld]
  case gainStep =>
    rintro p rx s g hd hauto hfree rfl
    rw [exec_agcUpdate rx hd, if_neg hauto, if_neg (by simp [hfree])]
  case fadeStart => exact fun p s h => congrArg Host.Outcome.next (if_pos h)
  case fadeEnd => exact fun p s h => congrArg Host.Outcome.next (if_pos h)

section portRequest

variable {op n : Nat} {r : Req} {s t : State} {down : Bool} {body : State → Ans}

/-- 14 R387, R398: a request of a port that is up, with parameters of the length it takes, sends the reply of its body. -/
theorem execReq_port_replies {st : W16} {b : Bytes} (hs : Serves op s) (hf : portFunc r = true) (hn : r.params.length = n)
    (hd : down = false) (hb : body (takeMgmt op r s) = .reply st b t) :
    execReq op r (portFunc r) (lenIs r n) down body s = sendReply op r st b t := by
  rw [hf, hd, lenIs, if_pos hn, execReq_runs hs, hb]

/-- 14 R387, R398: one whose body defers is answered later. -/
theorem execReq_port_defers {aux : List Nat} (hs : Serves op s) (hf : portFunc r = true) (hn : r.params.length = n)
    (hd : down = false) (hb : body (takeMgmt op r s) = .defer aux t) :
    execReq op r (portFunc r) (lenIs r n) down body s = deferStart op r aux t := by
  rw [hf, hd, lenIs, if_pos hn, execReq_runs hs, hb]

end portRequest

/-- A command that neither its FUNC nor the limit of deferred commands turns away is deferred (14 R399). -/
theorem deferIf_defers {r : Req} {s : State} (h : deferRule r s = none) (aux : List Nat) (go : State → State) :
    deferIf r aux s go = .defer aux (go s) := by
  rw [deferIf, h]

/-- Settles O49, request by request: what remains of each is the answer of its body. -/
theorem portRequests : Obligations.PortRequests := by
  unfold Obligations.PortRequests
  refine ⟨?sound, ?soundRead, ?remove, ?readmission⟩
  case sound =>
    rintro r s t hs rfl hf hp hd htest hrule
    refine congrArg Host.Outcome.next (execReq_port_defers hs hf (by simp [hp]) (by simp [hd]) ?_)
    rw [htest, if_neg Bool.false_ne_true, deferIf_defers hrule]
  case soundRead =>
    rintro r s t b hs rfl hf hp hd hb
    refine congrArg Host.Outcome.next (execReq_port_replies hs hf (by simp [hp]) hd ?_)
    rw [hb]
  case remove =>
    rintro r s t hs rfl hf hp hd hst hforce
    refine congrArg Host.Outcome.next (execReq_port_replies hs hf hp hd ?_)
    have hfree : (!nbit (beAt r.params 0 4) 0 && dependsOn (takeMgmt 0x403 r s) (reqPort r)) = false := by
      rcases hforce with h | h <;> simp [h]
    simp only [hst, hfree, ne_eq, not_true_eq_false, if_false, Bool.false_eq_true]
  case readmission =>
    rintro r s t u hs rfl hf hp hd hst hpass hfresh hreset
    refine congrArg Host.Outcome.next (execReq_port_replies hs hf (by simp [hp]) hd ?_)
    simp only [hpass, hfresh, hreset, hst, decide_true, and_self, if_true]

end Sys2Proof.Machine
end

section
/-!
PROOF. Tests of ports, clusters, engines, lanes, banks and the whole device end, and so do the chain's addressing and wake and the
calibration of a measurement slice (03 R77; 04 R113; 07 R197; 09 R287; 11 R307; 13 R379; 14 R398; 15 R436, R438; 18 R485): each
answers the command that was deferred for it, one lemma for each case.
-/
namespace Sys2Proof.Machine

section completion

variable {s t : State} {d : Deferred}

/-- 03 R77: PORT_SOUND answers its record, and a port that passed remembers when. -/
theorem exec_portSoundDone {p : Fin 6} {m : SoundMeas} {r : Nat × Bytes} (hd : findDeferred 0x401 (pf p.val) s = some d)
    (hr : r = soundRecord s p.val m true (portOf s p.val).testAt) :
    exec (.portSoundDone p m) s = .next (finish d stDone r.2 (checkOutcome p.val r.1 r.2 m
      (setPort p.val (fun k => { k with passTb := if r.1 = 0 then some (portRests p.val s).clk.tb else k.passTb })
        (portRests p.val s)))) := by
  change execPortSoundDone p m s = _
  simp only [execPortSoundDone, hd, hr]

/-- 04 R113: BB_TX_TEST answers what it measured and counts its bursts and clipped samples. -/
theorem exec_bbTxTestDone {p : Fin 6} (rms clipped bursts : W16) (hd : findDeferred 0x530 (pf p.val) s = some d) :
    exec (.bbTxTestDone p rms clipped bursts) s = .next (finish d stDone
      (beBytes 2 rms.toNat ++ beBytes 2 clipped.toNat ++ beBytes 2 bursts.toNat ++ [0, 0])
      (testEnds p.val (bumpF (pf p.val) 0x504 31 16 bursts.toNat (bumpF (pf p.val) 0x504 7 0 clipped.toNat s)))) := by
  change execBbTxTestDone p rms clipped bursts s = _
  simp only [execBbTxTestDone, hd]

/-- 07 R197: NB_TX_TEST answers what it measured and counts its bursts. -/
theorem exec_nbTxTestDone {p : Fin 6} (rms bursts : W16) (hd : findDeferred 0x603 (pf p.val) s = some d) :
    exec (.nbTxTestDone p rms bursts) s = .next (finish d stDone
      (beBytes 2 rms.toNat ++ beBytes 2 bursts.toNat ++ beBytes 4 0)
      (testEnds p.val (bumpF (pf p.val) 0x621 31 16 bursts.toNat s))) := by
  change execNbTxTestDone p rms bursts s = _
  simp only [execNbTxTestDone, hd]

/-- 14 R398: CODEC_TEST passes when no codeword failed, else its cluster fails. -/
theorem exec_codecTestDone {c : Fin 20} (codewords mean failed : W16) (hd : findDeferred 0x541 (cf c.val) s = some d) :
    exec (.codecTestDone c codewords mean failed) s = .next (finish d stDone
      (beBytes 1 (if failed = 0 then 0 else 1) ++ [0] ++ beBytes 2 codewords.toNat ++ beBytes 2 mean.toNat
        ++ beBytes 2 failed.toNat)
      (if failed = 0 then unitTested c.val true s else codecFails c.val (unitTested c.val false s))) := by
  change execCodecTestDone c codewords mean failed s = _
  by_cases hf : failed = 0
  · subst hf
    simp only [execCodecTestDone, hd, decide_true, Bool.not_true, b2n, Bool.false_eq_true, if_false, if_true]
  · simp only [execCodecTestDone, hd, hf, decide_false, Bool.not_false, b2n, Bool.false_eq_true, if_false, if_true]

/-- 11 R307: CE_TEST ends on an engine that runs no job. One that was retired stays so; one that fails is retired with the cause of
the case that failed. -/
theorem exec_ceTestDone {e : Fin 16} (k : Fin 8) (hd : findDeferred 0x820 (0x40 + e.val) s = some d)
    (hjob : vAt s.clo.eng e.val = none) {retired : Bool}
    (hret : retired = (decide (d.aux.headD 1 = 4) || engState s e.val == 4))
    (ht : t = setF (0x40 + e.val) 0x808 31 28 (if retired then 4 else 1) s) :
    exec (.ceTestDone e k) s = .next (finish d stDone
      (beBytes 1 (if k.val = 0 then 0 else 1) ++ beBytes 1 k.val ++ [0, 0])
      (if k.val ≠ 0 ∧ !retired then retireEngine e.val (if k.val = 7 then 1 else 2) t else t)) := by
  subst hret ht
  change execCeTestDone e k s = _
  simp only [execCeTestDone, hd, hjob, Option.isSome_none, Bool.false_eq_true, if_false]

/-- BH_LANE_TEST answers for the lane that it was sent to. -/
theorem exec_bhLaneTestDone {lane : Fin 8} (hd : findDeferred 0x930 (bhFunc lane.val) s = some d)
    (hlane : d.aux.headD 8 = lane.val) :
    exec (.bhLaneTestDone lane) s
      = .next (finish d stDone (laneTestReply s lane.val) (setLaneF lane.val 24 24 0 s)) := by
  change execBhLaneTestDone lane s = _
  have hmine : (some d).filter (fun d => d.aux.headD 8 == lane.val) = some d :=
    Option.filter_some_pos (beq_iff_eq.mpr hlane)
  rw [execBhLaneTestDone, hd, hmine]

/-- 18 R485: SVC_SELFTEST answers its ten items once the findings have been acted on. -/
theorem exec_svcSelftestDone {finds : List SelftestFinding} (hd : findDeferred 0xD01 0 s = some d)
    (ht : t = finds.foldl (fun s f => selfActs f s) s) :
    exec (.svcSelftestDone finds) s
      = .next (finish d stDone ([10, 0, 0, 0] ++ (List.range 10).flatMap (selfItem finds t)) t) := by
  subst ht
  change execSvcSelftestDone finds s = _
  rw [execSvcSelftestDone, hd]

/-- 09 R287: TR_BANK_TEST ends in a region under no wipe. A spare that fails is retired, and a bank that does not answer dies. -/
theorem exec_trBankTestDone {r : Fin 4} {result : Fin 3} {line bits : W16} {bad : List (Fin 2048 × Fin 8)}
    (hd : findDeferred 0xF03 (0x7C + r.val) s = some d) (hw : wipeOn s r.val = false)
    (ht : t = finish d stDone (beBytes 1 result.val ++ [0] ++ beBytes 2 line.toNat ++ beBytes 2 bits.toNat ++ [0, 0])
      (wordsLost r.val (d.aux.headD 0) bad s)) :
    exec (.trBankTestDone r result line bits bad) s = .next (if result ≠ 0 ∧ d.aux.headD 0 = 16 then
      bankFailing r.val 16 (decide (result = 1)) t
      else if result = 2 then bankDies r.val (d.aux.headD 0) t else t) := by
  subst ht
  change execTrBankTestDone r result line bits bad s = _
  simp only [execTrBankTestDone, hd, hw, Bool.false_eq_true, if_false]

/-- 15 R436: CHAIN_ASSIGN answers the devices that it found once its run has ended. -/
theorem exec_chainAssignDone {r : AssignRun} (ht : t = chainSettle s) (hrun : t.chain.run = some r) (hend : r.ended = true)
    (hd : findDeferred 0xB01 0x69 (setChain (fun c => { c with run := none }) t) = some d) :
    exec .chainAssignDone s = .next (finish d stDone (beBytes 1 r.recs.length ++ [0, 0, 0]
      ++ r.recs.flatMap (fun e => beBytes 1 e.1 ++ [0] ++ beBytes 8 e.2.toNat))
      (setChain (fun c => { c with run := none }) t)) := by
  subst ht
  change execChainAssignDone s = _
  simp only [execChainAssignDone, hrun, hend, hd, Bool.not_true, Bool.false_eq_true, if_false]

/-- 15 R438: CHAIN_WAKE answers once the wake characters have been sent. -/
theorem exec_chainWakeSent {a : Nat} {u : State} (ht : t = chainSettle s) (hw : t.chain.wake = some (a, true))
    (hu : u = emit (.wakeChars a) (setChain (fun c => { c with wake := none }) t))
    (hd : findDeferred 0xB02 0x69 u = some d) : exec .chainWakeSent s = .next (finish d stDone [] u) := by
  subst ht hu
  change execChainWakeSent s = _
  simp only [execChainWakeSent, hw, hd]

/-- 13 R379: with no spare slice MEAS_SYSCAL answers NO_RESOURCE. -/
theorem exec_measSyscalDone_noSpare (rx : ModRx) (hd : findDeferred 0xA04 0x60 s = some d) (hp : spareSlice s = 15) :
    exec (.measSyscalDone rx) s
      = .next (finish d stNoResource (beBytes 4 noField) (setF 0x60 0xA01 9 9 0 s)) := by
  change execMeasSyscalDone rx s = _
  simp only [execMeasSyscalDone, hd, hp, if_true]

/-- 13 R379: the interval of the spare slice, once its samples reach the end of it, is stored and answered. -/
theorem exec_measSyscalDone {rx : ModRx} {p ch : Nat} {w : W32} {fine : List MeasOut} {r : Interval} {x : State × W16}
    (hd : findDeferred 0xA04 0x60 s = some d) (hp : p = spareSlice s) (h15 : p ≠ 15) (hch : ch = d.aux.getD 0 0)
    (hw : w = sliceCfg s p) (hfine : fine = measFine s p w rx)
    (hr : r = intervalOf (sliceOf s p).start (sliceOf s p).till (fineTicks w) fine (measCoarse s p w rx))
    (hx : x = syscalStore ch (d.aux.getD 1 0) (d.aux.getD 3 0) r s) :
    exec (.measSyscalDone rx) s = .next (if reaches (sliceOf s p).till (fineTicks w) fine = false then s
      else syscalAnswer d x.2 (0xA20 + ch) r x.1) := by
  subst hch hx hr hfine hw hp
  change execMeasSyscalDone rx s = _
  simp only [execMeasSyscalDone, hd, if_neg h15, Bool.not_eq_true']

end completion

/-- Settles O60, command by command. That a MEAS_SYSCAL_DONE before the end of the interval leaves the state is the model's own
choice (logs 3 and 129). -/
theorem testCompletions : Obligations.TestCompletions := by
  unfold Obligations.TestCompletions
  refine ⟨fun _ _ _ _ _ => exec_portSoundDone, fun _ rms clipped bursts _ _ => exec_bbTxTestDone rms clipped bursts,
    fun _ rms bursts _ _ => exec_nbTxTestDone rms bursts,
    fun _ codewords mean failed _ _ => exec_codecTestDone codewords mean failed, ?engine, ?retiredEngine,
    fun _ _ _ => exec_bhLaneTestDone, fun _ _ _ hd => exec_svcSelftestDone hd rfl, fun _ _ _ _ _ _ _ _ => exec_trBankTestDone,
    fun _ _ _ _ => exec_chainAssignDone, fun _ _ _ _ _ => exec_chainWakeSent, fun rx _ _ => exec_measSyscalDone_noSpare rx,
    fun _ _ _ _ _ _ _ _ _ => exec_measSyscalDone⟩
  case engine =>
    intro e s d t hd hjob haux hst ht
    have hret : false = (decide (d.aux.headD 1 = 4) || engState s e.val == 4) := by
      rw [decide_eq_false haux, beq_false_of_ne hst, Bool.or_false]
    refine ⟨exec_ceTestDone 0 hd hjob hret ht, fun k hk => ?failed⟩
    have hk0 : k.val ≠ 0 := Fin.val_ne_zero_iff.mpr hk
    rw [exec_ceTestDone k hd hjob hret ht, if_neg hk0, if_pos ⟨hk0, rfl⟩]
  case retiredEngine =>
    intro k e s d hd hjob hret
    have hret : true = (decide (d.aux.headD 1 = 4) || engState s e.val == 4) := by
      rcases hret with h | h <;> simp only [h, decide_true, beq_self_eq_true, Bool.true_or, Bool.or_true]
    simp only [exec_ceTestDone k hd hjob hret rfl, Bool.not_true, Bool.false_eq_true, and_false, if_false, if_true]

end Sys2Proof.Machine
end

section
/-!
PROOF. Encoding and sending a burst (04 R92; 06 R177; 07 R196): one lemma for each case of a command.
-/
namespace Sys2Proof.Machine

/-- 04 R92: the first broadband burst whose superframe has come leaves the list of its group. -/
theorem exec_bbBurstTransmit {g : Fin 6} (underrun : Option Nat) {s : State} {b : TxBurst}
    (hb : (grpL s g.val).bursts.find? (fun b => !b.nb && decide (b.sf ≤ sfNow s)) = some b) :
    exec (.bbBurstTransmit g underrun) s = .next (takeBurst b
      (fun s => frameSent b.frame (if b.map = 2 then b.slots else []) (sendBb b true underrun s)) s) := by
  change execBbBurstTransmit g underrun s = _
  rw [execBbBurstTransmit, hb]

/-- 07 R196: so does the first narrowband burst of the channel. -/
theorem exec_nbBurstTransmit {g : Fin 6} {ch : Fin 8} {s : State} {b : TxBurst}
    (hb : (grpL s g.val).bursts.find? (fun b => b.nb && b.chan == ch.val && decide (b.sf ≤ sfNow s)) = some b) :
    exec (.nbBurstTransmit g ch) s = .next (takeBurst b (fun s => frameSent b.frame [] (sendNb b true s)) s) := by
  change execNbBurstTransmit g ch s = _
  rw [execNbBurstTransmit, hb]

section downlink

variable {g : Fin 6} {node : BitVec 12} {s t : State} {f : TxFrame} {b : Bytes}

/-- 06 R177: a sealed frame that no longer reads back is dropped, and the window of its node moves on. -/
theorem exec_downlinkEncode_unreadable {nb : Bool} (hf : readyTx s g.val node.toNat nb = some f) (hr : readTx f s = none) :
    exec (.downlinkEncode g node nb) s = .next (moveVa node.toNat (dropTx f s)) := by
  change execDownlinkEncode g node nb s = _
  simp only [execDownlinkEncode, hf, hr]

/-- 06 R177: a broadband frame is encoded for its grant, and waits for another when it has none. -/
theorem exec_downlinkEncode_broadband (hf : readyTx s g.val node.toNat false = some f) (hr : readTx f s = some (b, t)) :
    exec (.downlinkEncode g node false) s
      = .next (f.grant.elim (requeueTx f.id t) fun a => encodeBb g.val f a t) := by
  change execDownlinkEncode g node false s = _
  simp only [execDownlinkEncode, hf, hr, Bool.false_eq_true, if_false]
  cases f.grant with
  | none => rw [Option.elim_none]
  | some a => rw [Option.elim_some]

/-- 06 R177: a narrowband frame is encoded for the downlink opening of its node, and waits for another when there is none. -/
theorem exec_downlinkEncode_narrowband (hf : readyTx s g.val node.toNat true = some f) (hr : readTx f s = some (b, t)) :
    exec (.downlinkEncode g node true) s = .next
      ((t.lk.opens.find? (fun o => o.group == g.val && o.kind == 1 && decide (o.node = node))).elim (requeueTx f.id t)
        fun o => encodeNb g.val f o t) := by
  change execDownlinkEncode g node true s = _
  simp only [execDownlinkEncode, hf, hr, if_true]
  cases t.lk.opens.find? (fun o => o.group == g.val && o.kind == 1 && decide (o.node = node)) with
  | none => rw [Option.elim_none]
  | some o => rw [Option.elim_some]

end downlink

/-- Settles O23, command by command. -/
theorem transmitCommands : Obligations.TransmitCommands := by
  unfold Obligations.TransmitCommands
  refine ⟨fun _ underrun _ _ => exec_bbBurstTransmit underrun, fun _ _ _ _ => exec_nbBurstTransmit,
    fun _ _ _ _ _ => exec_downlinkEncode_unreadable, ?granted, ?ungranted, ?opened, ?unopened⟩
  case granted =>
    intro g node s f b t a hf hr ha
    rw [exec_downlinkEncode_broadband hf hr, ha, Option.elim_some]
  case ungranted =>
    intro g node s f b t hf hr ha
    rw [exec_downlinkEncode_broadband hf hr, ha, Option.elim_none]
  case opened =>
    intro g node s f b t o hf hr ho
    rw [exec_downlinkEncode_narrowband hf hr, ho, Option.elim_some]
  case unopened =>
    intro g node s f b t hf hr ho
    rw [exec_downlinkEncode_narrowband hf hr, ho, Option.elim_none]

end Sys2Proof.Machine
end

section
/-!
PROOF. The requests on masks and shaping, on the broadband receivers and on nodes and destinations (04 R106, R107, R113 to R118;
05 R145, R150, R151; 08 R234 to R267; 14 R413): what a served request answers once its FUNC and its parameters are in order, and
from that each request by the answer of its body.
-/
namespace Sys2Proof.Machine

section request

variable {op n off : Nat} {r : Req} {s t : State} {ok okFunc down : Bool} {bad : Option Nat} {body : State → Ans}

/-- 14 R387: parameters of the length and with the fields that a command takes pass step 9. -/
theorem lenAnd_chk_none (hn : r.params.length = n) (hok : ok = true) : lenAnd r n (chk ok off) = none := by
  rw [lenAnd, if_pos hn, chk, if_pos hok]

/-- 14 R387: so do parameters of the length alone, where no field is checked. -/
theorem lenIs_none (hn : r.params.length = n) : lenIs r n = none :=
  if_pos hn

/-- 14 R387, R398: a served request with FUNC and parameters in order sends the reply of its body. -/
theorem execReq_replies {st : W16} {b : Bytes} (hs : Serves op s) (hf : okFunc = true) (hbad : bad = none)
    (hd : down = false) (hb : body (takeMgmt op r s) = .reply st b t) :
    execReq op r okFunc bad down body s = sendReply op r st b t := by
  rw [hf, hbad, hd, execReq_runs hs, hb]

/-- 14 R387, R398: one to the device, FUNC 0, is in no function that could be held in reset. -/
theorem execReq_device_replies {st : W16} {b : Bytes} (hs : Serves op s) (hf : r.func = 0) (hbad : bad = none)
    (hb : body (takeMgmt op r s) = .reply st b t) :
    execReq op r (r.func == 0) bad false body s = sendReply op r st b t :=
  execReq_replies hs (beq_iff_eq.mpr hf) hbad rfl hb

/-- 14 R387, R398: one whose body defers is answered later. -/
theorem execReq_defers {aux : List Nat} (hs : Serves op s) (hf : okFunc = true) (hbad : bad = none) (hd : down = false)
    (hb : body (takeMgmt op r s) = .defer aux t) : execReq op r okFunc bad down body s = deferStart op r aux t := by
  rw [hf, hbad, hd, execReq_runs hs, hb]

/-- A request that names a node, 0 to 4094, in its first word sends the reply of its body. -/
theorem execReq_node_replies {st : W16} {b : Bytes} (hs : Serves op s) (hf : r.func = 0) (hlen : r.params.length = 4)
    (hn : reqNode r ≤ 4094) (hb : body (takeMgmt op r s) = .reply st b t) :
    execReq op r (r.func == 0) (lenAnd r 4 (chk (decide (reqNode r ≤ 4094)) 0)) false body s = sendReply op r st b t :=
  execReq_device_replies hs hf (lenAnd_chk_none hlen (decide_eq_true hn)) hb

end request

/-- Settles O50, request by request: what remains of each is the answer of its body. That a SHAPE_SWAP which comes while a fade
waits cancels the wait and counts no reversal is the model's own choice (log 136). -/
theorem maskAndShapeRequests : Obligations.MaskAndShapeRequests := by
  unfold Obligations.MaskAndShapeRequests
  refine ⟨?maskWrite, ?maskRead, ?writeA, ?writeB, ?preset, ?swap, ?swapBack, ?swapWaiting, ?shapeRead⟩
  case maskWrite =>
    rintro r s t hs rfl hf hn
    exact congrArg Host.Outcome.next (execReq_device_replies hs hf (lenIs_none hn) rfl)
  case maskRead =>
    rintro r s t hs rfl hf hp
    exact congrArg Host.Outcome.next (execReq_device_replies hs hf (lenIs_none (by simp [hp])) rfl)
  case writeA =>
    rintro r s t p h hs rfl hf hn rfl hd rfl hbank hok
    refine congrArg Host.Outcome.next (execReq_replies hs hf (lenAnd_chk_none hn (by simp [hbank])) hd ?_)
    simp only [hbank, hok, Nat.zero_ne_one, if_false]
  case writeB =>
    rintro r s t p h hs rfl hf hn rfl hd rfl hbank hok
    refine congrArg Host.Outcome.next (execReq_replies hs hf (lenAnd_chk_none hn (by simp [hbank])) hd ?_)
    simp only [hbank, hok, if_true]
  case preset =>
    rintro r s t b hs rfl hf hn hd rfl hbank hpreset hok
    have hfields : firstBad (chk (decide (byteAt r.params 0 ≤ 1)) 0) (chk (decide (byteAt r.params 1 ≤ 3)) 1) = none := by
      simp [firstBad, chk, hbank, hpreset]
    refine congrArg Host.Outcome.next (execReq_replies hs hf ((if_pos hn).trans hfields) hd ?_)
    simp only [hok]
  case swap =>
    rintro r s t p hs rfl hf hp rfl hd hrec hfade hwait
    refine congrArg Host.Outcome.next (execReq_replies hs hf (lenIs_none (by simp [hp])) hd ?_)
    simp only [hrec, hfade, hwait, if_false, Bool.false_eq_true]
  case swapBack =>
    rintro r s t p u q hs rfl hf hp rfl hd hrec hfade rfl
    refine congrArg Host.Outcome.next (execReq_replies hs hf (lenIs_none (by simp [hp])) hd ?_)
    simp only [hrec, hfade, if_false]
    -- setPort hands the update the same fadeLen that the statement reads from the port
    rfl
  case swapWaiting =>
    rintro r s t p hs rfl hf hp rfl hd hrec hfade hwait
    refine congrArg Host.Outcome.next (execReq_replies hs hf (lenIs_none (by simp [hp])) hd ?_)
    simp only [hrec, hfade, hwait, if_false, if_true]
  case shapeRead =>
    rintro r s t b id h hs rfl hf hn hd rfl hbank rfl rfl
    exact congrArg Host.Outcome.next (execReq_replies hs hf (lenAnd_chk_none hn (by simp [hbank])) hd rfl)

/-- Settles O51, request by request. -/
theorem broadbandRequests : Obligations.BroadbandRequests := by
  unfold Obligations.BroadbandRequests
  refine ⟨?test, ?last, ?arm, ?capture, ?noise⟩
  case test =>
    rintro r s t v hs rfl hf hn hd rfl hsec hsec' hgap hgap' hkind htest hrule
    refine congrArg Host.Outcome.next (execReq_defers hs hf
      (lenAnd_chk_none hn (decide_eq_true ⟨hsec, hsec', hgap, hgap', hkind⟩)) hd ?_)
    rw [htest, if_neg Bool.false_ne_true, deferIf_defers hrule]
  case last =>
    rintro r s t b hs rfl hf hn hg hb
    refine congrArg Host.Outcome.next (execReq_device_replies hs hf (lenAnd_chk_none hn (decide_eq_true hg)) ?_)
    simp only [hb]
  case arm =>
    rintro r s t hs rfl hf hn h1 h2 hst
    refine congrArg Host.Outcome.next (execReq_device_replies hs hf (lenAnd_chk_none hn (decide_eq_true ⟨h1, h2⟩)) ?_)
    rw [if_neg hst]
  case capture =>
    rintro r s t v n idx t0 views hs rfl hf hn rfl hv hcap
    refine congrArg Host.Outcome.next (execReq_device_replies hs hf (lenAnd_chk_none hn (decide_eq_true hv)) ?_)
    simp only [hcap]
  case noise =>
    rintro r s t hs rfl hf hp hd
    exact congrArg Host.Outcome.next (execReq_replies hs hf (lenIs_none (by simp [hp])) hd rfl)

/-- Settles O53, request by request. That DEST_SET for node 0 keeps KIND and INDEX with FOLLOW set is the model's own choice
(14 R413 is silent there). -/
theorem nodeRequests : Obligations.NodeRequests := by
  unfold Obligations.NodeRequests
  refine ⟨?read, ?find, ?evict, ?tonemap, ?route, ?sched, ?refresh, ?follow, ?dest, ?destRead⟩
  case read =>
    rintro r s t hs rfl hf hlen hn he
    refine congrArg Host.Outcome.next (execReq_node_replies hs hf hlen hn ?_)
    rw [if_pos he]
  case find =>
    rintro r s t n hs rfl hf hlen hn
    refine congrArg Host.Outcome.next (execReq_device_replies hs hf (lenIs_none hlen) ?_)
    simp only [hn]
  case evict =>
    rintro r s t n hs rfl hf hlen rfl hn h0 hst
    refine congrArg Host.Outcome.next (execReq_node_replies hs hf hlen hn ?_)
    rw [if_neg (not_or.mpr ⟨h0, hst⟩)]
  case tonemap =>
    rintro r s t n v c hs rfl hf hlen rfl hn rfl hc
    refine congrArg Host.Outcome.next (execReq_node_replies hs hf hlen hn ?_)
    simp only [hc]
  case route =>
    rintro r s t n hs rfl hf hlen rfl hn he
    refine congrArg Host.Outcome.next (execReq_node_replies hs hf hlen hn ?_)
    rw [he, Bool.not_true, if_neg Bool.false_ne_true]
  case sched =>
    rintro r s t b hs rfl hf hlen hg hb
    refine congrArg Host.Outcome.next (execReq_device_replies hs hf (lenAnd_chk_none hlen (decide_eq_true hg)) ?_)
    simp only [hb]
  case refresh =>
    rintro r s t n hs rfl hf hlen rfl hn h0 hst
    refine congrArg Host.Outcome.next (execReq_node_replies hs hf hlen hn ?_)
    rw [if_neg (not_or.mpr ⟨h0, hst⟩)]
  case follow =>
    rintro r s t n v hs rfl hf hlen rfl hn rfl hfollow h0 hst
    refine congrArg Host.Outcome.next (execReq_device_replies hs hf (lenAnd_chk_none hlen (by simp [hn, hfollow])) ?_)
    rw [if_neg (fun h => hst h.2), if_pos ⟨hfollow, h0⟩]
  case dest =>
    rintro r s t n v kind idx hs rfl hf hlen rfl hn rfl rfl rfl hset hfield hst hlink
    have hfields : (nbit (beAt r.params 0 4) 11 || nfield (beAt r.params 0 4) 19 18 != 2
        || decide (nfield (beAt r.params 0 4) 15 12 ≤ 3)) = true := by
      simpa [or_assoc] using hfield
    have hnode : ¬ (reqNode r ≠ 0 ∧ nState (takeMgmt 0x720 r s) (reqNode r) = 0) := fun ⟨h0, h⟩ => hst.elim h0 (· h)
    have hkept : ¬ (nbit (beAt r.params 0 4) 11 = true ∧ reqNode r ≠ 0) := fun ⟨h11, h0⟩ => by simp [h11, h0] at hset
    refine congrArg Host.Outcome.next (execReq_device_replies hs hf
      (lenAnd_chk_none hlen (by rw [hfields, decide_eq_true hn, Bool.and_true])) ?_)
    rw [if_neg hnode, if_neg hkept, if_neg fun h => hlink.elim (· h.1) (· h.2)]
  case destRead =>
    rintro r s t n d hs rfl hf hlen rfl hn rfl
    exact congrArg Host.Outcome.next (execReq_node_replies hs hf hlen hn rfl)

end Sys2Proof.Machine
end

section
/-!
PROOF. The broadband receiver (05 R122 to R129, R132, R143 to R147): from the preamble of a burst to the end of its training, and
from its frame control to its last payload symbol; one lemma for each case of a command that looks for an S9.
-/
namespace Sys2Proof.Machine

section acquisition

variable {g : Fin 6} {rx : Rx} {s : State} {t0 : Nat} {power coarse : Rat}

/-- 05 R123: an attempt goes on while no S9 is found. -/
theorem exec_bbS9Found_none (hf : foundAt s g.val rx = none) : exec (.bbS9Found g rx) s = .next s := by
  change execBbS9Found g rx s = _
  simp only [execBbS9Found, hf, ite_self]

/-- 05 R123, R124, R132: an S9 in time leads to TRAIN if it lies in the gate and near in frequency, and ends the attempt if not. -/
theorem exec_bbS9Found_some (hph : (rxOf s g.val).ph = .sync) (hin : rxTb s ≤ (rxOf s g.val).det + 6144)
    (hf : foundAt s g.val rx = some (t0, power, coarse)) :
    exec (.bbS9Found g rx) s = .next (
      if gateOk s t0 = false then attemptEnds g.val (grpAbort g.val 23 16 1 s)
      else if farOff coarse = true then attemptEnds g.val (grpAbort g.val 31 24 1 s)
      else enterTrain g.val t0 coarse power false s) := by
  have hrun : ¬ ((rxOf s g.val).ph ≠ .sync ∨ (rxOf s g.val).det + 6144 < rxTb s) := by simp [hph, hin]
  change execBbS9Found g rx s = _
  simp only [execBbS9Found, if_neg hrun, hf, Bool.not_eq_true']

/-- 05 R127: a frame goes on while the secondary detector declares nothing. -/
theorem exec_bbCapture_undetected (hdet : (List.range 3073).any (detects s (rxPorts s g.val) rx) = false) :
    exec (.bbCapture g rx) s = .next s :=
  congrArg Host.Outcome.next (if_pos (by simp only [hdet, Bool.not_false, Bool.or_true]))

/-- 05 R127: so it does while its detection finds no S9. -/
theorem exec_bbCapture_none (hf : foundAt s g.val rx = none) : exec (.bbCapture g rx) s = .next s := by
  change execBbCapture g rx s = _
  simp only [execBbCapture, hf, ite_self]

/-- 05 R127, R132: the burst of an S9 in the gate and near in frequency captures the receiver if its power is higher than that of
the frame by the margin. -/
theorem exec_bbCapture_some (hph : (rxOf s g.val).ph = .train ∨ (rxOf s g.val).ph = .fc ∨ (rxOf s g.val).ph = .payload)
    (hon : objF s 0 0x520 17 17 = 1) (hdet : (List.range 3073).any (detects s (rxPorts s g.val) rx) = true)
    (hf : foundAt s g.val rx = some (t0, power, coarse)) :
    exec (.bbCapture g rx) s = .next (
      if gateOk s t0 = false then s
      else if farOff coarse = true then grpAbort g.val 31 24 1 s
      else if framePower (rxOf s g.val) * ofDb (capMargin s) ≤ power then
        enterTrain g.val t0 coarse power true (grpAbort g.val 7 4 1 (abandonUsers g.val s))
      else s) := by
  change execBbCapture g rx s = _
  simp only [execBbCapture, hph, hon, hdet, hf, Bool.not_eq_true', decide_true, Bool.not_true, Bool.false_or, Nat.reduceBEq,
    Bool.false_eq_true, if_false]

end acquisition

/-- A receiver in the phase of a command runs it once the samples that it needs have been taken. -/
theorem receiver_runs {s : State} {x : GrpRx} {ph : RxPh} {n : Nat} (hph : x.ph = ph) (hheard : heard s x.t0 n = true) :
    ¬ (x.ph ≠ ph ∨ heard s x.t0 n = false) := by
  simp [hph, hheard]

/-- Settles O24, command by command. That a restart drops the pending detection and that a burst far off in frequency counts
FALSE_SYNC while the reception goes on are the model's own choices (logs 124, 125), and so are the powers compared (logs 123,
159). -/
theorem broadbandAcquisitionCommands : Obligations.BroadbandAcquisitionCommands := by
  unfold Obligations.BroadbandAcquisitionCommands
  refine ⟨?preamble, ?secondary, ?s9, ?timeout, ?capture, ?training⟩
  case preamble =>
    intro g rx s hexpect hph
    change execBbPreambleDetect g rx s = _
    simp only [execBbPreambleDetect, hexpect, hph, decide_true, Bool.true_and]
  case secondary =>
    rintro g rx s power hph rfl
    change execBbSecondaryDetect g rx s = _
    simp only [execBbSecondaryDetect, hph, ne_eq, not_true_eq_false, false_or]
  case s9 =>
    intro g rx s hph hin
    cases hf : foundAt s g.val rx with
    | none => exact exec_bbS9Found_none hf
    | some e => exact exec_bbS9Found_some hph hin hf
  case timeout => exact fun g s hph hout => congrArg Host.Outcome.next (if_pos ⟨hph, hout⟩)
  case capture =>
    intro g rx s hph hon
    cases hdet : (List.range 3073).any (detects s (rxPorts s g.val) rx) with
    | false => exact exec_bbCapture_undetected hdet
    | true =>
      cases hf : foundAt s g.val rx with
      | none => exact exec_bbCapture_none hf
      | some e => exact exec_bbCapture_some hph hon hdet hf
  case training =>
    rintro g rx s x low off con w1 w2 t us rfl hph hheard rfl rfl rfl rfl rfl rfl rfl
    exact congrArg Host.Outcome.next (if_neg (receiver_runs hph hheard))

/-- 05 R143, R144, 09 R272: a payload symbol is lost with no active cluster, or once the ring no longer holds the samples of one of
its ports; one that is not takes the windows of its ports in turn. -/
theorem symbolPorts_overwritten (s : State) (rx : Rx) (ports : List Nat) (a : Nat)
    (win : Nat → State × List Nat × Bool → State × List Nat × Bool) :
    symbolPorts (overwritten s rx ports a) ports win s =
      if activeL s = 0 ∨ 12480 < rxTb s - a ∧ ports.any (fun p => decide ((rxOfPort rx p).length ≤ (rxTb s - a) / 2)) = true
      then (bumpF 0 0xF00 15 8 1 s, [], false) else ports.foldl (fun b p => win p b) (s, [], false) := by
  simp only [symbolPorts, overwritten, Bool.or_eq_true, Bool.and_eq_true, decide_eq_true_eq]

/-- Settles O25, command by command. When a payload symbol counts as overwritten (log 148) and what the windows of its ports do to
the impulse map (log 160) are the model's own choices. -/
theorem broadbandPayloadCommands : Obligations.BroadbandPayloadCommands := by
  unfold Obligations.BroadbandPayloadCommands
  refine ⟨?frameControl, ?payload, ?reestimate, ?noise⟩
  case frameControl =>
    rintro g u rx s y ui all w v rest spec word d r hu hph hheard rfl rfl rfl rfl rfl rfl rfl rfl rfl
    change execBbFrameControl g u rx s = _
    simp only [execBbFrameControl, hu, if_neg (receiver_runs hph hheard), Bool.not_eq_true']
  case payload =>
    rintro g rx s x u i o a off svc r obs v t rfl hph rfl rfl rfl hheard rfl rfl rfl hr rfl rfl rfl
    obtain rfl := hr.trans (symbolPorts_overwritten ..).symm
    exact congrArg Host.Outcome.next (if_neg (receiver_runs hph hheard))
  case reestimate =>
    intro g u s f hf hpassed
    change execBbStepReestimate g u s = _
    simp only [execBbStepReestimate, hf, hpassed, if_true]
  case noise =>
    intro p rx s a eq t ha hd htx heq ht
    change execNoiseMapBlock p rx s = _
    -- backwards: substituting the TB of the block exceeds the recursion limit
    simp only [execNoiseMapBlock, ← ha, ← heq, ← ht, hd, htx, Bool.or_self, Bool.false_eq_true, if_false]

end Sys2Proof.Machine
end

section
/-!
PROOF. The decoder (06 R173 to R181): what a command does that finds the codeword, the frame or the wait that it is about, and what
an iteration leaves of its codeword and of the L-unit. The requests on the decoder and the narrowband receivers (06 R176; 07 R197,
R214, R224; 14 R398) follow from the answer of their body.
-/
namespace Sys2Proof.Machine

section iteration

variable {frame cw c : Nat} {s t : State} {f : RxFrame} {v w : DecCw} {x : List Int × List (List Int)}

/-- 06 R177: a codeword whose L-unit has taken precedence work waits. -/
theorem exec_codewordIteration_held (hf : decFrame s frame = some f) (hv : v = f.cws.getD cw (newCw 0))
    (hph : v.ph = .running c ∨ v.ph = .reprieved c) (hprec : (f.nb.isNone && nbOn s c) = true) :
    exec (.codewordIteration frame cw) s = .next s := by
  subst hv
  change execCodewordIteration frame cw s = _
  rcases hph with hph | hph <;> simp only [execCodewordIteration, hf, hph, hprec, true_or, or_true, if_true]

/-- 06 R173, R176: an iteration after which the parity checks hold ends the codeword and frees its L-unit. -/
theorem exec_codewordIteration_converges (hf : decFrame s frame = some f) (hcw : cw < f.cws.length)
    (hv : v = f.cws.getD cw (newCw 0)) (hph : v.ph = .running c ∨ v.ph = .reprieved c)
    (hfree : (f.nb.isNone && nbOn s c) = false) (hx : x = minSumIter f.rate (zOf f) (frozenOf f cw) v.post v.msg)
    (hok : parityOk f.rate (zOf f) (hardBits x.1).toArray = true)
    (hw : w = { v with
      post := x.1, msg := x.2, iters := v.iters + 1, left := v.left - 1, passed := true, ph := .converged, ckpt := false })
    (ht : t = restUnit c (if f.nb.isSome then addPrec 100 s else s)) :
    exec (.codewordIteration frame cw) s
      = .next (leaveDue (maybeEnd (setCw f cw w) (if v.rep then bumpF 0 0x542 15 0 1 t else t))) := by
  subst hw ht hx hv
  change execCodewordIteration frame cw s = _
  rcases hph with hph | hph <;>
    simp only [execCodewordIteration, hf, hph, hfree, hok, Nat.not_le.mpr hcw, Bool.not_true, Bool.false_eq_true, or_self,
      true_or, if_false, if_true]

/-- 06 R175, R179, R180: one after which they do not hold leaves what `cwAfter` says, and the L-unit is free after the last that was
granted. -/
theorem exec_codewordIteration_continues {u : State} (hf : decFrame s frame = some f) (hcw : cw < f.cws.length)
    (hv : v = f.cws.getD cw (newCw 0)) (hph : v.ph = .running c ∨ v.ph = .reprieved c)
    (hfree : (f.nb.isNone && nbOn s c) = false) (hx : x = minSumIter f.rate (zOf f) (frozenOf f cw) v.post v.msg)
    (hfail : parityOk f.rate (zOf f) (hardBits x.1).toArray = false)
    (hw : w = { v with post := x.1, msg := x.2, iters := v.iters + 1, left := v.left - 1, passed := true })
    (ht : t = if f.nb.isSome then addPrec 100 s else s) (hu : u = if v.left ≤ 1 then restUnit c t else t) :
    exec (.codewordIteration frame cw) s = .next (leaveDue
      (maybeEnd { setCw f cw (cwAfter u f w) with anyCap := f.anyCap || decide ((cwAfter u f w).ph = .reprieve) }
        (if (cwAfter u f w).ph = .reprieve then bumpF 0 0x542 31 16 1 u else u))) := by
  subst hw hu ht hx hv
  change execCodewordIteration frame cw s = _
  rcases hph with hph | hph <;>
    simp only [execCodewordIteration, hf, hph, hfree, hfail, Nat.not_le.mpr hcw, Bool.not_true, Bool.false_eq_true, or_self,
      false_or, if_false, decide_eq_true_eq, Nat.sub_eq_zero_iff_le]

end iteration

section waiting

variable {s : State} {id c : Nat} {u : W64}

/-- 06 R181: outside lag mode, a longest wait beyond the limit enters it and raises DECODE_LAG. -/
theorem exec_decodeLag (hold : oldestWait (waitingCws s) = some (id, c, u)) (hmode : lagMode s = false)
    (hlate : u.toNat + lagTicks s < now s) : exec .decodeLag s = .next
      (raise 76 0 .decodeLag (beBytes 2 (min 0xFFFF (waitingCws s).length)) (setF 0 0x541 25 25 1 s)) := by
  change execDecodeLag s = _
  simp only [execDecodeLag, hold, hmode, hlate, Bool.not_false, decide_true, Bool.and_self, if_true]

/-- 06 R181: lag mode ends when no codeword waits. -/
theorem exec_lagModeExit_empty (hmode : lagMode s = true) (hnone : oldestWait (waitingCws s) = none) :
    exec .lagModeExit s = .next (setF 0 0x541 25 25 0 s) := by
  change execLagModeExit s = _
  simp only [execLagModeExit, hmode, hnone, Bool.and_self, if_true]

/-- 06 R181: so it does when the longest wait is below half the limit. -/
theorem exec_lagModeExit_short (hmode : lagMode s = true) (hold : oldestWait (waitingCws s) = some (id, c, u))
    (hshort : 2 * (now s - u.toNat) < lagTicks s) : exec .lagModeExit s = .next (setF 0 0x541 25 25 0 s) := by
  change execLagModeExit s = _
  simp only [execLagModeExit, hmode, hold, hshort, decide_true, Bool.and_self, if_true]

end waiting

/-- Settles O26, command by command. That a codeword of a later round waits from the start of that round on (log 156), and how
O_eff follows from the budget of a frame's first codeword (log 154), are the model's own choices. -/
theorem decoderCommands : Obligations.DecoderCommands := by
  unfold Obligations.DecoderCommands
  refine ⟨?start, ?round, fun _ _ _ _ _ _ _ _ _ => exec_codewordIteration_converges,
    fun _ _ _ _ _ _ => exec_codewordIteration_held, fun _ _ _ _ _ _ _ _ _ _ => exec_codewordIteration_continues, ?reprieve,
    ?timeout, fun _ _ _ _ => exec_decodeLag, fun _ => exec_lagModeExit_empty, fun _ _ _ _ => exec_lagModeExit_short⟩
  case start =>
    rintro frame cw cluster s f w hf rfl hnext husable hplace hfree
    change execCodewordDecodeStart frame cw cluster s = _
    simp only [execCodewordDecodeStart, hf, hnext, husable, hplace, hfree, decide_true, Bool.and_self, if_true]
  case round =>
    intro frame s f hf hrounds hend hbarrier
    have hon : roundsOn f = true := by rw [roundsOn, decide_eq_true hrounds, hend, Bool.and_self]
    change execOuterRoundStart frame s = _
    simp only [execOuterRoundStart, hf, hon, hbarrier, Bool.and_self, if_true]
  case reprieve =>
    intro cluster s id c u f hmode hnone husable hidle hold hf
    change execReprieveStart cluster s = _
    simp only [execReprieveStart, hmode, hnone, husable, hidle, hold, hf, ne_eq, not_true_eq_false, decide_false,
      Bool.not_true, Bool.or_self, Bool.false_eq_true, if_false]
  case timeout =>
    intro s id c u f hold hf
    change execReprieveTimeout s = _
    simp only [execReprieveTimeout, hold, hf]

/-- Settles O52, request by request: what remains of each is the answer of its body. -/
theorem decoderAndNarrowbandRequests : Obligations.DecoderAndNarrowbandRequests := by
  unfold Obligations.DecoderAndNarrowbandRequests
  refine ⟨?decLast, ?codecTest, ?nbLast, ?nbLevel, ?nbTest⟩
  case decLast =>
    rintro r s t b hs rfl hf hn hg hb
    refine congrArg Host.Outcome.next (execReq_device_replies hs hf (lenAnd_chk_none hn (decide_eq_true hg)) ?_)
    simp only [hb]
  case codecTest =>
    rintro r s t hs rfl hlo hhi hp hheld hreset hon hst hrule
    refine congrArg Host.Outcome.next (execReq_defers hs (decide_eq_true ⟨hlo, hhi⟩) (lenIs_none (by simp [hp]))
      (by rw [hheld, hreset, Bool.or_self, Bool.false_and]) ?_)
    rw [hon, if_neg Bool.false_ne_true, if_neg hst, deferIf_defers hrule, id]
  case nbLast =>
    rintro r s t b hs rfl hf hn hg hk hb
    have hfields : firstBad (chk (decide (byteAt r.params 0 ≤ 5)) 0) (chk (decide (byteAt r.params 1 ≤ 7)) 1) = none := by
      simp only [firstBad, chk, hg, hk, decide_true, if_true]
    refine congrArg Host.Outcome.next (execReq_device_replies hs hf ((if_pos hn).trans hfields) ?_)
    simp only [hb]
  case nbLevel =>
    rintro r s t hs rfl hf hp hd
    exact congrArg Host.Outcome.next (execReq_replies hs hf (lenIs_none (by simp [hp])) hd rfl)
  case nbTest =>
    rintro r s t v hs rfl hf hn hd rfl hsec hsec' htest hcfg hrule
    refine congrArg Host.Outcome.next (execReq_defers hs hf (lenAnd_chk_none hn (decide_eq_true ⟨hsec, hsec'⟩)) hd ?_)
    exact (if_neg (by simp [htest, hcfg])).trans (deferIf_defers hrule ..)

end Sys2Proof.Machine
end

section
/-!
PROOF. The requests that write objects, under every name that the table gives them (14 R405, R406; 02 R519; 07 R192, R199; 12
R351; 13 R368, R370; 15 R426; 18 R481): what a list of entries answers once the request is served, and that the rows named after
objects share it.
-/
namespace Sys2Proof.Machine

section parameterWrite

variable {r : Req} {s t : State}

/-- 14 R406: a PARAM_WRITE whose entries are all accepted answers DONE from the state that they leave. -/
theorem writeParams_write_done (hs : Serves 0x102 s) (hfunc : funcDefined r.func.toNat = true) (hlen : listLen r 8 256 = none)
    (hok : writeEntries r 8 0 (chunks 8 r.params) (takeMgmt 0x102 r s) = .ok t) :
    writeParams false r s = sendReply 0x102 r stDone [] t := by
  simp only [writeParams, Bool.false_eq_true, if_false, hfunc, hlen, execReq_runs hs, hok]

/-- 14 R406: one with a refused entry answers its status and offset, and no entry is written. -/
theorem writeParams_write_refused {d : Nat} {st : W16} (hs : Serves 0x102 s) (hfunc : funcDefined r.func.toNat = true)
    (hlen : listLen r 8 256 = none)
    (hbad : writeEntries r 8 0 (chunks 8 r.params) (takeMgmt 0x102 r s) = .error (d, st)) :
    writeParams false r s = sendReply 0x102 r st (beBytes 4 d) (takeMgmt 0x102 r s) := by
  simp only [writeParams, Bool.false_eq_true, if_false, hfunc, hlen, execReq_runs hs, hbad, refuse]

/-- 14 R406: a PARAM_MODIFY has entries of 12 bytes, at most 170, and answers like a PARAM_WRITE. -/
theorem writeParams_modify_done (hs : Serves 0x103 s) (hfunc : funcDefined r.func.toNat = true)
    (hlen : listLen r 12 170 = none) (hok : writeEntries r 12 0 (chunks 12 r.params) (takeMgmt 0x103 r s) = .ok t) :
    writeParams true r s = sendReply 0x103 r stDone [] t := by
  simp only [writeParams, if_true, hfunc, hlen, execReq_runs hs, hok]

/-- The nine rows named after objects run the whole write that names one of them (log 61). -/
theorem exec_writeNamed {modify : Bool} (hm : isModify r s = modify) (hw : writeParams modify r s = t) :
    ∀ c ∈ [Instr.mainsCtrlWrite r, .nbChWrite r, .nbSyncWrite r, .measChWrite r, .measSeqWrite r, .graftCfgWrite r,
      .conCfgWrite r, .evtCfgWrite r, .meterCtrlWrite r], exec c s = .next t := by
  have h : Host.Outcome.next (φ := Fault) (ρ := Refusal) (writeNamed r s) = .next t := by rw [writeNamed, hm, hw]
  simpa only [List.forall_mem_cons, List.not_mem_nil, false_imp_iff, implies_true, and_true] using
    ⟨h, h, h, h, h, h, h, h, h⟩

end parameterWrite

/-- Settles O46, request by request. That the nine rows named after objects run the whole list is the model's own reading
(log 61), and the values that W1C_OBJECT_WRITE changes are a store of the model's own, since no object has the class (log 62). -/
theorem objectWrites : Obligations.ObjectWrites := by
  unfold Obligations.ObjectWrites
  refine ⟨?write, ?refused, ?modify, ?namedWrite, ?namedModify, ?writeOneToClear⟩
  case write =>
    rintro r s t u hs rfl hfunc hlen hok
    exact congrArg Host.Outcome.next (writeParams_write_done hs hfunc hlen hok)
  case refused =>
    rintro r s t d st hs rfl hfunc hlen hbad
    exact congrArg Host.Outcome.next (writeParams_write_refused hs hfunc hlen hbad)
  case modify =>
    rintro r s t u hs rfl hfunc hlen hok
    exact congrArg Host.Outcome.next (writeParams_modify_done hs hfunc hlen hok)
  case namedWrite =>
    rintro r s t u hs hm rfl hfunc hlen hok
    exact exec_writeNamed hm (writeParams_write_done hs hfunc hlen hok)
  case namedModify =>
    rintro r s t u hs hm rfl hfunc hlen hok
    exact exec_writeNamed hm (writeParams_modify_done hs hfunc hlen hok)
  case writeOneToClear =>
    rintro func id v setNow s old rfl
    rfl

end Sys2Proof.Machine
end

section
/-!
PROOF. The receiver of a narrowband channel (07 R211, R213 to R215, R217 to R221), from a detection to the end of its frame, and its
configuration, settling and floor.
-/
namespace Sys2Proof.Machine

/-- 07 R218, R219: an armed searcher that is in time decides on the newest window; a sync word there abandons the frame and captures
the channel. -/
theorem exec_nbCapture_armed {g : Fin 6} {ch : Fin 8} {rx : Rx} {s t : State} {x : NbRx} (hx : x = nbOf s (nbI g.val ch.val))
    (harm : x.armed = true) (hph : x.ph = .header ∨ x.ph = .payload) (hon : objF s 0 0x612 10 10 ≠ 0)
    (hin : winOver s x = false) (ht : t = match x.frame with | some id => abandonFrame id s | none => s) :
    exec (.nbCapture g ch rx) s = .next
      (match nbFind s (nbRxPorts s g.val ch.val) (nbMonPorts s g.val ch.val x.cfg) ch.val x.cfg x.det rx with
        | some f => enterHeader g.val ch.val (portsOf t g.val) (nbRxPorts s g.val ch.val) f true (nbCount ch.val 7 4 1 t)
        | none => s) := by
  subst ht
  have hreceives : ¬ (x.ph ≠ .header ∧ x.ph ≠ .payload) := fun ⟨hh, hp⟩ => hph.elim hh hp
  change execNbCapture g ch rx s = _
  simp only [execNbCapture, ← hx, harm, decide_eq_false hreceives, beq_false_of_ne hon, hin, Bool.not_true, Bool.or_self,
    Bool.false_eq_true, if_false]
  cases nbFind s (nbRxPorts s g.val ch.val) (nbMonPorts s g.val ch.val x.cfg) ch.val x.cfg x.det rx <;> rfl

/-- Settles O28, command by command. That a symbol with no port left moves no run of lost carrier is the model's own choice
(log 126). -/
theorem narrowbandReceiveCommands : Obligations.NarrowbandReceiveCommands := by
  unfold Obligations.NarrowbandReceiveCommands
  refine ⟨?preamble, ?restart, ?syncMatch, ?syncTimeout, ?header, ?symbol, ?arm,
    fun _ _ _ _ _ _ => exec_nbCapture_armed, ?lost, ?takes, ?settled, ?floor⟩
  case preamble =>
    rintro g ch rx s x ports hits rfl hen hph rfl rfl
    change execNbPreambleDetect g ch rx s = _
    simp only [execNbPreambleDetect, hen, hph, Bool.not_true, Bool.false_or, if_true]
  case restart =>
    rintro g ch rx s x ports hits rfl hen hph rfl rfl
    change execNbPreambleDetect g ch rx s = _
    simp only [execNbPreambleDetect, hen, hph, Bool.not_true, Bool.false_or, reduceCtorEq, if_false, true_and]
  case syncMatch =>
    rintro g ch rx s x rfl hph hin
    exact congrArg Host.Outcome.next (if_neg (by simp [hph, hin]))
  case syncTimeout => exact fun g ch s hph hout => congrArg Host.Outcome.next (if_pos ⟨hph, hout⟩)
  case header =>
    rintro g ch s x w h fit nsym fin t f u rfl hph hdone rfl rfl rfl rfl rfl rfl rfl rfl
    change execNbHeaderDecode g ch s = _
    simp only [execNbHeaderDecode, hph, hdone, ne_eq, not_true_eq_false, or_self, if_false, Bool.not_eq_true',
      decide_eq_true_eq]
  case symbol =>
    rintro g ch rx s x k w fines gains keep z around t hx rfl hph hw hin hfines hgains hkeep hz haround ht
    have hdue : (decide (w.2 + nbDelay x.cfg ≤ rxTb s)
        && (decide (x.ph = .payload) || (decide (x.ph = .header) && decide (x.done < 240)))) = true := by simp [hin, hph]
    change execNbSymbol g ch rx s = _
    -- backwards: each value stands several times in the next, so substituting them all costs too much
    simp only [execNbSymbol, ← hx, ← hw, hdue, ← hfines, ← hgains, ← hkeep, ← hz, ← haround, ← ht, Bool.not_true,
      Bool.false_eq_true, if_false, ite_apply, id]
  case arm =>
    rintro g ch s x rfl hph harm hab
    exact congrArg Host.Outcome.next (if_pos ⟨hph, by simp [harm], hab⟩)
  case lost =>
    rintro g ch s x rfl hph hloss
    exact congrArg Host.Outcome.next (if_pos ⟨hph, hloss⟩)
  case takes => exact fun g ch s hcfg hph => congrArg Host.Outcome.next (if_pos ⟨hcfg, hph⟩)
  case settled =>
    rintro g ch s x rfl hph hen hall
    exact congrArg Host.Outcome.next (if_pos ⟨hph, hen, hall⟩)
  case floor =>
    rintro p ch rx s g k x l rfl rfl rfl hl hp hph hen htx
    change execNbChannelFloorUpdate p ch rx s = _
    simp only [execNbChannelFloorUpdate, ← hl, hp, hph, hen, htx, decide_true, Bool.true_and, Bool.not_false,
      Bool.and_true]
    cases l.isEmpty <;> rfl

end Sys2Proof.Machine
end

section
/-!
PROOF. The way of an uplink frame (08 R246, R250, R251, R522; 11 R318, R323, R324, R326): a sealed frame whose turn it is at the
Cloche, the opened frame that the link engine takes, and the trial of a join request.
-/
namespace Sys2Proof.Machine

section opening

variable {s gone : State} {d : Delivered} {rest : List Delivered} {p : LinkParts}

/-- 11 R323: a sealed frame too short for its header, trailer and MIC is discarded as a failure of the tag (log 47). -/
theorem exec_linkFrameOpen_short (hs : s.lk.sealed = d :: rest) (hturn : linkTurn .up s = true)
    (hshort : linkLenOk d.bytes = false) : exec .linkFrameOpen s = .next
      (authFail (takeJob .up (setLk (fun l => { l with sealed := rest }) s))) := by
  change execLinkFrameOpen s = _
  simp only [execLinkFrameOpen, hs, hturn, hshort, Bool.not_true, Bool.not_false, Bool.false_eq_true, if_false, if_true]

/-- 08 R250, 11 R324: a JOIN_REQ goes to a join trial while join requests are served, and is discarded otherwise. -/
theorem exec_linkFrameOpen_joinReq (hs : s.lk.sealed = d :: rest) (hturn : linkTurn .up s = true)
    (hlen : linkLenOk d.bytes = true) (hp : p = linkParts d.bytes)
    (hgone : gone = takeJob .up (setLk (fun l => { l with sealed := rest }) s)) (hfit : p.ct.length ≤ 65504)
    (horig : p.orig = 4095) (hty : p.ty = 3) :
    exec .linkFrameOpen s = .next (if joinOpen s then joinArrives d gone else gone) := by
  change execLinkFrameOpen s = _
  simp only [execLinkFrameOpen, hs, hturn, hlen, ← hp, ← hgone, not_lt.mpr hfit, horig, hty, Bool.not_true,
    Bool.false_eq_true, and_self, if_false, if_true]

/-- 11 R323, R326: a frame of a known node whose key is a node key, with room for it in queue 0x0E, fails on its tag, then on its
counter, or is stored opened. -/
theorem exec_linkFrameOpen_node {t : Option Bytes} {r : State × Bool} (hs : s.lk.sealed = d :: rest)
    (hturn : linkTurn .up s = true) (hlen : linkLenOk d.bytes = true) (hp : p = linkParts d.bytes)
    (hgone : gone = takeJob .up (setLk (fun l => { l with sealed := rest }) s)) (hfit : p.ct.length ≤ 65504)
    (h0 : p.orig ≠ 0) (hjoin : p.orig ≠ 4095) (hknown : nState s p.orig ≠ 0) (hclass : kClass s (nKey s p.orig) = 1)
    (ht : t = tryOpen s (nKey s p.orig) (kEui s (nKey s p.orig)) p)
    (hr : r = pushOpened d p (nKey s p.orig) (t.getD p.ct) (jobDone gone)) (hroom : r.2 = true) :
    exec .linkFrameOpen s = .next
      (if t.isNone then unheard d.src.toNat p.orig (authFail (abortOpen (jobDone gone)))
      else if fcOk s (nKey s p.orig) p.fc = false then unheard d.src.toNat p.orig (replayed (abortOpen (jobDone gone)))
      else r.1) := by
  change execLinkFrameOpen s = _
  simp only [execLinkFrameOpen, hs, hturn, hlen, ← hp, ← hgone, not_lt.mpr hfit, h0, hjoin, hknown, hclass, ← ht, ← hr,
    hroom, Bool.not_true, Bool.not_eq_true', Bool.false_eq_true, ne_eq, not_true_eq_false, false_and, or_self, if_false]

end opening

section receive

variable {s : State} {o : Opened}

/-- 08 R246, R251: the oldest opened frame leaves queue 0x0E and is received, as a join or as the frame of a node. -/
theorem exec_linkFrameReceive {rest : List Opened} (ho : s.lk.opened = o :: rest) :
    exec .linkFrameReceive s = .next ((if o.orig = 4095 then joinReceived o else linkReceived o)
      ((qPop 0x0E (setLk (fun l => { l with opened := rest }) s)).elim
        (setLk (fun l => { l with opened := rest }) s) (·.2))) := by
  change execLinkFrameReceive s = _
  simp only [execLinkFrameReceive, ho, ite_apply]
  cases qPop 0x0E (setLk (fun l => { l with opened := rest }) s) <;> rfl

/-- 08 R522: a frame whose ORIG names a FREE entry changes nothing. -/
theorem linkReceived_unknown (h : nState s o.orig.toNat = 0) : linkReceived o s = s := if_pos (.inl h)

/-- 08 R250, R251: a verified join is served while joins are open, a network key is stored and the controller runs. -/
theorem joinReceived_served (hopen : objF s 0 0x700 15 15 = 1) (hkey : (netSlot s).isSome = true)
    (hup : s.pw.mcDown = false) : joinReceived o s = joinNode o.slot o.body o s :=
  if_pos ⟨hopen, hkey, by simp [hup]⟩

end receive

section trial

variable {s : State} {d : Delivered}

/-- 11 R324: a trial that engines work on, with the Cloche ready, ends by the first slot that opens the request. -/
theorem exec_joinTrial (htrial : s.lk.trial = some d) (hready : objF s 0x50 0x800 31 31 ≠ 0) (hdrbg : drbgDead s = false)
    (heng : (List.range 16).any (fun e => onTrial s e) = true) : exec .joinTrial s = .next
      ((joinHit (linkParts d.bytes) s).elim (endTrial (authFail (abortOpen s))) fun hit =>
        let r := pushOpened d (linkParts d.bytes) hit.1 hit.2 s
        if r.2 then endTrial r.1 else s) := by
  change execJoinTrial s = _
  simp only [execJoinTrial, htrial, hready, hdrbg, heng, Bool.not_true, Bool.false_eq_true, or_self, if_false]
  cases joinHit (linkParts d.bytes) s <;> rfl

end trial

/-- Settles O29, command by command. That a frame too short to open counts as a failure of the tag (log 47), and that a join
trial that no slot opens aborts one packet (log 165), are the model's own readings. -/
theorem linkFrameCommands : Obligations.LinkFrameCommands := by
  unfold Obligations.LinkFrameCommands
  refine ⟨fun _ _ _ => exec_linkFrameOpen_short, fun _ _ _ _ _ => exec_linkFrameOpen_joinReq,
    fun _ _ _ _ _ _ _ => exec_linkFrameOpen_node, ?receive, fun _ _ => linkReceived_unknown, ?noSlot, ?opens,
    fun _ _ => joinReceived_served⟩
  case receive =>
    rintro s o rest t ho rfl
    exact exec_linkFrameReceive ho
  case noSlot =>
    intro s d htrial hready hdrbg heng hhit
    rw [exec_joinTrial htrial hready hdrbg heng, hhit, Option.elim_none]
  case opens =>
    rintro s d n b r htrial hready hdrbg heng hhit rfl hroom
    rw [exec_joinTrial htrial hready hdrbg heng, hhit]
    exact congrArg Host.Outcome.next (if_pos hroom)

end Sys2Proof.Machine
end

section
/-!
PROOF. What holds of the state at reset (09 R270, 14 R399, R404, 17 R476), and the requests on the Trellis and the queues (09 R278,
R283, R285, R287; 10 R303): a request answers what its body does once its FUNC and its parameters are in order.
-/
namespace Sys2Proof.Machine

/-- Settles O3: each of the three is evaluated on the one state. -/
theorem invariantsHoldAtReset : Obligations.InvariantsHoldAtReset := by
  unfold Obligations.InvariantsHoldAtReset
  exact ⟨rfl, rfl, rfl⟩

section trellisRequest

variable {r : Req} {s t : State}

/-- 14 R387, R398: a served request to the device whose body holds it leaves what the body leaves, and answers nothing yet. -/
theorem execReq_device_holds {op : Nat} {bad : Option Nat} {body : State → Ans} (hs : Serves op s) (hf : r.func = 0)
    (hbad : bad = none) (hb : body (takeMgmt op r s) = .hold t) :
    execReq op r (r.func == 0) bad false body s = t := by
  rw [beq_iff_eq.mpr hf, hbad, execReq_runs hs, hb]

/-- 09 R283: TR_WIPE of a part whose functions are down starts the wipe of that part. -/
theorem exec_trWipe {p : Nat} (hs : Serves 0xF01 s) (hf : r.func = 0) (hn : r.params.length = 4) (hp : byteAt r.params 0 = p)
    (hpart : p = 6 ∨ p = 7)
    (hdown : (if p = 6 then allDown (takeMgmt 0xF01 r s) [0x58, 0x59]
      else (List.range 4).all (fun n => coreStopped (takeMgmt 0xF01 r s) n)) = true) :
    exec (.trWipe r) s = .next (startWipe (partBase (takeMgmt 0xF01 r s) p) (partEnd (takeMgmt 0xF01 r s) p) 0xF01 r
      (takeMgmt 0xF01 r s)) := by
  subst hp
  refine congrArg Host.Outcome.next (execReq_device_holds hs hf (lenAnd_chk_none hn ?_) (if_pos hdown))
  simpa using hpart

/-- 09 R285: the word and the length of a TR_PEEK that lies in the Trellis pass step 9. -/
theorem peek_fields {a n : Nat} (hn : r.params.length = 8) (ha : a < trSize) (h1 : 1 ≤ n) (hn' : n ≤ 1024)
    (hend : a + n ≤ trSize) :
    lenAnd r 8 (firstBad (chk (decide (a < trSize)) 0) (chk (decide (1 ≤ n ∧ n ≤ 1024 ∧ a + n ≤ trSize)) 4)) = none := by
  simp only [lenAnd, hn, chk, ha, h1, hn', hend, and_self, decide_true, if_true, firstBad]

end trellisRequest

/-- Settles O59, request by request. -/
theorem trellisAndQueueRequests : Obligations.TrellisAndQueueRequests := by
  unfold Obligations.TrellisAndQueueRequests
  refine ⟨?wipe6, ?wipe7, ?repart, fun _ _ _ _ _ => rfl, ?bankTest, ?peek, ?peekHeld, ?queueRead, ?marks⟩
  case wipe6 =>
    rintro r s t hs rfl hf hn hp hdown
    exact exec_trWipe hs hf hn hp (.inl rfl) hdown
  case wipe7 =>
    rintro r s t hs rfl hf hn hp hstopped
    exact exec_trWipe hs hf hn hp (.inr rfl) hstopped
  case repart =>
    rintro r s t v hs rfl hf hn rfl h2 h8 hdown
    exact congrArg Host.Outcome.next
      (execReq_device_holds hs hf (lenAnd_chk_none hn (decide_eq_true ⟨h2, h8⟩)) (if_pos hdown))
  case bankTest =>
    rintro r s t b hs rfl hlo hhi hn rfl hb hregion hup hfree hrule
    refine congrArg Host.Outcome.next (execReq_defers hs (decide_eq_true ⟨hlo, hhi⟩)
      (lenAnd_chk_none hn (decide_eq_true hb)) (by rw [hregion, hup, Bool.or_self]) ?_)
    exact (if_pos hfree).trans (deferIf_defers hrule ..)
  case peek =>
    rintro r s t a n m hs rfl hf hlen rfl rfl ha h1 hn hend hlife hfree rfl
    refine congrArg Host.Outcome.next (execReq_device_replies hs hf (peek_fields hlen ha h1 hn hend) ?_)
    rw [if_pos hlife, hfree]
    rfl
  case peekHeld =>
    rintro r s t a n l hs rfl hf hlen rfl rfl ha h1 hn hend hlife hheld
    refine congrArg Host.Outcome.next (execReq_device_holds hs hf (peek_fields hlen ha h1 hn hend) ?_)
    rw [if_pos hlife, hheld]
  case queueRead =>
    rintro r s t q c hs rfl hf hn rfl hq
    refine congrArg Host.Outcome.next (execReq_device_replies hs hf (lenIs_none hn) ?_)
    simp only [hq, Option.isNone_some, Bool.false_eq_true, if_false]
  case marks =>
    rintro r s t q c hs rfl hf hn rfl hq
    refine congrArg Host.Outcome.next (execReq_device_replies hs hf (lenIs_none hn) ?_)
    simp only [hq, Option.isNone_some, Bool.false_eq_true, if_false]

end Sys2Proof.Machine
end

section
/-!
PROOF. What every step keeps (09 R270, 14 R399, R404, 17 R461, R475 to R477): the parts of the state in which such claims speak are
the bytes of the Trellis, the object file, the life-cycle records, the transition accepted and the deferred commands. The model
writes them in few ways; a property of these parts that survives each of them survives every step. The walk through the model that
shows it is made once, for any such property: for each function one lemma, named after it, composed of the lemmas of what it calls.
-/
namespace Sys2Proof.Machine

/-- A property of the Trellis bytes m, the objects r, the life-cycle records l, the accepted transition n and the deferred
commands d that survives the write of an object or of a byte and the removal of some of them. -/
structure Inv where
  holds : List Host.Cell → List (Nat × W32) → List (Fin 5) → Option (Fin 5) → List Deferred → Prop
  putObj : ∀ {m r l n d}, holds m r l n d → ∀ k v, holds m (smPut regD k v r) l n d
  dropObj : ∀ {m r l n d}, holds m r l n d → ∀ p : Nat × W32 → Bool, holds m (r.filter p) l n d
  putByte : ∀ {m r l n d}, holds m r l n d → ∀ k v, holds (smPut memD k v m) r l n d
  dropByte : ∀ {m r l n d}, holds m r l n d → ∀ p : Host.Cell → Bool, holds (m.filter p) r l n d

/-- The life-cycle state that records lead to (17 R476). -/
def stateAfter (l : List (Fin 5)) : Nat := match l.getLast? with | some b => b.val | none => 0

/-- One that also survives a deferred command that starts under R399 or goes, an accepted life-cycle
transition (17 R475), a reset (17 R461), and objects put back after a preview (08 R228). -/
structure StepInv extends Inv where
  defer : ∀ {m r l n d}, holds m r l n d → ∀ x : Deferred, (∀ y ∈ d, y.req.func ≠ x.req.func) → d.length < 32 →
    holds m r l n (d ++ [x])
  drop : ∀ {m r l n d}, holds m r l n d → ∀ p : Deferred → Bool, holds m r l n (d.filter p)
  accept : ∀ {m r l d}, holds m r l none d → ∀ b, lcAllowed (stateAfter l) b.val = true → b = 4 ∨ l.length ≤ 30 →
    holds m r l (some b) d
  reset : ∀ {m r l n d}, holds m r l n d → holds [] State.reset.regs l none []
  putBack : ∀ {m m' r r' l n d}, holds m r l n d → holds m' r' l n d → holds m' r l n d

/-- The property survives the burning of the accepted transition as a record, with which a reset comes (17 R477). -/
def StepInv.SurvivesBurn (Q : StepInv) : Prop :=
  ∀ ⦃m r l b d⦄, Q.holds m r l (some b) d → Q.holds [] State.reset.regs (l ++ [b]) none []

/-- The property holds of a state. -/
def Holds (P : Inv) (s : State) : Prop := P.holds s.mem s.regs s.fuse.records s.pw.lcNext s.cmd.deferred

variable {P : Inv} {Q : StepInv} {s : State}

theorem lifeCycle_eq_stateAfter (s : State) : lifeCycle s = stateAfter s.fuse.records := rfl

-- How programs over the state are put together.

theorem ite_keeps {c : Prop} [Decidable c] {a b : State} (ha : Holds P a) (hb : Holds P b) :
    Holds P (if c then a else b) := by
  split
  · exact ha
  · exact hb

theorem when_keeps {c : Prop} [Decidable c] {a : State} (ha : Holds P s → Holds P a) (h : Holds P s) :
    Holds P (if c then a else s) :=
  ite_keeps (ha h) h

theorem unless_keeps {c : Prop} [Decidable c] {a : State} (ha : Holds P s → Holds P a) (h : Holds P s) :
    Holds P (if c then s else a) :=
  ite_keeps h (ha h)

theorem ite_fst_keeps {α : Type} {c : Prop} [Decidable c] {a b : State × α} (ha : Holds P a.1) (hb : Holds P b.1) :
    Holds P (if c then a else b).1 := by
  split
  · exact ha
  · exact hb

theorem fst_keeps {α : Type} {e : State × α} {t : State} {a : α} (he : e = (t, a)) (h : Holds P e.1) : Holds P t := by
  subst he; exact h

theorem foldl_keeps {α : Type} {f : State → α → State} {l : List α} (hf : ∀ s a, Holds P s → Holds P (f s a))
    (h : Holds P s) : Holds P (l.foldl f s) := by
  induction l generalizing s with
  | nil => exact h
  | cons a l ih => exact ih (hf s a h)

theorem foldl_fst_keeps {α β : Type} {f : State × β → α → State × β} {l : List α} {e : State × β}
    (hf : ∀ e a, Holds P e.1 → Holds P (f e a).1) (h : Holds P e.1) : Holds P (l.foldl f e).1 := by
  induction l generalizing e with
  | nil => exact h
  | cons a l ih => exact ih (hf e a h)

-- Special cases of the writes.

theorem Inv.noBytes {m r l n d} (h : P.holds m r l n d) : P.holds [] r l n d := by
  simpa using P.dropByte h fun _ => false

theorem StepInv.noDeferred {m r l n d} (h : Q.holds m r l n d) : Q.holds m r l n [] := by
  simpa using Q.drop h fun _ => false

/-- The life-cycle records, the transition accepted and the deferred commands stay those of a state. -/
def lifeAndCommandsOf (s : State) : Inv where
  holds _ _ l n d := l = s.fuse.records ∧ n = s.pw.lcNext ∧ d = s.cmd.deferred
  putObj h _ _ := h
  dropObj h _ := h
  putByte h _ _ := h
  dropByte h _ := h

theorem lifeAndCommandsOf_self (s : State) : Holds (lifeAndCommandsOf s) s := ⟨rfl, rfl, rfl⟩

-- What a meaning and a request's body leave.

/-- The property holds of the next state, if there is one. -/
def Ends (P : Inv) : Host.Outcome State Fault Refusal → Prop
  | .next t => Holds P t
  | .fault _ => True
  | .refused _ => True

/-- The property holds of the state that an answer comes with; a deferred command is one that R399 admits. -/
def Answers (P : Inv) (r : Req) : Ans → Prop
  | .reply _ _ t => Holds P t
  | .hold t => Holds P t
  | .defer _ t => Holds P t ∧ deferRule r t = none

theorem ite_answers {c : Prop} [Decidable c] {r : Req} {a b : Ans} (ha : Answers P r a) (hb : Answers P r b) :
    Answers P r (if c then a else b) := by
  split
  · exact ha
  · exact hb

theorem Answers.reply {r : Req} {a : Ans} {st : W16} {p : Bytes} {t : State} (ha : Answers P r a)
    (he : a = .reply st p t) : Holds P t := by
  subst he; exact ha

theorem Answers.hold {r : Req} {a : Ans} {t : State} (ha : Answers P r a) (he : a = .hold t) : Holds P t := by
  subst he; exact ha

theorem Answers.defer {r : Req} {a : Ans} {x : List Nat} {t : State} (ha : Answers P r a) (he : a = .defer x t) :
    Holds P t ∧ deferRule r t = none := by
  subst he; exact ha

end Sys2Proof.Machine
end

section
/-!
PROOF. What every step keeps: operations on objects, Trellis bytes, event records, domains and ports.
-/
namespace Sys2Proof.Machine

variable {P : Inv} {s : State}

theorem setObj_keeps {func id : Nat} {v : W32} (h : Holds P s) : Holds P (setObj func id v s) := P.putObj h _ _

theorem setF_keeps {func id hi lo v : Nat} (h : Holds P s) : Holds P (setF func id hi lo v s) := setObj_keeps h

theorem bumpF_keeps {func id hi lo k : Nat} (h : Holds P s) : Holds P (bumpF func id hi lo k s) := setObj_keeps h

theorem setShadow_keeps {func id : Nat} {v : W32} (h : Holds P s) : Holds P (setShadow func id v s) := h

theorem adopt_keeps {func id : Nat} (h : Holds P s) : Holds P (adopt func id s) := by
  unfold adopt
  split
  · exact h
  · exact setObj_keeps h

theorem pendWrite_keeps {func id : Nat} {w : W32} (h : Holds P s) : Holds P (pendWrite func id w s) := setShadow_keeps h

theorem adoptBound_keeps {b : Bound} (h : Holds P s) : Holds P (adoptBound b s) := by
  unfold adoptBound
  exact foldl_keeps (fun _ _ h => (by split; exacts [when_keeps adopt_keeps h, h])) h

theorem adoptFunc_keeps {func : Nat} (h : Holds P s) : Holds P (adoptFunc func s) :=
  foldl_keeps (fun _ _ => setObj_keeps) (foldl_keeps (fun _ _ => when_keeps adopt_keeps) h)

theorem putLate_keeps {key : Nat} {w : W32} (h : Holds P s) : Holds P (putLate key w s) := h

theorem lateWrites_keeps {t : Nat} (h : Holds P s) : Holds P (lateWrites t s) :=
  foldl_keeps (fun _ _ => putLate_keeps) (foldl_keeps (fun _ _ h => h) h)

theorem lateDue_keeps (h : Holds P s) : Holds P (lateDue s) := foldl_keeps (fun _ _ => setShadow_keeps) h

theorem resetObjs_keeps {func : Nat} {keep : Nat → Bool} (h : Holds P s) : Holds P (resetObjs func keep s) :=
  P.dropObj h _

theorem unpoison_keeps {a n : Nat} (h : Holds P s) : Holds P (unpoison a n s) := h

theorem memWrite_keeps {a : Nat} {b : Bytes} (h : Holds P s) : Holds P (memWrite a b s) := by
  have puts : ∀ (b : Bytes) (a : Nat) {m r l n d}, P.holds m r l n d → P.holds (memPutL a b m) r l n d := by
    intro b
    induction b with
    | nil => intro _ _ _ _ _ _ h; exact h
    | cons x b ih => intro a _ _ _ _ _ h; exact ih (a + 1) (P.putByte h _ x)
  exact puts b a h

theorem memSetNat_keeps {a n v : Nat} (h : Holds P s) : Holds P (memSetNat a n v s) := memWrite_keeps h

theorem memWipe_keeps {lo hi : Nat} (h : Holds P s) : Holds P (memWipe lo hi s) := P.dropByte h _

theorem poisonWord_keeps {w : Nat} (h : Holds P s) : Holds P (poisonWord w s) := h

theorem emit_keeps {o : OutItem} (h : Holds P s) : Holds P (emit o s) := h

theorem takeFree_keeps {n : Nat} (h : Holds P s) : Holds P (takeFree n s) := h

theorem srcStore_keeps {r : EvRec} (h : Holds P s) : Holds P (srcStore r s) := unless_keeps bumpF_keeps h

theorem noteUnabsorbed_keeps {e : Ev} (h : Holds P s) : Holds P (noteUnabsorbed e s) := ite_keeps h h

theorem raise_keeps {src func : Nat} {e : Ev} {data : Bytes} (h : Holds P s) : Holds P (raise src func e data s) :=
  noteUnabsorbed_keeps (srcStore_keeps h)

theorem setDom_keeps {d : Nat} {v : DomSt} (h : Holds P s) : Holds P (setDom d v s) := h

theorem setPort_keeps {p : Nat} {f : PortSt → PortSt} (h : Holds P s) : Holds P (setPort p f s) := h

end Sys2Proof.Machine
end

section
/-!
PROOF. What every step keeps: operations on queues (10 R288 to R303).
-/
namespace Sys2Proof.Machine

variable {P : Inv} {s : State}

theorem setQ_keeps {q : Nat} {v : Que} (h : Holds P s) : Holds P (setQ q v s) := h

theorem putQ_keeps {qid : Nat} {q : Que} (h : Holds P s) : Holds P (putQ qid q s) :=
  when_keeps raise_keeps (setQ_keeps h)

theorem qDrop_keeps {qid : Nat} (h : Holds P s) : Holds P (qDrop qid s) := putQ_keeps h

theorem qOversize_keeps {qid n : Nat} (h : Holds P s) : Holds P (qOversize qid n s) :=
  raise_keeps (bumpF_keeps (putQ_keeps h))

theorem qPush_keeps {qid client : Nat} {mark : Bool} {tag : Nat} {data : Bytes} (h : Holds P s) :
    Holds P (qPush qid client mark tag data s).1 :=
  ite_fst_keeps h (ite_fst_keeps (putQ_keeps h) (ite_fst_keeps (qDrop_keeps h) (ite_fst_keeps (qOversize_keeps h) h)))

theorem qPop_keeps {qid : Nat} {p : Pkt} {t : State} (he : qPop qid s = some (p, t)) (h : Holds P s) : Holds P t := by
  dsimp only [qPop] at he
  split at he
  · cases he
  · cases he
    exact putQ_keeps h

theorem qPass_keeps {qid client tag : Nat} {data : Bytes} (h : Holds P s) :
    Holds P (qPass qid client tag data s).1 := by
  unfold qPass
  extract_lets
  split
  · exact qPop_keeps ‹_› (qPush_keeps h)
  · exact qPush_keeps h

theorem qReadAt_keeps {qid pos : Nat} {p : Pkt} {t : State} (he : qReadAt qid pos s = some (p, t))
    (h : Holds P s) : Holds P t := by
  obtain ⟨_, -, hx⟩ := Option.map_eq_some_iff.mp he
  cases hx
  exact putQ_keeps h

theorem qRelease_keeps {qid pos : Nat} (h : Holds P s) : Holds P (qRelease qid pos s) := putQ_keeps h

theorem qWord_keeps {qid w : Nat} (h : Holds P s) : Holds P (qWord qid w s).1 := by
  unfold qWord
  exact ite_fst_keeps h (ite_fst_keeps (putQ_keeps h) (by split; exacts [ite_fst_keeps (setQ_keeps h) h, h]))

theorem qRead1_keeps {qid : Nat} (h : Holds P s) : Holds P (qRead1 qid s).1 := by
  unfold qRead1
  extract_lets
  split <;> exact putQ_keeps h

theorem qStream_keeps {qid : Nat} {ws : List Nat} (h : Holds P s) : Holds P (qStream qid ws s).1 :=
  ite_fst_keeps h (ite_fst_keeps (when_keeps setQ_keeps h) (putQ_keeps (putQ_keeps h)))

theorem qEmpty_keeps {qid : Nat} {held producer : Bool} (h : Holds P s) : Holds P (qEmpty qid held producer s) :=
  putQ_keeps h

theorem qFault_keeps {qid dom ptr first second : Nat} (h : Holds P s) : Holds P (qFault qid dom ptr first second s) :=
  raise_keeps (setF_keeps (bumpF_keeps (putQ_keeps h)))

theorem qClear_keeps {qid : Nat} (h : Holds P s) : Holds P (qClear qid s) := setQ_keeps h

theorem qMarks_keeps {qid : Nat} {wm hyst : Byte} (h : Holds P s) : Holds P (qMarks qid wm hyst s) := setQ_keeps h

end Sys2Proof.Machine
end

section
/-!
PROOF. What every step keeps: command packets, replies and the one flow of every request (14 R384 to R403).
-/
namespace Sys2Proof.Machine

variable {P : Inv} {Q : StepInv} {s : State}

theorem setWaiting_keeps {w : List (Nat × BitVec 48 × Option (BitVec 12) × Bytes)} (h : Holds P s) :
    Holds P (setWaiting w s) :=
  h

theorem hostLeaves_keeps {l : Nat} {dst : BitVec 48} {vlan : Option (BitVec 12)} {pkt : Bytes} (h : Holds P s) :
    Holds P (hostLeaves l dst vlan pkt s) :=
  emit_keeps (qStream_keeps h)

theorem hostWaits_keeps {l : Nat} {dst : BitVec 48} {vlan : Option (BitVec 12)} {pkt : Bytes} (h : Holds P s) :
    Holds P (hostWaits l dst vlan pkt s) :=
  setWaiting_keeps (when_keeps qPush_keeps h)

theorem hostSend_keeps {l : Nat} {dst : BitVec 48} {vlan : Option (BitVec 12)} {pkt : Bytes} (h : Holds P s) :
    Holds P (hostSend l dst vlan pkt s) := by
  unfold hostSend
  refine ite_keeps h (ite_keeps (hostWaits_keeps h) ?_)
  extract_lets
  split
  · exact hostLeaves_keeps (qPass_keeps h)
  · exact hostWaits_keeps (qPass_keeps h)
  · exact qPass_keeps h

theorem hostNext_keeps {l : Nat} (h : Holds P s) : Holds P (hostNext l s) := by
  unfold hostNext
  split
  · exact h
  · refine ite_keeps h ?_
    extract_lets
    split
    · exact hostLeaves_keeps (qPop_keeps ‹_› (setWaiting_keeps h))
    · exact hostLeaves_keeps (qPass_keeps (setWaiting_keeps h))

theorem hostDrain_keeps {l : Nat} (h : Holds P s) : Holds P (hostDrain l s) := foldl_keeps (fun _ _ => hostNext_keeps) h

theorem conHold_keeps {x : Byte} (h : Holds P s) : Holds P (conHold s x) := ite_keeps (qWord_keeps h) h

theorem conSend_keeps {b : Bytes} (h : Holds P s) : Holds P (conSend b s) :=
  ite_keeps h (ite_keeps (foldl_keeps (fun _ _ => conHold_keeps) h) (emit_keeps h))

theorem chainSend_keeps {ty dest : Nat} {body : Bytes} (h : Holds P s) : Holds P (chainSend ty dest body s) := h

theorem conPrompt_keeps (h : Holds P s) : Holds P (conPrompt s) := when_keeps (fun h => adopt_keeps h) (conSend_keeps h)

theorem conReply_keeps {tag func status : Nat} {params pkt : Bytes} (h : Holds P s) :
    Holds P (conReply tag func status params pkt s) := by
  unfold conReply
  refine ite_keeps (conSend_keeps h) ?_
  split
  · exact conSend_keeps h
  · exact when_keeps conPrompt_keeps (by split; exacts [conSend_keeps h, emit_keeps h])

theorem mcPass_keeps {pkt : Bytes} (h : Holds P s) : Holds P (mcPass pkt s) := qPass_keeps h

theorem deliver_keeps {src : Source} {tag func status : Nat} {params pkt : Bytes} (h : Holds P s) :
    Holds P (deliver src tag func status params pkt s) := by
  unfold deliver
  split
  · split
    · exact hostSend_keeps (mcPass_keeps h)
    · exact h
  · exact conReply_keeps h
  · exact chainSend_keeps h
  · exact qPush_keeps (mcPass_keeps h)

theorem keepReply_keeps {op : Nat} {r : Req} {pkt : Bytes} (h : Holds P s) : Holds P (keepReply op r pkt s) := h

theorem sendReply_keeps {op : Nat} {r : Req} {status : W16} {params : Bytes} (h : Holds P s) :
    Holds P (sendReply op r status params s) :=
  unless_keeps deliver_keeps (keepReply_keeps h)

theorem refuse_keeps {st : W16} {det : Nat} (h : Holds P s) : Answers P r (refuse st det s) := h

theorem mgmtJoins_keeps (h : Holds P s) : Holds P (mgmtJoins s) := by
  unfold mgmtJoins
  split
  · exact h
  · exact when_keeps qPush_keeps h

theorem mgmtRefill_keeps (h : Holds P s) : Holds P (mgmtRefill s) := foldl_keeps (fun _ _ => mgmtJoins_keeps) h

theorem takeMgmt_keeps {op : Nat} {r : Req} (h : Holds P s) : Holds P (takeMgmt op r s) := by
  unfold takeMgmt
  split
  · refine ite_keeps ?_ h
    extract_lets _ s1
    have h1 : Holds P s1 := h
    clear_value s1
    split
    · exact mgmtRefill_keeps (qPop_keeps ‹_› h1)
    · exact h1
  · exact h

theorem deferStart_keeps {op : Nat} {r : Req} {aux : List Nat} (hr : deferRule r s = none) (h : Holds Q.toInv s) :
    Holds Q.toInv (deferStart op r aux s) := by
  have admitted : (∀ y ∈ s.cmd.deferred, y.req.func ≠ r.func) ∧ s.cmd.deferred.length < 32 := by
    unfold deferRule at hr
    split_ifs at hr with hf hl
    · exact ⟨by simpa using hf, by omega⟩
  exact when_keeps deliver_keeps (Q.defer h _ admitted.1 admitted.2)

/-- Steps 7 to 10 of 14 R387: the body runs only where the life cycle admits the command (17 R474). -/
theorem execReq_keeps_alive {op : Nat} {r : Req} {okFunc : Bool} {bad : Option Nat} {down : Bool} {body : State → Ans}
    (hb : ∀ t, Holds Q.toInv t → ¬ (lifeCycle t = 4 ∧ op ∉ retiredOps) → Answers Q.toInv r (body t))
    (h : Holds Q.toInv s) : Holds Q.toInv (execReq op r okFunc bad down body s) := by
  unfold execReq
  split
  · exact h
  · have ht : Holds Q.toInv (takeMgmt op r s) := takeMgmt_keeps h
    generalize takeMgmt op r s = t at ht
    extract_lets _ a
    have ha : Answers Q.toInv r a := by
      refine ite_answers ht ?_
      split
      · exact ht
      · split
        · exact ht
        · exact ite_answers ht (hb t ht ‹_›)
    clear_value a
    split
    · exact sendReply_keeps ha
    · exact ha
    · exact deferStart_keeps ha.2 ha.1

theorem execReq_keeps {op : Nat} {r : Req} {okFunc : Bool} {bad : Option Nat} {down : Bool} {body : State → Ans}
    (hb : ∀ t, Holds Q.toInv t → Answers Q.toInv r (body t)) (h : Holds Q.toInv s) :
    Holds Q.toInv (execReq op r okFunc bad down body s) :=
  execReq_keeps_alive (fun t ht _ => hb t ht) h

/-- A command that starts what touches no deferred command is deferred under 14 R399, or refused. -/
theorem deferIf_keeps {r : Req} {aux : List Nat} {go : State → State} (h : Holds Q.toInv s)
    (hgo : ∀ {P : Inv} (s : State), Holds P s → Holds P (go s)) : Answers Q.toInv r (deferIf r aux s go) := by
  unfold deferIf
  split
  · exact h
  · refine ⟨hgo s h, ?_⟩
    obtain ⟨-, -, same⟩ := hgo s (lifeAndCommandsOf_self s)
    rwa [deferRule, same, ← deferRule]

theorem finish_keeps {d : Deferred} {st : W16} {params : Bytes} (h : Holds Q.toInv s) :
    Holds Q.toInv (finish d st params s) :=
  sendReply_keeps (Q.drop h _)

theorem enqueue_keeps {op : Nat} {r : Req} {pkt : Bytes} (h : Holds P s) : Holds P (enqueue op r pkt s) :=
  mgmtRefill_keeps h

theorem failRequests_keeps (h : Holds P s) : Holds P (failRequests s) :=
  mgmtRefill_keeps (foldl_keeps (fun _ _ => sendReply_keeps) h)

theorem unlessKept_keeps {op : Nat} {r : Req} {go : State → State} (hgo : ∀ x1, Holds P x1 → Holds P (go x1))
    (h : Holds P s) :
    Holds P (unlessKept op r go s) := by
  unfold unlessKept
  split
  · exact deliver_keeps h
  · exact hgo _ h

theorem answer_keeps {src : Source} {op tag func : Nat} {st : W16} {params : Bytes} (h : Holds P s) :
    Holds P (answer src op tag func st params s) :=
  deliver_keeps h

theorem forwardReq_keeps {op : Nat} {r : Req} {pkt : Bytes} (h : Holds P s) : Holds P (forwardReq op r pkt s) :=
  ite_keeps (answer_keeps h) (ite_keeps (sendReply_keeps h) (ite_keeps (sendReply_keeps h) (chainSend_keeps h)))

theorem admitReq_keeps {op : Nat} {r : Req} {pkt : Bytes} {a : State} (h : Holds P a) : Holds P (admitReq op r pkt a) :=
  unlessKept_keeps (fun _ h => ite_keeps (answer_keeps h) (ite_keeps (sendReply_keeps h) (enqueue_keeps h))) h

theorem receiveCmd_keeps {src : Source} {pkt : Bytes} (h : Holds P s) : Holds P (receiveCmd src pkt s) := by
  unfold receiveCmd
  refine ite_keeps (unless_keeps answer_keeps h) (ite_keeps (unless_keeps answer_keeps h) (ite_keeps
    (unless_keeps answer_keeps h) (ite_keeps (unless_keeps answer_keeps h) (ite_keeps (unless_keeps answer_keeps h)
    ?_))))
  extract_lets
  split
  · exact h
  · exact unlessKept_keeps (fun _ => sendReply_keeps) h
  · exact admitReq_keeps h
  · exact unlessKept_keeps (fun _ => forwardReq_keeps) h
  · exact ite_keeps (ite_keeps h (unlessKept_keeps (fun _ => sendReply_keeps) h)) (unless_keeps chainSend_keeps
      (admitReq_keeps h))

end Sys2Proof.Machine
end

section
/-!
PROOF. What every step keeps: the Trellis, its banks, wipes and bank test (09).
-/
namespace Sys2Proof.Machine

variable {P : Inv} {Q : StepInv} {s : State}

theorem setReg_keeps {r : Nat} {f : RegionSt → RegionSt} (h : Holds P s) : Holds P (setReg r f s) := h

theorem setMirLoc_keeps {x v : Nat} (h : Holds P s) : Holds P (setMirLoc x v s) :=
  ite_keeps (setF_keeps h) (setF_keeps h)

theorem placeHalf_keeps {x : Nat} (h : Holds P s) : Holds P (placeHalf x s) := by
  unfold placeHalf
  split
  · exact h
  · extract_lets _ s2
    have h2 : Holds P s2 := setF_keeps (setF_keeps (setMirLoc_keeps h))
    exact h2

theorem abandonHalf_keeps {r : Nat} (h : Holds P s) : Holds P (abandonHalf r s) :=
  foldl_keeps (fun _ _ h => ite_keeps (raise_keeps (setMirLoc_keeps (setF_keeps (setF_keeps h)))) h) h

theorem bankDies_keeps {r b : Nat} (h : Holds P s) : Holds P (bankDies r b s) := setReg_keeps h

theorem placeHalves_keeps (h : Holds P s) : Holds P (placeHalves s) :=
  foldl_keeps (fun _ _ => when_keeps placeHalf_keeps) h

theorem bankFailing_keeps {r b : Nat} {answers : Bool} (h : Holds P s) : Holds P (bankFailing r b answers s) := by
  unfold bankFailing
  refine ite_keeps h (ite_keeps (placeHalves_keeps (raise_keeps (unless_keeps bankDies_keeps (setF_keeps (setF_keeps
    (when_keeps abandonHalf_keeps h)))))) (ite_keeps (ite_keeps h (bankDies_keeps (setReg_keeps h))) ?_))
  split
  · exact placeHalves_keeps (unless_keeps bankDies_keeps (setReg_keeps (setF_keeps (when_keeps abandonHalf_keeps h))))
  · exact raise_keeps (unless_keeps bankDies_keeps h)

theorem correctedWord_keeps {r b line word : Nat} (h : Holds P s) : Holds P (correctedWord r b line word s) :=
  when_keeps bankFailing_keeps (setReg_keeps (bumpF_keeps h))

theorem wordLost_keeps {r b line word client : Nat} (h : Holds P s) : Holds P (wordLost r b line word client s) := by
  unfold wordLost
  refine raise_keeps (bumpF_keeps ?_)
  split
  · split
    · exact poisonWord_keeps h
    · exact h
  · exact h

theorem wordsLost_keeps {r b : Nat} {bad : List (Fin 2048 × Fin 8)} (h : Holds P s) : Holds P (wordsLost r b bad s) :=
  foldl_keeps (fun _ _ => wordLost_keeps) h

theorem uncorrectable_keeps {r b line word client : Nat} (h : Holds P s) :
    Holds P (uncorrectable r b line word client s) :=
  bankFailing_keeps (wordLost_keeps h)

theorem slotInvalid_keeps {a : Nat} (h : Holds P s) : Holds P (slotInvalid a s) := memWrite_keeps h

theorem windowFault_keeps {client a : Nat} {write : Bool} (h : Holds P s) : Holds P (windowFault client a write s) :=
  raise_keeps (setF_keeps (setF_keeps (setF_keeps (bumpF_keeps h))))

theorem ringPut_keeps {q o : Nat} {b : Byte} (h : Holds P s) : Holds P (ringPut q o b s) :=
  setQ_keeps (memWrite_keeps h)

theorem packetPut_keeps {a : Nat} {b : Byte} (h : Holds P s) : Holds P (packetPut a b s) := by
  unfold packetPut
  split
  · exact ringPut_keeps h
  · exact memWrite_keeps h

theorem trWrite_keeps {a : Nat} {data : Bytes} (h : Holds P s) : Holds P (trWrite a data s) :=
  ite_keeps h (ite_keeps (unpoison_keeps (foldl_keeps (fun _ _ => packetPut_keeps) h)) (memWrite_keeps h))

theorem binsCleared_keeps {lo hi : Nat} (h : Holds P s) : Holds P (binsCleared lo hi s) := ite_keeps h h

theorem wipesBegin_keeps (h : Holds P s) : Holds P (wipesBegin s) :=
  foldl_keeps (fun _ _ h => ite_keeps h (unless_keeps setF_keeps (binsCleared_keeps (memWipe_keeps h)))) h

theorem startWipe_keeps {lo hi op : Nat} {r : Req} (h : Holds P s) : Holds P (startWipe lo hi op r s) :=
  wipesBegin_keeps h

theorem wipeDone_keeps (h : Holds P s) : Holds P (wipeDone s) :=
  raise_keeps (foldl_keeps (fun _ _ h => ite_keeps h h) (P.noBytes h))

theorem coresDue_keeps (h : Holds P s) : Holds P (coresDue s) := h

theorem execTrBankTest_keeps {r : Req} (h : Holds Q.toInv s) : Ends Q.toInv (execTrBankTest r s) :=
  execReq_keeps (fun _ h => ite_answers (deferIf_keeps h (fun _ h => h)) (refuse_keeps h)) h

theorem scrubFind_keeps {r line : Nat} {f : ScrubFind} (h : Holds P s) : Holds P (scrubFind r line f s) :=
  ite_keeps (uncorrectable_keeps h) (correctedWord_keeps h)

theorem execScrubRead_keeps {r : Fin 4} {finds : List ScrubFind} {portFail : Option (Fin 17 × Bool)} (h : Holds P s) :
    Ends P (execScrubRead r finds portFail s) := by
  unfold execScrubRead
  refine ite_keeps h ?_
  extract_lets _ s2 s3
  have h2 : Holds P s2 := foldl_keeps (fun _ _ => scrubFind_keeps) h
  have h3 : Holds P s3 := by
    unfold s3
    split
    · exact bankFailing_keeps h2
    · exact h2
  exact ite_keeps (bumpF_keeps (setReg_keeps h3)) (setReg_keeps h3)

theorem bankSwitch_keeps {r : Nat} {bad : List (Fin 2048 × Fin 8)} (h : Holds P s) : Holds P (bankSwitch r bad s) := by
  unfold bankSwitch
  extract_lets
  split
  · exact h
  · exact ite_keeps h (wipesBegin_keeps (raise_keeps (when_keeps (fun h => h) (when_keeps setF_keeps (setReg_keeps
      (setF_keeps (setF_keeps (setF_keeps (when_keeps wordsLost_keeps h)))))))))

theorem execBankSwitch_keeps {r : Fin 4} {bad : List (Fin 2048 × Fin 8)} (h : Holds P s) :
    Ends P (execBankSwitch r bad s) :=
  bankSwitch_keeps h

theorem execMirrorCopyDone_keeps {half : Fin 2} (h : Holds P s) : Ends P (execMirrorCopyDone half s) :=
  ite_keeps (raise_keeps (setF_keeps h)) h

theorem execRegionControllerMismatch_keeps {r : Fin 4} (h : Holds P s) : Ends P (execRegionControllerMismatch r s) :=
  when_keeps setF_keeps h

theorem bankLost_keeps {r i : Nat} (h : Holds P s) : Holds P (bankLost r i s) := P.dropByte h _

theorem tableLost_keeps {r : Nat} (h : Holds P s) : Holds P (tableLost r s) :=
  ite_keeps h (foldl_keeps (fun _ _ => unless_keeps bankLost_keeps) h)

theorem loseRegion_keeps {r : Nat} (h : Holds P s) : Holds P (loseRegion r s) :=
  placeHalves_keeps (raise_keeps (wipesBegin_keeps (setReg_keeps (setF_keeps (setF_keeps (setF_keeps (abandonHalf_keeps
    (tableLost_keeps h))))))))

end Sys2Proof.Machine
end

section
/-!
PROOF. What every step keeps: timebase, mains tracking and the superframe (02).
-/
namespace Sys2Proof.Machine

variable {P : Inv} {s : State}

theorem setClk_keeps {f : ClockSt → ClockSt} (h : Holds P s) : Holds P (setClk f s) := h

theorem addIntervals_keeps {n iv : Nat} (h : Holds P s) : Holds P (addIntervals n iv s) := setClk_keeps h

theorem rangeEvent_keeps {iv : Nat} (h : Holds P s) : Holds P (rangeEvent iv s) := raise_keeps (bumpF_keeps h)

theorem rejectCap_keeps (h : Holds P s) : Holds P (rejectCap s) := bumpF_keeps h

theorem mainsLock_keeps (h : Holds P s) : Holds P (mainsLock s) := ite_keeps h (raise_keeps (setClk_keeps h))

theorem takeAlt_keeps (h : Holds P s) : Holds P (takeAlt s) := when_keeps setClk_keeps h

theorem enterHoldover_keeps (h : Holds P s) : Holds P (enterHoldover s) :=
  ite_keeps h (takeAlt_keeps (bumpF_keeps (setClk_keeps h)))

theorem judgeErr_keeps {e : Int} (h : Holds P s) : Holds P (judgeErr e s) := ite_keeps (setClk_keeps h) (setClk_keeps h)

theorem putErr_keeps {next : Bool} {e : Int} (h : Holds P s) : Holds P (putErr next e s) := setClk_keeps h

theorem capTracked_keeps {cap : Nat} (h : Holds P s) : Holds P (capTracked cap s) := by
  unfold capTracked
  split
  · exact h
  · refine ite_keeps (setClk_keeps (judgeErr_keeps (putErr_keeps ?_))) (rejectCap_keeps h)
    split
    · exact h
    · exact ite_keeps (addIntervals_keeps h) (rangeEvent_keeps h)

theorem capInterval_keeps {cap : Nat} (h : Holds P s) : Holds P (capInterval cap s) := by
  unfold capInterval
  split
  · exact h
  · refine ite_keeps (rangeEvent_keeps (rejectCap_keeps h)) (ite_keeps ?_ ?_)
    · extract_lets
      split
      · exact setClk_keeps (addIntervals_keeps h)
      · exact judgeErr_keeps (putErr_keeps (setClk_keeps (addIntervals_keeps h)))
    · extract_lets _ _ s13
      have h3 : Holds P s13 := addIntervals_keeps (setClk_keeps h)
      exact ite_keeps (mainsLock_keeps (setClk_keeps h3)) (when_keeps setClk_keeps h3)

theorem capInUse_keeps {cap : Nat} (h : Holds P s) : Holds P (capInUse cap s) := by
  unfold capInUse
  refine setClk_keeps ?_
  split
  · exact capTracked_keeps h
  · exact capTracked_keeps h
  · exact when_keeps capInterval_keeps h
  · exact when_keeps capInterval_keeps h
  · exact h
  · exact h

theorem captureClock_keeps {ch stamp : Nat} (h : Holds P s) : Holds P (captureClock ch stamp s) :=
  ite_keeps (ite_keeps (capInUse_keeps h) (when_keeps setClk_keeps h)) (when_keeps capInUse_keeps h)

theorem cycleBegins_keeps {c : Nat} (h : Holds P s) : Holds P (cycleBegins c s) := setClk_keeps h

theorem execMainsMissHoldover_keeps (h : Holds P s) : Ends P (execMainsMissHoldover s) :=
  ite_keeps (raise_keeps (enterHoldover_keeps h)) h

theorem execChainSyncMiss_keeps (h : Holds P s) : Ends P (execChainSyncMiss s) :=
  ite_keeps (raise_keeps (enterHoldover_keeps h)) h

theorem execChainSyncEdge_keeps (h : Holds P s) : Ends P (execChainSyncEdge s) := ite_keeps h (setClk_keeps h)

theorem execChainSyncLowSeen_keeps (h : Holds P s) : Ends P (execChainSyncLowSeen s) := when_keeps raise_keeps h

theorem execSyncAnnounceSend_keeps (h : Holds P s) : Ends P (execSyncAnnounceSend s) := ite_keeps h h

theorem stepTb_keeps {d : Nat} (h : Holds P s) : Holds P (stepTb d s) := setClk_keeps h

theorem tbStep_keeps {d : Nat} (h : Holds P s) : Holds P (tbStep d s) := raise_keeps (stepTb_keeps h)

theorem announceTb_keeps {d : Int} (h : Holds P s) : Holds P (announceTb d s) :=
  ite_keeps (setClk_keeps (tbStep_keeps (setClk_keeps h))) (ite_keeps (setClk_keeps (tbStep_keeps (setClk_keeps h)))
    (ite_keeps (when_keeps (fun h => raise_keeps (setClk_keeps h)) (setClk_keeps h)) (when_keeps setClk_keeps
    (setClk_keeps h))))

theorem chainLock_keeps {cap : Nat} {cycle : W32} (h : Holds P s) : Holds P (chainLock cap cycle s) :=
  mainsLock_keeps (setClk_keeps h)

theorem announceTrack_keeps {edge : Nat} {cycle : W32} {sfo : W16} (h : Holds P s) :
    Holds P (announceTrack edge cycle sfo s) := by
  unfold announceTrack
  extract_lets
  split
  · exact chainLock_keeps (setClk_keeps h)
  · exact ite_keeps (chainLock_keeps (setClk_keeps h)) (setClk_keeps (setClk_keeps h))

theorem syncAnnounced_keeps {tb : W64} {cycle : W32} {sfo : W16} (h : Holds P s) :
    Holds P (syncAnnounced tb cycle sfo s) := by
  unfold syncAnnounced
  refine ite_keeps h ?_
  extract_lets
  split
  · exact h
  · exact when_keeps announceTrack_keeps (setClk_keeps (announceTb_keeps h))

theorem execSyncAnnouncement_keeps {tb : W64} {cycle : W32} {sfo : W16} (h : Holds P s) :
    Ends P (execSyncAnnouncement tb cycle sfo s) :=
  syncAnnounced_keeps h

theorem execTbSlewAdjust_keeps (h : Holds P s) : Ends P (execTbSlewAdjust s) :=
  ite_keeps h (ite_keeps (setClk_keeps h) (setClk_keeps h))

theorem execRefclkLoss_keeps (h : Holds P s) : Ends P (execRefclkLoss s) :=
  ite_keeps (raise_keeps (setClk_keeps (setF_keeps (setF_keeps h)))) h

theorem execRefclkRestoreDetect_keeps (h : Holds P s) : Ends P (execRefclkRestoreDetect s) :=
  ite_keeps (setClk_keeps (setF_keeps h)) h

theorem execRefclkSlewEnd_keeps (h : Holds P s) : Ends P (execRefclkSlewEnd s) :=
  ite_keeps (raise_keeps (setClk_keeps (setF_keeps h))) h

theorem execSlowClockChange_keeps {running : Bool} (h : Holds P s) : Ends P (execSlowClockChange running s) :=
  setF_keeps h

theorem sourceChange_keeps {old new : W32} (h : Holds P s) : Holds P (sourceChange old new s) :=
  ite_keeps h (ite_keeps (ite_keeps h (setClk_keeps (enterHoldover_keeps h))) (ite_keeps (setClk_keeps h) (ite_keeps
    (setClk_keeps (when_keeps enterHoldover_keeps h)) h)))

theorem channelChange_keeps {old new : W32} (h : Holds P s) : Holds P (channelChange old new s) := setClk_keeps h

theorem nominalHeld_keeps (h : Holds P s) : Holds P (nominalHeld s) := when_keeps setClk_keeps h

theorem altReturn_keeps (h : Holds P s) : Holds P (altReturn s) := when_keeps setClk_keeps h

theorem tick_keeps (h : Holds P s) : Holds P (tick s) := unless_keeps setClk_keeps h

end Sys2Proof.Machine
end

section
/-!
PROOF. What every step keeps: the event collector (02 R58 to R64, 14 R415 to R417).
-/
namespace Sys2Proof.Machine

variable {P : Inv} {Q : StepInv} {s : State}

theorem coreCopies_keeps {sev : Nat} {rec : Bytes} (h : Holds P s) : Holds P (coreCopies sev rec s) :=
  foldl_keeps (fun _ _ h => ite_keeps (ite_keeps (qPush_keeps (mcPass_keeps h)) (bumpF_keeps h)) h) h

theorem storeRecord_keeps {esn : Nat} {r : EvRec} (h : Holds P s) : Holds P (storeRecord esn r s) := by
  unfold storeRecord
  extract_lets _ _ s3
  have h3 : Holds P s3 := when_keeps bumpF_keeps (trWrite_keeps h)
  exact coreCopies_keeps (unless_keeps bumpF_keeps h3)

theorem epochStart_keeps {r : EvRec} (h : Holds P s) : Holds P (epochStart r s) := storeRecord_keeps h

theorem issue_keeps {r : EvRec} (h : Holds P s) : Holds P (issue r s) := by
  unfold issue
  split
  · exact storeRecord_keeps (epochStart_keeps h)
  · exact ite_keeps (storeRecord_keeps (epochStart_keeps h)) (storeRecord_keeps h)

theorem acceptOldest_keeps {src : Nat} (h : Holds P s) : Holds P (acceptOldest src s) := by
  unfold acceptOldest
  extract_lets
  split
  · exact h
  · exact ite_keeps h (ite_keeps (issue_keeps h) h)

theorem execEventRecordAccept_keeps {src : Fin 108} (h : Holds P s) : Ends P (execEventRecordAccept src s) :=
  acceptOldest_keeps h

theorem inTurn_holds {α : Type} {src : Nat} {f : α → State → State} {l : List α}
    (hf : ∀ x s, Holds P s → Holds P (f x s)) (h : Holds P s) : Holds P (inTurn src f l s) :=
  inTurn_keeps hf (fun _ => acceptOldest_keeps) l h

theorem execEventRelease_keeps (h : Holds P s) : Ends P (execEventRelease s) :=
  ite_keeps h (foldl_keeps (fun _ _ => issue_keeps) h)

theorem execEventPacketSend_keeps (h : Holds P s) : Ends P (execEventPacketSend s) := by
  unfold execEventPacketSend
  split
  · exact h
  · refine ite_keeps (bumpF_keeps h) (ite_keeps ?_ (chainSend_keeps (bumpF_keeps h)))
    split
    · exact hostSend_keeps (mcPass_keeps (bumpF_keeps h))
    · exact bumpF_keeps h

theorem execEvtRead_keeps {r : Req} (h : Holds Q.toInv s) : Ends Q.toInv (execEvtRead r s) :=
  execReq_keeps (fun _ h => h) h

end Sys2Proof.Machine
end

section
/-!
PROOF. What every step keeps: the commands of the queues (10).
-/
namespace Sys2Proof.Machine

variable {P : Inv} {Q : StepInv} {s : State}

theorem dropOwner_keeps {q : Nat} (h : Holds P s) : Holds P (dropOwner q s) :=
  ite_keeps (bumpF_keeps h) (ite_keeps (bumpF_keeps h) (when_keeps bumpF_keeps h))

theorem qDiscards_keeps {qid : Nat} (h : Holds P s) : Holds P (qDiscards qid s) := setQ_keeps h

theorem unitPacket_keeps {qid : Nat} {c : QCat} {unit : BitVec 256} (h : Holds P s) :
    Holds P (unitPacket qid c unit s) :=
  ite_keeps h (ite_keeps (putQ_keeps (unpoison_keeps h)) (ite_keeps (dropOwner_keeps (qDiscards_keeps (qDrop_keeps h)))
    (ite_keeps (qDiscards_keeps (qOversize_keeps h)) h)))

theorem execQueueUnitWrite_keeps {q : Byte} {unit : BitVec 256} (h : Holds P s) :
    Ends P (execQueueUnitWrite q unit s) := by
  unfold execQueueUnitWrite
  split
  · exact h
  · exact ite_keeps (when_keeps dropOwner_keeps (qWord_keeps h)) (unitPacket_keeps h)

theorem execPacketCommit_keeps {q : Byte} {bytes : Nat} {mark : Bool} {tag : Byte} (h : Holds P s) :
    Ends P (execPacketCommit q bytes mark tag s) := by
  unfold execPacketCommit
  split
  · exact h
  · exact ite_keeps h (ite_keeps (setQ_keeps h) (by split; exacts [qPush_keeps h, putQ_keeps (unpoison_keeps h)]))

theorem execPacketAbort_keeps {q : Byte} (h : Holds P s) : Ends P (execPacketAbort q s) := by
  unfold execPacketAbort
  split
  · exact h
  · exact ite_keeps h (ite_keeps (setQ_keeps h) (when_keeps putQ_keeps h))

theorem execPacketRelease_keeps {q : Byte} {pos : Nat} (h : Holds P s) : Ends P (execPacketRelease q pos s) := by
  unfold execPacketRelease
  split
  · exact h
  · exact when_keeps qRelease_keeps h

theorem execQRead_keeps {r : Req} (h : Holds Q.toInv s) : Ends Q.toInv (execQRead r s) :=
  execReq_keeps (fun _ h => ite_answers (refuse_keeps h) (when_keeps qClear_keeps h)) h

theorem execQWm_keeps {r : Req} (h : Holds Q.toInv s) : Ends Q.toInv (execQWm r s) :=
  execReq_keeps (fun _ h => ite_answers (refuse_keeps h) (qMarks_keeps h)) h

end Sys2Proof.Machine
end

section
/-!
PROOF. What every step keeps: the host links (14 R388 to R391).
-/
namespace Sys2Proof.Machine

variable {P : Inv} {s : State}

theorem setSrcs_keeps {l : Nat} {f : List (Nat × BitVec 48 × Option (BitVec 12)) → List (Nat × BitVec 48 × Option
    (BitVec 12))} (h : Holds P s) :
    Holds P (setSrcs l f s) :=
  h

theorem hostTake_keeps {link : Fin 2} {n : Nat} (h : Holds P s) : Holds P (hostTake link n s) := by
  induction n generalizing s with
  | zero => exact h
  | succ n ih =>
    unfold hostTake
    split
    · exact h
    · split
      · exact ite_keeps h (ih (receiveCmd_keeps (setSrcs_keeps (qPop_keeps ‹_› h))))
      · exact h

theorem hostRequests_keeps {link : Fin 2} (h : Holds P s) : Holds P (hostRequests link s) := hostTake_keeps h

theorem hostRequest_keeps {link : Fin 2} {f : EthFrame} (h : Holds P s) : Holds P (hostRequest link f s) :=
  ite_keeps (bumpF_keeps (qPush_keeps h)) (hostRequests_keeps (setSrcs_keeps (qPush_keeps h)))

theorem hostPayload_keeps {link : Fin 2} {f : EthFrame} (h : Holds P s) : Holds P (hostPayload link f s) :=
  ite_keeps (hostRequest_keeps h) (ite_keeps (ite_keeps (bumpF_keeps h) (unless_keeps bumpF_keeps (qPush_keeps h)))
    (bumpF_keeps h))

theorem execHostFrameReceive_keeps {link : Fin 2} {f : EthFrame} (h : Holds P s) :
    Ends P (execHostFrameReceive link f s) :=
  ite_keeps h (ite_keeps (bumpF_keeps h) (ite_keeps (bumpF_keeps h) (ite_keeps (bumpF_keeps (qStream_keeps h))
    (hostPayload_keeps (qStream_keeps h)))))

theorem pauseEnds_keeps {l : Nat} (h : Holds P s) : Holds P (pauseEnds l s) := hostDrain_keeps (setF_keeps h)

theorem execPauseReceive_keeps {link : Fin 2} {quanta : W16} (h : Holds P s) :
    Ends P (execPauseReceive link quanta s) :=
  ite_keeps h (ite_keeps (pauseEnds_keeps h) (setF_keeps h))

theorem execPauseExpire_keeps {link : Fin 2} (h : Holds P s) : Ends P (execPauseExpire link s) := by
  unfold execPauseExpire
  split
  · exact when_keeps pauseEnds_keeps h
  · exact h

theorem eventLinkMoved_keeps {before : Option Nat} (h : Holds P s) : Holds P (eventLinkMoved before s) := by
  unfold eventLinkMoved
  split
  · exact h
  · exact ite_keeps h (unless_keeps raise_keeps h)

theorem execHostLinkState_keeps {link : Fin 2} {lock hiBer : Bool} {prbsErr : BitVec 12} (h : Holds P s) :
    Ends P (execHostLinkState link lock hiBer prbsErr s) := by
  unfold execHostLinkState
  refine ite_keeps h ?_
  extract_lets _ _ _ _ _ s6
  have h6 : Holds P s6 := when_keeps bumpF_keeps (when_keeps bumpF_keeps (setF_keeps (setF_keeps h)))
  exact when_keeps raise_keeps (eventLinkMoved_keeps (ite_keeps h6 (when_keeps (fun h => h) h6)))

theorem execHostLinkUp_keeps {link : Fin 2} (h : Holds P s) : Ends P (execHostLinkUp link s) :=
  ite_keeps (raise_keeps h) h

end Sys2Proof.Machine
end

section
/-!
PROOF. What every step keeps: the line ports and their shaping banks (03, 04 R114 to R118).
-/
namespace Sys2Proof.Machine

variable {P : Inv} {Q : StepInv} {s : State}

theorem fadeDone_keeps {p : Nat} (h : Holds P s) : Holds P (fadeDone p s) :=
  when_keeps (fun h => setF_keeps (setPort_keeps h)) (setF_keeps (setPort_keeps h))

theorem setDriver_keeps {p : Nat} {nb on : Bool} (h : Holds P s) : Holds P (setDriver p nb on s) :=
  unless_keeps (fun h => when_keeps fadeDone_keeps h) (setF_keeps (unless_keeps setPort_keeps (setPort_keeps h)))

theorem setPga_keeps {p gain : Nat} (h : Holds P s) : Holds P (setPga p gain s) :=
  ite_keeps h (setF_keeps (setPort_keeps h))

theorem driverOff_keeps {p : Nat} (h : Holds P s) : Holds P (driverOff p s) := by
  unfold driverOff
  exact setDriver_keeps (setDriver_keeps (by split; exacts [setPort_keeps h, h]))

theorem loadPreset_keeps {p : Nat} {bankB : Bool} {id : Nat} (h : Holds P s) : Holds P (loadPreset p bankB id s) :=
  ite_keeps (setF_keeps (setPort_keeps h)) (setF_keeps (setPort_keeps h))

theorem takeBankB_keeps {p id : Nat} (h : Holds P s) : Holds P (takeBankB p id s) :=
  ite_keeps (setF_keeps (setF_keeps (loadPreset_keeps h))) h

theorem giveBankB_keeps {p : Nat} (h : Holds P s) : Holds P (giveBankB p s) :=
  ite_keeps (setF_keeps (setF_keeps (setPort_keeps h))) h

theorem portRests_keeps {p : Nat} (h : Holds P s) : Holds P (portRests p s) :=
  setPort_keeps (giveBankB_keeps (driverOff_keeps h))

theorem fadeBegin_keeps {p : Nat} (h : Holds P s) : Holds P (fadeBegin p s) := setF_keeps (setPort_keeps h)

theorem swapTo_keeps {p bank : Nat} (h : Holds P s) : Holds P (swapTo p bank s) :=
  unless_keeps (fun h => ite_keeps (setPort_keeps h) (fadeBegin_keeps h)) (setF_keeps h)

theorem losePortFrom_keeps {src p cause newSt : Nat} (h : Holds P s) : Holds P (losePortFrom src p cause newSt s) :=
  ite_keeps (ite_keeps h (when_keeps raise_keeps (raise_keeps (setF_keeps (setPort_keeps (ite_keeps (setF_keeps
    (driverOff_keeps h)) h)))))) (ite_keeps (when_keeps raise_keeps (raise_keeps (setF_keeps (setF_keeps (setPort_keeps
    (portRests_keeps h)))))) h)

theorem losePort_keeps {p cause newSt : Nat} (h : Holds P s) : Holds P (losePort p cause newSt s) :=
  losePortFrom_keeps h

theorem clampOff_keeps {p : Nat} (h : Holds P s) : Holds P (clampOff p s) := by
  unfold clampOff
  exact setPort_keeps (driverOff_keeps h)

theorem execClampEpisodeEnd_keeps {p : Fin 6} (h : Holds P s) : Ends P (execClampEpisodeEnd p s) :=
  ite_keeps h (when_keeps (fun h => losePort_keeps (clampOff_keeps h)) (setPort_keeps (bumpF_keeps h)))

theorem execClampTimeout_keeps {p : Fin 6} (h : Holds P s) : Ends P (execClampTimeout p s) :=
  ite_keeps h (losePort_keeps (clampOff_keeps (bumpF_keeps h)))

theorem execPortUnitFault_keeps {p : Fin 6} {unit : Fin 4} {err : BitVec 8} (h : Holds P s) :
    Ends P (execPortUnitFault p unit err s) :=
  ite_keeps h (losePort_keeps (setF_keeps (setF_keeps (bumpF_keeps h))))

theorem execAgcUpdate_keeps {p : Fin 6} {rx : List Int} (h : Holds P s) : Ends P (execAgcUpdate p rx s) :=
  ite_keeps h (ite_keeps (setPga_keeps h) (unless_keeps setPga_keeps h))

theorem execReadmitPeriodEnd_keeps (h : Holds P s) : Ends P (execReadmitPeriodEnd s) :=
  foldl_keeps (fun _ _ h => setF_keeps (setPort_keeps h)) h

theorem execPortStartupChecks_keeps {p : Fin 6} (h : Holds P s) : Ends P (execPortStartupChecks p s) :=
  ite_keeps (takeBankB_keeps (setF_keeps (setPort_keeps h))) h

theorem checkOutcome_keeps {p res : Nat} {rec : Bytes} {m : SoundMeas} (h : Holds P s) :
    Holds P (checkOutcome p res rec m s) :=
  unless_keeps (fun h => raise_keeps (setF_keeps (setF_keeps (bumpF_keeps h)))) (setPort_keeps h)

theorem sieveZero_keeps {p ch : Nat} (h : Holds P s) : Holds P (sieveZero p ch s) := h

theorem sieveReset_keeps {p : Nat} (h : Holds P s) : Holds P (sieveReset p s) :=
  foldl_keeps (fun _ _ => sieveZero_keeps) h

theorem settleGroup_keeps {p : Nat} (h : Holds P s) : Holds P (settleGroup p s) := by
  simpa only [settleGroup, Holds] using h

theorem turnsNext_keeps {p t : Nat} (h : Holds P s) : Holds P (turnsNext p t s) := h

theorem execPortChecksDone_keeps {p : Fin 6} {m : SoundMeas} (h : Holds P s) : Ends P (execPortChecksDone p m s) := by
  unfold execPortChecksDone
  split
  · exact h
  · exact checkOutcome_keeps (turnsNext_keeps (setPort_keeps (sieveReset_keeps (portRests_keeps h))))

theorem execPortSound_keeps {r : Req} (h : Holds Q.toInv s) : Ends Q.toInv (execPortSound r s) :=
  execReq_keeps (fun _ h => ite_answers (refuse_keeps h) (deferIf_keeps h (fun _ => setPort_keeps))) h

theorem execPortSoundDone_keeps {p : Fin 6} {m : SoundMeas} (h : Holds Q.toInv s) :
    Ends Q.toInv (execPortSoundDone p m s) := by
  unfold execPortSoundDone
  split
  · exact h
  · exact finish_keeps (checkOutcome_keeps (setPort_keeps (portRests_keeps h)))

theorem execPortSoundRead_keeps {r : Req} (h : Holds Q.toInv s) : Ends Q.toInv (execPortSoundRead r s) := by
  unfold execPortSoundRead
  exact execReq_keeps (fun _ h => (by split; exacts [h, refuse_keeps h])) h

theorem execPortAdmit_keeps {r : Req} (h : Holds Q.toInv s) : Ends Q.toInv (execPortAdmit r s) :=
  execReq_keeps (fun _ h => ite_answers (setPort_keeps h) (refuse_keeps h)) h

theorem enterService_keeps {p : Nat} (h : Holds P s) : Holds P (enterService p s) :=
  when_keeps (fun h => setPort_keeps (takeBankB_keeps h)) (settleGroup_keeps (setPort_keeps (setF_keeps
    (setF_keeps h))))

theorem portMoveDue_keeps {p : Nat} (h : Holds P s) : Holds P (portMoveDue p s) := by
  unfold portMoveDue
  extract_lets
  split
  · exact h
  · exact setPort_keeps (setPort_keeps (bumpF_keeps (setF_keeps h)))
  · exact setPort_keeps (setPort_keeps (enterService_keeps h))
  · exact ite_keeps h (setPort_keeps (enterService_keeps h))
  · exact raise_keeps (setPort_keeps (setF_keeps (setPort_keeps (enterService_keeps h))))

theorem portMovesDue_keeps (h : Holds P s) : Holds P (portMovesDue s) := foldl_keeps (fun _ _ => portMoveDue_keeps) h

theorem evalPort_keeps {p : Nat} (h : Holds P s) : Holds P (evalPort p s) :=
  ite_keeps (ite_keeps (setPort_keeps h) (ite_keeps (when_keeps losePort_keeps (setPort_keeps h)) (setPort_keeps h)))
    (ite_keeps (ite_keeps (when_keeps setPort_keeps (setPort_keeps h)) (setPort_keeps h)) h)

theorem recoveryStep_keeps {p : Nat} (h : Holds P s) : Holds P (recoveryStep p s) := by
  unfold recoveryStep
  split
  · exact ite_keeps (when_keeps (fun h => unless_keeps fadeDone_keeps (swapTo_keeps h)) (setPort_keeps h)) h
  · exact h

theorem execShapeFadeStart_keeps {p : Fin 6} (h : Holds P s) : Ends P (execShapeFadeStart p s) :=
  when_keeps fadeBegin_keeps h

theorem execShapeFadeEnd_keeps {p : Fin 6} (h : Holds P s) : Ends P (execShapeFadeEnd p s) :=
  when_keeps fadeDone_keeps h

theorem execShapeWrite_keeps {r : Req} (h : Holds Q.toInv s) : Ends Q.toInv (execShapeWrite r s) := by
  unfold execShapeWrite
  refine execReq_keeps (fun _ h => ?_) h
  extract_lets
  split
  · exact refuse_keeps h
  · exact ite_keeps (setF_keeps (setPort_keeps h)) (setF_keeps (setPort_keeps h))

theorem execShapePreset_keeps {r : Req} (h : Holds Q.toInv s) : Ends Q.toInv (execShapePreset r s) := by
  unfold execShapePreset
  exact execReq_keeps (fun _ h => (by extract_lets; split; exacts [refuse_keeps h, loadPreset_keeps h])) h

theorem execShapeSwap_keeps {r : Req} (h : Holds Q.toInv s) : Ends Q.toInv (execShapeSwap r s) := by
  unfold execShapeSwap
  refine execReq_keeps (fun _ h => ite_answers (refuse_keeps h) ?_) h
  split
  · exact bumpF_keeps (setF_keeps (setPort_keeps h))
  · exact ite_answers (setF_keeps (setPort_keeps h)) (swapTo_keeps h)

theorem execShapeRead_keeps {r : Req} (h : Holds Q.toInv s) : Ends Q.toInv (execShapeRead r s) :=
  execReq_keeps (fun _ h => h) h

end Sys2Proof.Machine
end

section
/-!
PROOF. What every step keeps: the node table, routes and tone maps (08 R256 to R264).
-/
namespace Sys2Proof.Machine

variable {P : Inv} {s : State}

theorem setLk_keeps {f : LinkSt → LinkSt} (h : Holds P s) : Holds P (setLk f s) := h

theorem setGrpL_keeps {g : Nat} {f : GrpLink → GrpLink} (h : Holds P s) : Holds P (setGrpL g f s) := setLk_keeps h

theorem nSet_keeps {n off len v : Nat} (h : Holds P s) : Holds P (nSet n off len v s) := unless_keeps memSetNat_keeps h

theorem nSetState_keeps {n st : Nat} (h : Holds P s) : Holds P (nSetState n st s) := nSet_keeps h

theorem nSetMapreq_keeps {n : Nat} {b : Bool} (h : Holds P s) : Holds P (nSetMapreq n b s) := unless_keeps nSet_keeps h

theorem setMapRef_keeps {n r : Nat} {v : Option Nat} (h : Holds P s) : Holds P (setMapRef n r v s) := nSet_keeps h

theorem dropMap_keeps {n dir idx : Nat} (h : Holds P s) : Holds P (dropMap n dir idx s) := by
  unfold dropMap
  split
  · exact h
  · exact setMapRef_keeps (memWrite_keeps h)

theorem dropMaps_keeps {n : Nat} (h : Holds P s) : Holds P (dropMaps n s) := by
  unfold dropMaps
  exact nSet_keeps (foldl_keeps (fun _ _ h => (by split; exacts [memWrite_keeps h, h])) h)

theorem refreshNode_keeps {n : Nat} (h : Holds P s) : Holds P (refreshNode n s) := nSetMapreq_keeps (dropMaps_keeps h)

theorem storeMap_keeps {n dir idx id : Nat} {map : Bytes} (h : Holds P s) :
    Holds P (storeMap n dir idx id map s).1 := by
  unfold storeMap
  split
  · exact h
  · exact memWrite_keeps (when_keeps (fun h => unless_keeps (fun h => raise_keeps (setLk_keeps h)) (bumpF_keeps h))
      (when_keeps setMapRef_keeps h))

theorem reserveAir_keeps {g : Nat} {l : List AirResv} (h : Holds P s) : Holds P (reserveAir g l s) := setGrpL_keeps h

end Sys2Proof.Machine
end

section
/-!
PROOF. What every step keeps: the key store, its counters and the sealing of link frames (11 R313 to R325, 08 R231).
-/
namespace Sys2Proof.Machine

variable {P : Inv} {s : State}

theorem setClo_keeps {f : ClocheSt → ClocheSt} (h : Holds P s) : Holds P (setClo f s) := h

theorem setKeySlot_keeps {n : Nat} {b : Bytes} (h : Holds P s) : Holds P (setKeySlot n b s) := setClo_keeps h

theorem setKeyCtr_keeps {n : Nat} {b : Bytes} (h : Holds P s) : Holds P (setKeyCtr n b s) := setClo_keeps h

theorem setKFlag_keeps {n i : Nat} {b : Bool} (h : Holds P s) : Holds P (setKFlag n i b s) := setKeySlot_keeps h

theorem setFcTx_keeps {n v : Nat} (h : Holds P s) : Holds P (setFcTx n v s) := setKeyCtr_keeps h

theorem setFcRx_keeps {n v : Nat} (h : Holds P s) : Holds P (setFcRx n v s) := setKeyCtr_keeps h

theorem slotsUsed_keeps (h : Holds P s) : Holds P (slotsUsed s) := setF_keeps h

theorem counterWarn_keeps {n : Nat} (h : Holds P s) : Holds P (counterWarn n s) :=
  ite_keeps h (raise_keeps (setKFlag_keeps h))

theorem countUse_keeps {n : Nat} {isOpen : Bool} (h : Holds P s) : Holds P (countUse n isOpen s) :=
  when_keeps (fun h => raise_keeps (setKFlag_keeps h)) (setClo_keeps h)

theorem resetUse_keeps {n : Nat} (h : Holds P s) : Holds P (resetUse n s) := setClo_keeps h

theorem reserveCtr_keeps {n : Nat} (h : Holds P s) : Holds P (reserveCtr n s).1 :=
  ite_fst_keeps (setKFlag_keeps h) (countUse_keeps (when_keeps counterWarn_keeps (setFcTx_keeps h)))

theorem setDrbg_keeps {d : Drbg} {req : Nat} (h : Holds P s) : Holds P (setDrbg d req s) := setClo_keeps h

theorem drbgHalts_keeps (h : Holds P s) : Holds P (drbgHalts s) :=
  ite_keeps h (raise_keeps (raise_keeps (setF_keeps h)))

theorem drbgSpent_keeps (h : Holds P s) : Holds P (drbgSpent s) := when_keeps drbgHalts_keeps h

theorem drawBytes_keeps {n : Nat} (h : Holds P s) : Holds P (drawBytes n s).2 :=
  drbgSpent_keeps (takeFree_keeps (setDrbg_keeps h))

theorem drawMask_keeps (h : Holds P s) : Holds P (drawMask s) :=
  ite_keeps (setClo_keeps h) (setClo_keeps (drawBytes_keeps h))

theorem splitKey_keeps {key : Bytes} (h : Holds P s) : Holds P (splitKey key s).2 := drawBytes_keeps h

theorem engTake_keeps {e : Nat} {r : EngRun} (h : Holds P s) : Holds P (engTake e r s) := setF_keeps (setClo_keeps h)

theorem engLoad_keeps {e : Nat} {j : CJob} {key nonce desc : Bytes} (h : Holds P s) :
    Holds P (engLoad e j key nonce desc s) :=
  engTake_keeps (splitKey_keeps h)

theorem engRest_keeps {e : Nat} (h : Holds P s) : Holds P (engRest e s) := setF_keeps (setClo_keeps h)

theorem addJob_keeps {j : CJob} (h : Holds P s) : Holds P (addJob j s) := setClo_keeps h

theorem takeJob_keeps {j : CJob} (h : Holds P s) : Holds P (takeJob j s) := setClo_keeps h

theorem sealLink_keeps {slot ty : Nat} {ackp mapreq : Bool} {fin seq ttl : Nat} {ack body : Bytes} (h : Holds P s) :
    Holds P (sealLink slot ty ackp mapreq fin seq ttl ack body s).1 := by
  unfold sealLink
  split <;> exact fst_keeps ‹_› (reserveCtr_keeps h)

theorem authFail_keeps (h : Holds P s) : Holds P (authFail s) := bumpF_keeps h

theorem replayed_keeps (h : Holds P s) : Holds P (replayed s) := bumpF_keeps h

theorem takeFcRx_keeps {slot fc : Nat} (h : Holds P s) : Holds P (takeFcRx slot fc s) :=
  countUse_keeps (when_keeps counterWarn_keeps (setFcRx_keeps h))

end Sys2Proof.Machine
end

section
/-!
PROOF. What every step keeps: broadband transmission (04).
-/
namespace Sys2Proof.Machine

variable {P : Inv} {Q : StepInv} {s : State}

theorem adoptPortTx_keeps {p : Nat} {nb : Bool} (h : Holds P s) : Holds P (adoptPortTx p nb s) := by
  unfold adoptPortTx
  split
  · exact h
  · exact when_keeps adopt_keeps (ite_keeps (setF_keeps h) (setF_keeps h))

theorem dutyStep_keeps {p : Nat} (h : Holds P s) : Holds P (dutyStep p s).1 := unless_keeps bumpF_keeps h

theorem dutyPorts_keeps {ports : List Nat} (h : Holds P s) : Holds P (dutyPorts ports s).1 :=
  foldl_fst_keeps (fun _ _ => dutyStep_keeps) h

theorem sendBb_keeps {b : TxBurst} {data : Bool} {under : Option Nat} (h : Holds P s) :
    Holds P (sendBb b data under s) :=
  unless_keeps (fun h => emit_keeps (reserveAir_keeps h)) (when_keeps bumpF_keeps (foldl_keeps (fun _ _ h => when_keeps
    bumpF_keeps (when_keeps bumpF_keeps (bumpF_keeps (setDriver_keeps (setPort_keeps h))))) (foldl_keeps
    (fun _ _ => adoptPortTx_keeps) (ite_fst_keeps (dutyPorts_keeps h) h))))

theorem setTx_keeps {id : Nat} {f : TxFrame → TxFrame} (h : Holds P s) : Holds P (setTx id f s) := setLk_keeps h

theorem dropTx_keeps {f : TxFrame} (h : Holds P s) : Holds P (dropTx f s) := by
  unfold dropTx
  extract_lets
  split
  · exact qRelease_keeps (setLk_keeps h)
  · exact setLk_keeps h

theorem moveVa_keeps {n : Nat} (h : Holds P s) : Holds P (moveVa n s) := nSet_keeps h

theorem readTx_keeps {f : TxFrame} {b : Bytes} {t : State} (he : readTx f s = some (b, t)) (h : Holds P s) : Holds P t := by
  unfold readTx at he
  split at he
  · cases he
    exact h
  · obtain ⟨e, hq, hx⟩ := Option.map_eq_some_iff.mp he
    cases hx
    exact qReadAt_keeps hq h

theorem frameSent_keeps {id : Nat} {nego : List Nat} (h : Holds P s) : Holds P (frameSent id nego s) := by
  unfold frameSent
  split
  · exact h
  · exact ite_keeps (dropTx_keeps h) (setTx_keeps h)

theorem requeueTx_keeps {id : Nat} (h : Holds P s) : Holds P (requeueTx id s) := setTx_keeps h

theorem takeBurst_keeps {b : TxBurst} {send : State → State} (hsend : ∀ x1, Holds P x1 → Holds P (send x1))
    (h : Holds P s) :
    Holds P (takeBurst b send s) :=
  ite_keeps (requeueTx_keeps (setGrpL_keeps h)) (hsend _ (setGrpL_keeps h))

theorem execBbBurstTransmit_keeps {g : Fin 6} {underrunAfter : Option Nat} (h : Holds P s) :
    Ends P (execBbBurstTransmit g underrunAfter s) := by
  unfold execBbBurstTransmit
  split
  · exact h
  · exact takeBurst_keeps (fun _ h => frameSent_keeps (sendBb_keeps h)) h

theorem previewPorts_keeps (h : Holds P s) : Holds P (previewPorts s) := by
  unfold previewPorts
  refine foldl_keeps (fun _ _ h => ?_) h
  extract_lets
  split
  · exact h
  · exact setF_keeps (setPort_keeps h)
  · exact ite_keeps h (setF_keeps (setPort_keeps h))
  · exact setF_keeps (setPort_keeps h)

theorem preview_keeps (h : Holds P s) : Holds P (preview s) := previewPorts_keeps (adoptBound_keeps h)

theorem addPrec_keeps {n : Nat} (h : Holds P s) : Holds P (addPrec n s) := h

theorem encodeBb_keeps {g : Nat} {f : TxFrame} {a : Grant} (h : Holds P s) : Holds P (encodeBb g f a s) := by
  unfold encodeBb
  extract_lets n v cfg off t0 lim low delta mr m rate fit resv h0 h1 word b s1
  have h1 : Holds P s1 := addPrec_keeps h
  clear_value b s1
  exact ite_keeps (requeueTx_keeps h) (setTx_keeps (setGrpL_keeps h1))

theorem encodeNb_keeps {g : Nat} {f : TxFrame} {o : OpenSt} (h : Holds P s) : Holds P (encodeNb g f o s) :=
  ite_keeps (requeueTx_keeps h) (setTx_keeps (setGrpL_keeps (addPrec_keeps h)))

theorem execDownlinkEncode_keeps {g : Fin 6} {node : BitVec 12} {narrowband : Bool} (h : Holds P s) :
    Ends P (execDownlinkEncode g node narrowband s) := by
  unfold execDownlinkEncode
  split
  · exact h
  · split
    · exact moveVa_keeps (dropTx_keeps h)
    · refine ite_keeps ?_ ?_
      · split
        · exact encodeNb_keeps (readTx_keeps ‹_› h)
        · exact requeueTx_keeps (readTx_keeps ‹_› h)
      · split
        · exact encodeBb_keeps (readTx_keeps ‹_› h)
        · exact requeueTx_keeps (readTx_keeps ‹_› h)

theorem execBbMaskWrite_keeps {r : Req} (h : Holds Q.toInv s) : Ends Q.toInv (execBbMaskWrite r s) :=
  execReq_keeps (fun _ h => h) h

theorem execBbMaskRead_keeps {r : Req} (h : Holds Q.toInv s) : Ends Q.toInv (execBbMaskRead r s) :=
  execReq_keeps (fun _ h => h) h

theorem execBbTxTest_keeps {r : Req} (h : Holds Q.toInv s) : Ends Q.toInv (execBbTxTest r s) :=
  execReq_keeps (fun _ h => ite_answers (refuse_keeps h) (deferIf_keeps h (fun _ => setPort_keeps))) h

theorem testEnds_keeps {p : Nat} (h : Holds P s) : Holds P (testEnds p s) :=
  setPort_keeps (giveBankB_keeps (driverOff_keeps h))

theorem execBbTxTestDone_keeps {p : Fin 6} {rmsMv clipped bursts : W16} (h : Holds Q.toInv s) :
    Ends Q.toInv (execBbTxTestDone p rmsMv clipped bursts s) := by
  unfold execBbTxTestDone
  split
  · exact h
  · exact finish_keeps (testEnds_keeps (bumpF_keeps (bumpF_keeps h)))

theorem execPortRemove_keeps {r : Req} (h : Holds Q.toInv s) : Ends Q.toInv (execPortRemove r s) :=
  execReq_keeps (fun _ h => ite_answers (refuse_keeps h) (ite_answers (refuse_keeps h) (losePort_keeps h))) h

end Sys2Proof.Machine
end

section
/-!
PROOF. What every step keeps: the measures of a burst that the receivers keep (05).
-/
namespace Sys2Proof.Machine

variable {P : Inv} {s : State}

theorem noisePut_keeps {p bin g : Nat} {v : Rat} (h : Holds P s) : Holds P (noisePut p bin g v s) := h

theorem residualNoise_keeps {f : RxFrame} (h : Holds P s) : Holds P (residualNoise f s) :=
  foldl_keeps (fun _ _ h => foldl_keeps (fun _ _ h => foldl_keeps (fun _ _ => unless_keeps noisePut_keeps) h) h) h

end Sys2Proof.Machine
end

section
/-!
PROOF. What every step keeps: the codec (06).
-/
namespace Sys2Proof.Machine

variable {P : Inv} {Q : StepInv} {s : State}

theorem setDec_keeps {f : DecSt → DecSt} (h : Holds P s) : Holds P (setDec f s) := h

theorem setBb_keeps {f : BbSt → BbSt} (h : Holds P s) : Holds P (setBb f s) := h

theorem setRx_keeps {g : Nat} {f : GrpRx → GrpRx} (h : Holds P s) : Holds P (setRx g f s) := setBb_keeps h

theorem setNb_keeps {f : NbSt → NbSt} (h : Holds P s) : Holds P (setNb f s) := h

theorem setNbRx_keeps {i : Nat} {f : NbRx → NbRx} (h : Holds P s) : Holds P (setNbRx i f s) := setNb_keeps h

theorem recomputeCap_keeps (h : Holds P s) : Holds P (recomputeCap s) :=
  ite_keeps (unless_keeps raise_keeps (setDec_keeps (setF_keeps (setF_keeps (setF_keeps h))))) (when_keeps raise_keeps
    (setDec_keeps (setF_keeps (setF_keeps (setF_keeps h)))))

theorem setFrame_keeps {f : RxFrame} (h : Holds P s) : Holds P (setFrame f s) := setDec_keeps h

theorem dropFrame_keeps {id : Nat} (h : Holds P s) : Holds P (dropFrame id s) := setDec_keeps h

theorem retireFrame_keeps {f : RxFrame} (h : Holds P s) : Holds P (retireFrame f s) := dropFrame_keeps (setDec_keeps h)

theorem furrowFull_keeps (h : Holds P s) : Holds P (furrowFull s) := setDec_keeps (bumpF_keeps h)

theorem furrowReport_keeps (h : Holds P s) : Holds P (furrowReport s) := unless_keeps raise_keeps (setDec_keeps h)

theorem decStatus_keeps (h : Holds P s) : Holds P (decStatus s) := setF_keeps (setF_keeps h)

theorem execCodewordDecodeStart_keeps {frame cw : Nat} {cluster : Fin 20} (h : Holds P s) :
    Ends P (execCodewordDecodeStart frame cw cluster s) := by
  unfold execCodewordDecodeStart
  split
  · exact h
  · exact ite_keeps (decStatus_keeps (setF_keeps (setF_keeps (setFrame_keeps h)))) h

theorem execOuterRoundStart_keeps {frame : Nat} (h : Holds P s) : Ends P (execOuterRoundStart frame s) := by
  unfold execOuterRoundStart
  split
  · exact h
  · exact when_keeps setDec_keeps h

theorem phyPorts_keeps {ps : List Nat} {mon : List (Nat × Nat)} (h : Holds P s) : Holds P (phyPorts ps mon s) := by
  unfold phyPorts
  extract_lets _ best _ s4
  have h4 : Holds P s4 := foldl_keeps (fun _ _ => setPort_keeps) (foldl_keeps (fun _ _ => bumpF_keeps) h)
  clear_value best
  split
  · exact bumpF_keeps h4
  · exact h4

theorem failedQuality_keeps {n lqi : Nat} {pl ps : List Nat} {mon : List (Nat × Nat)} (h : Holds P s) :
    Holds P (failedQuality n lqi pl ps mon s) :=
  ite_keeps h (phyPorts_keeps (nSet_keeps (foldl_keeps (fun _ _ => nSet_keeps) h)))

theorem keepReport_keeps {f : RxFrame} {ok : Bool} {lqi evm : Nat} {pl : List Nat} (h : Holds P s) :
    Holds P (keepReport f ok lqi evm pl s) :=
  foldl_keeps (fun _ _ => setF_keeps) (setRx_keeps h)

theorem takeSnr_keeps {f : RxFrame} {q : FrameQuality} (h : Holds P s) : Holds P (takeSnr f q s) :=
  when_keeps setBb_keeps h

theorem reportOnly_keeps {f : RxFrame} (h : Holds P s) : Holds P (reportOnly f s) := takeSnr_keeps (keepReport_keeps h)

theorem nbKeepReport_keeps {f : RxFrame} {k : Nat} {ok : Bool} {lqi : Nat} (h : Holds P s) :
    Holds P (nbKeepReport f k ok lqi s) :=
  setNbRx_keeps h

theorem countFail_keeps {f : RxFrame} (h : Holds P s) : Holds P (countFail f s) :=
  when_keeps dropMap_keeps (setLk_keeps h)

theorem frameLost_keeps {f : RxFrame} {lqi : Nat} {pl : List Nat} {mon : List (Nat × Nat)} (h : Holds P s) :
    Holds P (frameLost f lqi pl mon s) :=
  when_keeps setLk_keeps (when_keeps countFail_keeps (when_keeps setLk_keeps (failedQuality_keeps (bumpF_keeps h))))

theorem frameEnd_keeps {f : RxFrame} (h : Holds P s) : Holds P (frameEnd f s) := by
  unfold frameEnd
  extract_lets _ _ _ _ _ _ _ s8 _ _ s11
  have h8 : Holds P s8 := when_keeps residualNoise_keeps h
  have h11 : Holds P s11 := by
    unfold s11
    split
    · exact nbKeepReport_keeps (setDec_keeps (retireFrame_keeps h8))
    · exact takeSnr_keeps (keepReport_keeps (setDec_keeps (retireFrame_keeps h8)))
  exact decStatus_keeps (ite_keeps (addJob_keeps (setLk_keeps h11)) (frameLost_keeps h11))

theorem maybeEnd_keeps {f : RxFrame} (h : Holds P s) : Holds P (maybeEnd f s) :=
  ite_keeps (frameEnd_keeps h) (setFrame_keeps h)

theorem setClSt_keeps {c : Nat} {v : ClSt} (h : Holds P s) : Holds P (setClSt c v s) := h

theorem reslice_keeps (h : Holds P s) : Holds P (reslice s) := h

theorem giveSlice_keeps {c sp : Nat} (h : Holds P s) : Holds P (giveSlice c sp s) := h

theorem restUnit_keeps {c : Nat} (h : Holds P s) : Holds P (restUnit c s) := setF_keeps (setF_keeps h)

theorem takeoverReset_keeps {c : Nat} (h : Holds P s) : Holds P (takeoverReset c s) := by
  unfold takeoverReset
  extract_lets s1
  have h1 : Holds P s1 := by
    unfold s1
    split
    · exact giveSlice_keeps (setClSt_keeps h)
    · exact h
  exact resetObjs_keeps (setClSt_keeps h1)

theorem leaveDue_keeps (h : Holds P s) : Holds P (leaveDue s) :=
  foldl_keeps (fun _ _ => when_keeps takeoverReset_keeps) h

theorem abandonFrame_keeps {id : Nat} (h : Holds P s) : Holds P (abandonFrame id s) := by
  unfold abandonFrame
  refine decStatus_keeps (leaveDue_keeps (dropFrame_keeps ?_))
  split
  · exact foldl_keeps (fun _ _ h => (by split; exacts [restUnit_keeps h, restUnit_keeps h, h])) h
  · exact h

theorem execCodewordIteration_keeps {frame cw : Nat} (h : Holds P s) : Ends P (execCodewordIteration frame cw s) := by
  unfold execCodewordIteration
  change Holds P (match decFrame s frame with | none => s | some f => _)
  split
  · exact h
  · extract_lets w runs held x conv w' s4 s5
    have h4 : Holds P s4 := ite_keeps (addPrec_keeps h) h
    have h5 : Holds P s5 := by
      unfold s5
      split
      · exact when_keeps restUnit_keeps h4
      · exact when_keeps restUnit_keeps h4
      · exact h4
    exact ite_keeps h (ite_keeps (leaveDue_keeps (maybeEnd_keeps (when_keeps bumpF_keeps h5)))
      (leaveDue_keeps (maybeEnd_keeps (when_keeps bumpF_keeps h5))))

theorem execReprieveStart_keeps {cluster : Fin 20} (h : Holds P s) : Ends P (execReprieveStart cluster s) := by
  unfold execReprieveStart
  refine ite_keeps h ?_
  split
  · exact h
  · split
    · exact h
    · exact setF_keeps (setF_keeps (setFrame_keeps h))

theorem execReprieveTimeout_keeps (h : Holds P s) : Ends P (execReprieveTimeout s) := by
  unfold execReprieveTimeout
  split
  · exact h
  · split
    · exact h
    · exact maybeEnd_keeps h

theorem execDecodeLag_keeps (h : Holds P s) : Ends P (execDecodeLag s) := by
  unfold execDecodeLag
  split
  · exact h
  · exact ite_keeps (raise_keeps (setF_keeps h)) h

theorem execLagModeExit_keeps (h : Holds P s) : Ends P (execLagModeExit s) := when_keeps setF_keeps h

theorem restartOn_keeps {cl : Nat} {sp : Option Nat} (h : Holds P s) : Holds P (restartOn cl sp s) :=
  setDec_keeps (unless_keeps setF_keeps h)

theorem takeover_keeps {cl : Nat} (h : Holds P s) : Holds P (takeover cl s).1 := by
  unfold takeover
  split
  · exact giveSlice_keeps (setClSt_keeps (restartOn_keeps h))
  · exact reslice_keeps (restartOn_keeps h)

theorem clusterFault_keeps {c unit err : Nat} (h : Holds P s) : Holds P (clusterFault c unit err s) := by
  unfold clusterFault
  refine ite_keeps h ?_
  extract_lets s1
  have h1 : Holds P s1 := setF_keeps (setF_keeps (bumpF_keeps h))
  exact ite_keeps (when_keeps raise_keeps (raise_keeps (recomputeCap_keeps (takeover_keeps (setClSt_keeps h1)))))
    (raise_keeps (setClSt_keeps h1))

theorem execClusterFault_keeps {c : Fin 20} {unit : Fin 4} {err : BitVec 8} (h : Holds P s) :
    Ends P (execClusterFault c unit err s) :=
  clusterFault_keeps h

theorem setLane_keeps {l2d : Bool} {i : Nat} {v : LaneSt} (h : Holds P s) : Holds P (setLane l2d i v s) := ite_keeps h h

theorem laneFault_keeps {l2d : Bool} {lane : Nat} (h : Holds P s) : Holds P (laneFault l2d lane s) := by
  unfold laneFault
  refine ite_keeps h (when_keeps raise_keeps (raise_keeps ?_))
  split
  · exact setLane_keeps (setLane_keeps h)
  · exact setLane_keeps h

theorem execD2dLaneFault_keeps {l2d : Bool} {lane : Fin 40} (h : Holds P s) : Ends P (execD2dLaneFault l2d lane s) :=
  laneFault_keeps h

theorem retireSpareLane_keeps {l2d : Bool} {i : Nat} (h : Holds P s) : Holds P (retireSpareLane l2d i s) :=
  ite_keeps (raise_keeps (setLane_keeps h)) h

theorem execSpareFailed_keeps {u : SpareUnit} (h : Holds P s) : Ends P (execSpareFailed u s) := by
  unfold execSpareFailed
  split
  · split
    · exact h
    · exact clusterFault_keeps h
  · exact when_keeps bankFailing_keeps h
  · exact retireSpareLane_keeps h
  · exact retireSpareLane_keeps h

theorem execSpareLaneRetrain_keeps {failedD2L failedL2D : List (Fin 40)} (h : Holds P s) :
    Ends P (execSpareLaneRetrain failedD2L failedL2D s) :=
  foldl_keeps (fun _ _ => retireSpareLane_keeps) (foldl_keeps (fun _ _ => retireSpareLane_keeps) h)

theorem execCapacityUpdate_keeps (h : Holds P s) : Ends P (execCapacityUpdate s) :=
  ite_keeps h (raise_keeps (recomputeCap_keeps (setObj_keeps h)))

theorem execDecLast_keeps {r : Req} (h : Holds Q.toInv s) : Ends Q.toInv (execDecLast r s) := by
  unfold execDecLast
  exact execReq_keeps (fun _ h => (by split; exacts [h, refuse_keeps h])) h

theorem execCodecTest_keeps {r : Req} (h : Holds Q.toInv s) : Ends Q.toInv (execCodecTest r s) :=
  execReq_keeps (fun _ h => ite_answers (refuse_keeps h) (ite_answers (refuse_keeps h) (deferIf_keeps h
    (fun _ h => h)))) h

theorem unitTested_keeps {c : Nat} {pass : Bool} (h : Holds P s) : Holds P (unitTested c pass s) :=
  setF_keeps (setF_keeps h)

theorem codecFails_keeps {c : Nat} (h : Holds P s) : Holds P (codecFails c s) := when_keeps clusterFault_keeps h

theorem execCodecTestDone_keeps {c : Fin 20} {codewords meanIt failed : W16} (h : Holds Q.toInv s) :
    Ends Q.toInv (execCodecTestDone c codewords meanIt failed s) := by
  unfold execCodecTestDone
  split
  · exact h
  · exact finish_keeps (unless_keeps codecFails_keeps (unitTested_keeps h))

end Sys2Proof.Machine
end

section
/-!
PROOF. What every step keeps: the broadband receivers (05).
-/
namespace Sys2Proof.Machine

variable {P : Inv} {Q : StepInv} {s : State}

theorem grpAbort_keeps {g hi lo n : Nat} (h : Holds P s) : Holds P (grpAbort g hi lo n s) := bumpF_keeps h

theorem freePga_keeps {g : Nat} (h : Holds P s) : Holds P (freePga g s) := foldl_keeps (fun _ _ => setPort_keeps) h

theorem rxIdle_keeps {g : Nat} (h : Holds P s) : Holds P (rxIdle g s) := freePga_keeps (setRx_keeps h)

theorem usersReport_keeps {g : Nat} (h : Holds P s) : Holds P (usersReport g s) := by
  unfold usersReport
  exact foldl_keeps (fun _ _ h => (by split; exacts [reportOnly_keeps h, h])) h

theorem abandonUsers_keeps {g : Nat} (h : Holds P s) : Holds P (abandonUsers g s) := by
  unfold abandonUsers
  refine foldl_keeps (fun _ _ => abandonFrame_keeps) (foldl_keeps (fun _ _ h => ?_) (usersReport_keeps h))
  split
  · exact abandonFrame_keeps h
  · exact h

theorem rearm_keeps {g : Nat} (h : Holds P s) : Holds P (rearm g s) := by
  unfold rearm
  extract_lets
  split
  · exact h
  · exact ite_keeps h (rxIdle_keeps (abandonUsers_keeps h))
  · exact ite_keeps h (rxIdle_keeps (abandonUsers_keeps h))
  · exact rxIdle_keeps h

theorem attemptEnds_keeps {g : Nat} (h : Holds P s) : Holds P (attemptEnds g s) := by
  unfold attemptEnds
  split
  · exact ite_keeps (setRx_keeps h) (rxIdle_keeps h)
  · exact rxIdle_keeps h

theorem holdPga_keeps {p : Nat} {xs : List Int} (h : Holds P s) : Holds P (holdPga p xs s) :=
  ite_keeps (setPort_keeps (setPga_keeps h)) h

theorem execBbPreambleDetect_keeps {g : Fin 6} {rx : Rx} (h : Holds P s) : Ends P (execBbPreambleDetect g rx s) :=
  ite_keeps (setRx_keeps (foldl_keeps (fun _ _ => holdPga_keeps) (bumpF_keeps h))) h

theorem execBbSecondaryDetect_keeps {g : Fin 6} {rx : Rx} (h : Holds P s) : Ends P (execBbSecondaryDetect g rx s) :=
  ite_keeps h (ite_keeps (setRx_keeps (grpAbort_keeps h)) (setRx_keeps h))

theorem enterTrain_keeps {g t0 : Nat} {coarse power : Rat} {captured : Bool} (h : Holds P s) :
    Holds P (enterTrain g t0 coarse power captured s) :=
  setRx_keeps h

theorem execBbS9Found_keeps {g : Fin 6} {rx : Rx} (h : Holds P s) : Ends P (execBbS9Found g rx s) := by
  unfold execBbS9Found
  refine ite_keeps h ?_
  split
  · exact h
  · exact ite_keeps (attemptEnds_keeps (grpAbort_keeps h)) (ite_keeps (attemptEnds_keeps (grpAbort_keeps h))
      (enterTrain_keeps h))

theorem execBbSyncTimeout_keeps {g : Fin 6} (h : Holds P s) : Ends P (execBbSyncTimeout g s) :=
  ite_keeps (attemptEnds_keeps (grpAbort_keeps h)) h

theorem execBbCapture_keeps {g : Fin 6} {rx : Rx} (h : Holds P s) : Ends P (execBbCapture g rx s) := by
  unfold execBbCapture
  refine ite_keeps h ?_
  split
  · exact h
  · exact ite_keeps h (ite_keeps (grpAbort_keeps h) (ite_keeps (enterTrain_keeps (grpAbort_keeps
      (abandonUsers_keeps h))) h))

theorem impUpdate_keeps {p bin : Nat} {hit : Bool} (h : Holds P s) : Holds P (impUpdate p bin hit s) := setBb_keeps h

theorem floorUpdate_keeps {p : Nat} {eq : Rat} (h : Holds P s) : Holds P (floorUpdate p eq s) := setBb_keeps h

theorem symbolWindow_keeps {t0 o : Nat} {off : Rat} {rx : Rx} {p : Nat} {a : State × List Nat} (h : Holds P a.1) :
    Holds P (symbolWindow t0 o off rx p a).1 :=
  ite_fst_keeps (impUpdate_keeps (bumpF_keeps h)) (impUpdate_keeps (floorUpdate_keeps h))

theorem symbolWindows_keeps {t0 o : Nat} {off : Rat} {rx : Rx} {ports : List Nat} (h : Holds P s) :
    Holds P (symbolWindows t0 o off rx ports s).1 :=
  foldl_fst_keeps (fun _ _ => symbolWindow_keeps) h

theorem execBbTrainingEnd_keeps {g : Fin 6} {rx : Rx} (h : Holds P s) : Ends P (execBbTrainingEnd g rx s) :=
  ite_keeps h (ite_keeps (rxIdle_keeps (grpAbort_keeps (symbolWindows_keeps (symbolWindows_keeps h)))) (setRx_keeps
    (grpAbort_keeps (symbolWindows_keeps (symbolWindows_keeps h)))))

theorem openFrame_keeps {g : Nat} {u : RxUser} {f : RxFc} (h : Holds P s) : Holds P (openFrame g u f s).1 :=
  ite_fst_keeps (nSetMapreq_keeps (bumpF_keeps h)) (ite_fst_keeps (bumpF_keeps h) (ite_fst_keeps h (ite_fst_keeps
    (furrowFull_keeps h) (decStatus_keeps (setDec_keeps h)))))

theorem setUser_keeps {g : Nat} {u : RxUser} (h : Holds P s) : Holds P (setUser g u s) := setRx_keeps h

theorem fcDone_keeps {g : Nat} (h : Holds P s) : Holds P (fcDone g s) :=
  ite_keeps h (ite_keeps (setRx_keeps h) (rxIdle_keeps (grpAbort_keeps h)))

theorem fcWindows_keeps {x : GrpRx} {off : Rat} {rx : Rx} {ports : List Nat} (h : Holds P s) :
    Holds P (fcWindows x off rx ports s).1 := by
  unfold fcWindows
  split
  · exact h
  · exact symbolWindows_keeps h

theorem execBbFrameControl_keeps {g : Fin 6} {u : Fin 3} {rx : Rx} (h : Holds P s) :
    Ends P (execBbFrameControl g u rx s) := by
  unfold execBbFrameControl
  extract_lets
  split
  · exact h
  · exact ite_keeps h (ite_keeps (fcDone_keeps (setUser_keeps (addPrec_keeps (setRx_keeps (fcWindows_keeps h)))))
      (fcDone_keeps (setUser_keeps (openFrame_keeps (setLk_keeps (bumpF_keeps (setRx_keeps (addPrec_keeps (setRx_keeps
      (fcWindows_keeps h))))))))))

theorem portWindow_keeps {g bin p : Nat} {eq : Rat} {ovr : Nat} {a : State × List Nat × Bool} (h : Holds P a.1) :
    Holds P (portWindow g bin p eq ovr a).1 := by
  unfold portWindow
  extract_lets _ s2 s3
  have h2 : Holds P s2 := ite_keeps h (setRx_keeps h)
  have h3 : Holds P s3 := impUpdate_keeps (floorUpdate_keeps h2)
  exact ite_fst_keeps (impUpdate_keeps (bumpF_keeps h2)) (ite_fst_keeps h3 h3)

theorem stepRun_keeps {g i : Nat} {rise : Rat} {p : Nat} (h : Holds P s) : Holds P (stepRun g i rise p s) :=
  ite_keeps h (ite_keeps (setRx_keeps h) (setRx_keeps h))

theorem startWatch_keeps {g node : Nat} {t : W64} {m : BitVec 6} (h : Holds P s) : Holds P (startWatch g node t m s) :=
  unless_keeps (fun h => foldl_keeps (fun _ _ => nSetMapreq_keeps) (setGrpL_keeps h)) (unless_keeps dropMaps_keeps h)

theorem stepRaised_keeps {g first : Nat} {mask : BitVec 6} {big : Rat} {f : RxFrame} (h : Holds P s) :
    Holds P (stepRaised g first mask big f s) :=
  startWatch_keeps (srcStore_keeps h)

theorem declareSteps_keeps {g : Nat} (h : Holds P s) : Holds P (declareSteps g s) :=
  ite_keeps h (foldl_keeps (fun _ _ => stepRaised_keeps) (setRx_keeps (foldl_keeps (fun _ _ => bumpF_keeps) h)))

theorem writeSym_keeps {g : Nat} {o : RxObs} (h : Holds P s) : Holds P (writeSym g o s) := by
  unfold writeSym
  exact foldl_keeps (fun _ _ h => (by split; exacts [when_keeps setFrame_keeps h, h])) h

theorem writeDue_keeps {g lag : Nat} (h : Holds P s) : Holds P (writeDue g lag s) :=
  setRx_keeps (foldl_keeps (fun _ _ => writeSym_keeps) h)

theorem frameComplete_keeps {f : RxFrame} {stored : Bool} (h : Holds P s) : Holds P (frameComplete f stored s) := by
  unfold frameComplete
  exact ite_keeps (reportOnly_keeps h) (by split; exacts [h, setDec_keeps (setFrame_keeps h)])

theorem rxComplete_keeps {g : Nat} (h : Holds P s) : Holds P (rxComplete g s) :=
  decStatus_keeps (rxIdle_keeps (foldl_keeps (fun _ _ => when_keeps bumpF_keeps) (foldl_keeps
    (fun _ _ => frameComplete_keeps) (writeDue_keeps h))))

theorem symbolPorts_keeps {lost : Bool} {ports : List Nat}
    {win : Nat → State × List Nat × Bool → State × List Nat × Bool} (hwin : ∀ x1 x2, Holds P x2.1 → Holds P (win x1 x2).1)
    (h : Holds P s) :
    Holds P (symbolPorts lost ports win s).1 :=
  ite_fst_keeps (bumpF_keeps h) (foldl_fst_keeps (fun _ _ h => hwin _ _ h) h)

theorem execBbPayloadSymbol_keeps {g : Fin 6} {rx : Rx} (h : Holds P s) : Ends P (execBbPayloadSymbol g rx s) := by
  unfold execBbPayloadSymbol
  refine ite_keeps h ?_
  extract_lets _ _ _ _ _ _ _ _ _ s10
  have h10 : Holds P s10 := foldl_keeps (fun _ _ => stepRun_keeps) (setRx_keeps (symbolPorts_keeps
    (fun _ _ => portWindow_keeps) h))
  exact ite_keeps (rxComplete_keeps (declareSteps_keeps h10)) (writeDue_keeps (declareSteps_keeps h10))

theorem execBbStepReestimate_keeps {g : Fin 6} {u : Fin 3} (h : Holds P s) : Ends P (execBbStepReestimate g u s) := by
  unfold execBbStepReestimate
  split
  · exact h
  · exact when_keeps setFrame_keeps h

theorem execNoiseMapBlock_keeps {p : Fin 6} {rx : List Int} (h : Holds P s) : Ends P (execNoiseMapBlock p rx s) :=
  ite_keeps h (ite_keeps (setBb_keeps (impUpdate_keeps (bumpF_keeps h))) (unless_keeps (fun h => foldl_keeps
    (fun _ _ => noisePut_keeps) h) (impUpdate_keeps (floorUpdate_keeps h))))

theorem execBbRxLast_keeps {r : Req} (h : Holds Q.toInv s) : Ends Q.toInv (execBbRxLast r s) := by
  unfold execBbRxLast
  exact execReq_keeps (fun _ h => (by split; exacts [h, refuse_keeps h])) h

theorem execBbSnrArm_keeps {r : Req} (h : Holds Q.toInv s) : Ends Q.toInv (execBbSnrArm r s) :=
  execReq_keeps (fun _ h => ite_answers (refuse_keeps h) (setBb_keeps h)) h

theorem execBbSnrRead_keeps {r : Req} (h : Holds Q.toInv s) : Ends Q.toInv (execBbSnrRead r s) := by
  unfold execBbSnrRead
  exact execReq_keeps (fun _ h => (by split; exacts [refuse_keeps h, h])) h

theorem execBbNoiseRead_keeps {r : Req} (h : Holds Q.toInv s) : Ends Q.toInv (execBbNoiseRead r s) :=
  execReq_keeps (fun _ h => h) h

end Sys2Proof.Machine
end

section
/-!
PROOF. What every step keeps: the narrowband layer (07).
-/
namespace Sys2Proof.Machine

variable {P : Inv} {Q : StepInv} {s : State}

theorem nbCount_keeps {ch hi lo n : Nat} (h : Holds P s) : Holds P (nbCount ch hi lo n s) := bumpF_keeps h

theorem nbIdle_keeps {g ch : Nat} (h : Holds P s) : Holds P (nbIdle g ch s) := setNbRx_keeps h

theorem execNbPreambleDetect_keeps {g : Fin 6} {ch : Fin 8} {rx : Rx} (h : Holds P s) :
    Ends P (execNbPreambleDetect g ch rx s) :=
  ite_keeps h (ite_keeps (setNbRx_keeps (nbCount_keeps h)) (ite_keeps (setNbRx_keeps (nbCount_keeps (nbCount_keeps h)))
    h))

theorem enterHeader_keeps {g ch : Nat} {all ports : List Nat} {f : NbFound} {captured : Bool} (h : Holds P s) :
    Holds P (enterHeader g ch all ports f captured s) :=
  setNbRx_keeps (foldl_keeps (fun _ _ => setNb_keeps) h)

theorem execNbSyncMatch_keeps {g : Fin 6} {ch : Fin 8} {rx : Rx} (h : Holds P s) :
    Ends P (execNbSyncMatch g ch rx s) := by
  unfold execNbSyncMatch
  exact ite_keeps h (by split; exacts [enterHeader_keeps h, h])

theorem execNbSyncTimeout_keeps {g : Fin 6} {ch : Fin 8} (h : Holds P s) : Ends P (execNbSyncTimeout g ch s) :=
  ite_keeps (nbIdle_keeps (nbCount_keeps h)) h

theorem execNbHeaderDecode_keeps {g : Fin 6} {ch : Fin 8} (h : Holds P s) : Ends P (execNbHeaderDecode g ch s) :=
  ite_keeps h (ite_keeps (nbIdle_keeps (nbCount_keeps (addPrec_keeps h))) (setNbRx_keeps (when_keeps setDec_keeps
    (setLk_keeps (addPrec_keeps h)))))

theorem nbRefuse_keeps {i : Nat} {f : RxFrame} (h : Holds P s) : Holds P (nbRefuse i f s) := by
  unfold nbRefuse
  extract_lets s1
  have h1 : Holds P s1 := furrowFull_keeps (setNbRx_keeps h)
  exact ite_keeps (dropFrame_keeps h1) (maybeEnd_keeps h1)

theorem nbWrite_keeps {i id : Nat} {q : List Int} {lost : Bool} {z : List Cx} (h : Holds P s) :
    Holds P (nbWrite i id q lost z s) := by
  unfold nbWrite
  split
  · exact h
  · exact ite_keeps (nbRefuse_keeps (setFrame_keeps h)) (decStatus_keeps (setFrame_keeps h))

theorem nbStore_keeps {g ch : Nat} {lost : Bool} {soft : List Int} {z : List Cx} (h : Holds P s) :
    Holds P (nbStore g ch lost soft z s) := by
  unfold nbStore
  exact ite_keeps (setNbRx_keeps h) (setNbRx_keeps (by split; exacts [nbWrite_keeps h, h]))

theorem lostCarrier_keeps {g ch : Nat} (h : Holds P s) : Holds P (lostCarrier g ch s) :=
  ite_keeps (nbIdle_keeps (foldl_keeps (fun _ _ => nbStore_keeps) (setNbRx_keeps (nbCount_keeps h)))) h

theorem execNbSymbol_keeps {g : Fin 6} {ch : Fin 8} {rx : Rx} (h : Holds P s) : Ends P (execNbSymbol g ch rx s) :=
  ite_keeps h (when_keeps (fun h => nbIdle_keeps (lostCarrier_keeps h)) (nbStore_keeps (setNbRx_keeps h)))

theorem eraseLast_keeps {i : Nat} (h : Holds P s) : Holds P (eraseLast i s) := by
  unfold eraseLast
  exact ite_keeps (setNbRx_keeps h) (setNbRx_keeps (by split; exacts [h, setFrame_keeps h]))

theorem execNbCaptureArm_keeps {g : Fin 6} {ch : Fin 8} (h : Holds P s) : Ends P (execNbCaptureArm g ch s) :=
  ite_keeps (setNbRx_keeps (eraseLast_keeps h)) h

theorem execNbCapture_keeps {g : Fin 6} {ch : Fin 8} {rx : Rx} (h : Holds P s) : Ends P (execNbCapture g ch rx s) := by
  unfold execNbCapture
  refine ite_keeps h ?_
  split
  · exact h
  · exact enterHeader_keeps (nbCount_keeps (by split; exacts [abandonFrame_keeps h, h]))

theorem execNbLostCarrier_keeps {g : Fin 6} {ch : Fin 8} (h : Holds P s) : Ends P (execNbLostCarrier g ch s) :=
  lostCarrier_keeps h

theorem nbTakes_keeps {g ch : Nat} {v : W32} (h : Holds P s) : Holds P (nbTakes g ch v s) := by
  unfold nbTakes
  exact setNbRx_keeps (nbIdle_keeps (foldl_keeps (fun _ _ => sieveZero_keeps) h))

theorem nbTakesAll_keeps {ch : Nat} (h : Holds P s) : Holds P (nbTakesAll ch s) :=
  foldl_keeps (fun _ _ => when_keeps nbTakes_keeps) h

theorem execNbChannelTakesEffect_keeps {g : Fin 6} {ch : Fin 8} (h : Holds P s) :
    Ends P (execNbChannelTakesEffect g ch s) :=
  when_keeps nbTakes_keeps h

theorem execNbChannelSettled_keeps {g : Fin 6} {ch : Fin 8} (h : Holds P s) : Ends P (execNbChannelSettled g ch s) :=
  when_keeps setNbRx_keeps h

theorem execNbChannelFloorUpdate_keeps {p : Fin 6} {ch : Fin 8} {rx : List Int} (h : Holds P s) :
    Ends P (execNbChannelFloorUpdate p ch rx s) :=
  when_keeps setNb_keeps h

theorem clipLater_keeps {p : Nat} {b : NbBurst} (h : Holds P s) : Holds P (clipLater p b s) := by
  unfold clipLater
  split
  · exact when_keeps bumpF_keeps h
  · exact h

theorem recutBursts_keeps (h : Holds P s) : Holds P (recutBursts s) :=
  foldl_keeps (fun _ _ h => foldl_keeps (fun _ _ h => unless_keeps bumpF_keeps (setPort_keeps (setNb_keeps h))) h) h

theorem execMainsCycleStart_keeps (h : Holds P s) : Ends P (execMainsCycleStart s) := by
  unfold execMainsCycleStart
  split
  · exact h
  · exact recutBursts_keeps (cycleBegins_keeps h)

theorem sendNb_keeps {b : TxBurst} {data : Bool} (h : Holds P s) : Holds P (sendNb b data s) := by
  unfold sendNb
  extract_lets _ _ _ _ _ s6
  have h6 : Holds P s6 := foldl_keeps (fun _ _ => bumpF_keeps) h
  exact unless_keeps (fun h => emit_keeps (unless_keeps reserveAir_keeps h)) (foldl_keeps (fun _ _ => clipLater_keeps)
    (foldl_keeps (fun _ _ h => when_keeps bumpF_keeps (bumpF_keeps (setNb_keeps (setDriver_keeps (setPort_keeps h)))))
    (foldl_keeps (fun _ _ => adoptPortTx_keeps) (ite_fst_keeps (dutyPorts_keeps h6) h6))))

theorem execNbBurstTransmit_keeps {g : Fin 6} {ch : Fin 8} (h : Holds P s) : Ends P (execNbBurstTransmit g ch s) := by
  unfold execNbBurstTransmit
  split
  · exact h
  · exact takeBurst_keeps (fun _ h => frameSent_keeps (sendNb_keeps h)) h

theorem execNbRxLast_keeps {r : Req} (h : Holds Q.toInv s) : Ends Q.toInv (execNbRxLast r s) := by
  unfold execNbRxLast
  exact execReq_keeps (fun _ h => (by split; exacts [h, refuse_keeps h])) h

theorem execNbLevel_keeps {r : Req} (h : Holds Q.toInv s) : Ends Q.toInv (execNbLevel r s) :=
  execReq_keeps (fun _ h => h) h

theorem execNbTxTest_keeps {r : Req} (h : Holds Q.toInv s) : Ends Q.toInv (execNbTxTest r s) :=
  execReq_keeps (fun _ h => ite_answers (refuse_keeps h) (deferIf_keeps h (fun _ => setPort_keeps))) h

theorem execNbTxTestDone_keeps {p : Fin 6} {rmsMv bursts : W16} (h : Holds Q.toInv s) :
    Ends Q.toInv (execNbTxTestDone p rmsMv bursts s) := by
  unfold execNbTxTestDone
  split
  · exact h
  · exact finish_keeps (testEnds_keeps (bumpF_keeps h))

end Sys2Proof.Machine
end

section
/-!
PROOF. What every step keeps: the link layer (08).
-/
namespace Sys2Proof.Machine

variable {P : Inv} {Q : StepInv} {s : State}

theorem newFrame_keeps {n g ty : Nat} {nb : Bool} {body : Bytes} {key pos : Option Nat} (h : Holds P s) :
    Holds P (newFrame n g ty nb body key pos s) :=
  setLk_keeps h

theorem nodeFrame_keeps {n ty : Nat} {body : Bytes} (h : Holds P s) : Holds P (nodeFrame n ty body s) :=
  newFrame_keeps h

theorem dataFrame_keeps {n g : Nat} {nb : Bool} {body : Bytes} (h : Holds P s) :
    Holds P (dataFrame n g nb body s).1 := by
  unfold dataFrame
  extract_lets
  split
  · exact newFrame_keeps (qPush_keeps h)
  · exact qPush_keeps h
  · exact qPush_keeps h

theorem dropFrames_keeps {n : Nat} (h : Holds P s) : Holds P (dropFrames n s) :=
  setLk_keeps (foldl_keeps (fun _ _ => dropTx_keeps) h)

theorem setEnds_keeps {frame : Nat} {ok : Bool} (h : Holds P s) : Holds P (setEnds frame ok s) := by
  unfold setEnds
  split
  · exact h
  · exact when_keeps (fun h => setLk_keeps (nSet_keeps h)) (setLk_keeps h)

theorem ackedTx_keeps {f : TxFrame} (h : Holds P s) : Holds P (ackedTx f s) := setEnds_keeps (dropTx_keeps h)

theorem giveUpTx_keeps {f : TxFrame} (h : Holds P s) : Holds P (giveUpTx f s) :=
  setEnds_keeps (dropTx_keeps (bumpF_keeps h))

theorem execArqAckTimeout_keeps {node seq : BitVec 12} (h : Holds P s) : Ends P (execArqAckTimeout node seq s) := by
  unfold execArqAckTimeout
  extract_lets
  split
  · exact h
  · exact ite_keeps h (ite_keeps (when_keeps (fun h => nSetMapreq_keeps (foldl_keeps (fun _ _ => dropMap_keeps) h))
      (moveVa_keeps (setTx_keeps (bumpF_keeps h)))) (moveVa_keeps (giveUpTx_keeps h)))

theorem queueLoses_keeps {q : Nat} (h : Holds P s) : Holds P (queueLoses q s) :=
  ite_keeps (failRequests_keeps h) (ite_keeps (setLk_keeps h) (ite_keeps (foldl_keeps (fun _ _ h => moveVa_keeps
    (dropTx_keeps h)) h) h))

theorem queueReset_keeps {q dom ptr first second : Nat} (h : Holds P s) :
    Holds P (queueReset q dom ptr first second s) :=
  qFault_keeps (queueLoses_keeps h)

theorem execQueueConsumerRead_keeps {q : Byte} {pos : Nat} (h : Holds P s) : Ends P (execQueueConsumerRead q pos s) := by
  have taken : ∀ (c : QCat) {p : Pkt} {t : State},
      (if c.retain then qReadAt q.toNat pos s else qPop q.toNat s) = some (p, t) → Holds P t := by
    intro c p t he
    split at he
    · exact qReadAt_keeps he h
    · exact qPop_keeps he h
  unfold execQueueConsumerRead
  split
  · exact h
  · refine ite_keeps (qRead1_keeps h) (ite_keeps (putQ_keeps h) ?_)
    split
    · exact ite_keeps (queueReset_keeps h) (taken _ ‹_›)
    · exact h

theorem execQueuePointerMismatch_keeps {q : Byte} {consumerSide : Bool} {ptr : Fin 3} {first second : W32}
    (h : Holds P s) :
    Ends P (execQueuePointerMismatch q consumerSide ptr first second s) :=
  unless_keeps queueReset_keeps h

theorem drainGraft_keeps (h : Holds P s) : Holds P (drainGraft s) :=
  foldl_keeps (fun _ _ h => ite_keeps h (ite_keeps h (setLk_keeps (qPush_keeps h)))) h

theorem toGraft_keeps {gid n : Nat} {body : Bytes} (h : Holds P s) : Holds P (toGraft gid n body s) :=
  ite_keeps (bumpF_keeps h) (drainGraft_keeps (setLk_keeps h))

theorem toCore_keeps {c n g : Nat} {nb : Bool} {body : Bytes} (h : Holds P s) : Holds P (toCore c n g nb body s) :=
  unless_keeps bumpF_keeps (qPush_keeps h)

theorem setVr_keeps {n vr : Nat} (h : Holds P s) : Holds P (setVr n vr s) := nSet_keeps (nSet_keeps h)

theorem fullCheck_keeps (h : Holds P s) : Holds P (fullCheck s) :=
  ite_keeps (setLk_keeps h) (ite_keeps h (raise_keeps (setLk_keeps h)))

theorem loseNode_keeps {n : Nat} (h : Holds P s) : Holds P (loseNode n s) :=
  ite_keeps (fullCheck_keeps (raise_keeps (bumpF_keeps (nSetState_keeps h)))) h

theorem setLeaving_keeps {n why : Nat} (h : Holds P s) : Holds P (setLeaving n why s) :=
  ite_keeps h (fullCheck_keeps (inTurn_holds (fun _ _ => loseNode_keeps) (setLk_keeps (dropMaps_keeps
    (nSetState_keeps h)))))

theorem storeDownSet_keeps {n id slots : Nat} {maps : Bytes} (h : Holds P s) :
    Holds P (storeDownSet n id slots maps s) := by
  unfold storeDownSet
  refine nSet_keeps (foldl_fst_keeps (fun a i h => ite_fst_keeps ?_ h) (foldl_keeps (fun _ _ => dropMap_keeps) h))
  extract_lets t
  have ht : Holds P t.1 := storeMap_keeps h
  clear_value t
  dsimp only
  split
  · exact setMapRef_keeps ht
  · exact ht

theorem deliverUp_keeps {e : Stored} (h : Holds P s) : Holds P (deliverUp e s) :=
  ite_keeps (ite_keeps (setLk_keeps h) (ite_keeps (toGraft_keeps h) (when_keeps toCore_keeps h))) (ite_keeps
    (when_keeps storeDownSet_keeps h) (when_keeps setLeaving_keeps h))

theorem deliverRun_keeps {k n : Nat} (h : Holds P s) : Holds P (deliverRun k n s) := by
  induction k generalizing s with
  | zero => exact h
  | succ k ih =>
    unfold deliverRun
    extract_lets
    split
    · exact h
    · exact ih (deliverUp_keeps (setVr_keeps (setLk_keeps h)))

theorem takeSeq_keeps {n : Nat} {o : Opened} (h : Holds P s) : Holds P (takeSeq n o s) := by
  unfold takeSeq
  extract_lets _ _ s3
  have h3 : Holds P s3 := unless_keeps setLk_keeps h
  exact ite_keeps (ite_keeps (bumpF_keeps h3) (deliverRun_keeps (setVr_keeps (setLk_keeps
    (when_keeps bumpF_keeps h3))))) (ite_keeps (bumpF_keeps h3) (bumpF_keeps h3))

theorem skipTo_keeps {n va : Nat} (h : Holds P s) : Holds P (skipTo n va s) := by
  unfold skipTo
  refine ite_keeps h (deliverRun_keeps (setVr_keeps (foldl_keeps (fun _ _ h => ?_) h)))
  extract_lets
  split
  · exact deliverUp_keeps (setLk_keeps h)
  · exact bumpF_keeps h

theorem takeAck_keeps {n : Nat} {a : Bytes} (h : Holds P s) : Holds P (takeAck n a s) :=
  ite_keeps h (skipTo_keeps (nSet_keeps (moveVa_keeps (setLk_keeps (foldl_keeps (fun _ _ => ackedTx_keeps) h)))))

theorem phyNode_keeps {n : Nat} {q : RxQual} (h : Holds P s) : Holds P (phyNode n q s) :=
  unless_keeps nSet_keeps (nSet_keeps (nSet_keeps (foldl_keeps (fun _ _ h => when_keeps setLk_keeps (nSet_keeps h)) h)))

theorem preWeights_keeps {n : Nat} {q : RxQual} (h : Holds P s) : Holds P (preWeights n q s) := by
  unfold preWeights
  split
  · exact h
  · exact memWrite_keeps (memWrite_keeps (setLk_keeps h))

theorem issueSet_keeps {n idx : Nat} {cand : Bytes} (h : Holds P s) : Holds P (issueSet n idx cand s) := by
  unfold issueSet
  extract_lets _ id olds s1 s2 r s3 all mask body f sf s4
  have h2 : Holds P s2 := dropMap_keeps (foldl_keeps (fun _ _ => memWrite_keeps) h)
  have hr : Holds P r.1 := storeMap_keeps h2
  have h3 : Holds P s3 := by
    unfold s3
    split
    · exact setMapRef_keeps hr
    · exact hr
  exact unless_keeps (fun h => setLk_keeps (nodeFrame_keeps h)) h3

theorem mapsTake_keeps {n : Nat} {q : RxQual} (h : Holds P s) : Holds P (mapsTake n q s) :=
  ite_keeps h (when_keeps issueSet_keeps h)

theorem unheard_keeps {src orig : Nat} (h : Holds P s) : Holds P (unheard src orig s) := when_keeps setLk_keeps h

theorem abortOpen_keeps (h : Holds P s) : Holds P (abortOpen s) := putQ_keeps h

theorem pushOpened_keeps {d : Delivered} {p : LinkParts} {slot : Nat} {body : Bytes} (h : Holds P s) :
    Holds P (pushOpened d p slot body s).1 :=
  setLk_keeps (takeFcRx_keeps (qPush_keeps h))

theorem startTrial_keeps {d : Delivered} (h : Holds P s) : Holds P (startTrial d s) :=
  foldl_keeps (fun _ _ => engTake_keeps) (setLk_keeps h)

theorem joinArrives_keeps {d : Delivered} (h : Holds P s) : Holds P (joinArrives d s) :=
  ite_keeps (startTrial_keeps h) (ite_keeps (bumpF_keeps h) (setLk_keeps h))

theorem endTrial_keeps (h : Holds P s) : Holds P (endTrial s) := by
  unfold endTrial
  extract_lets _ s2
  have h2 : Holds P s2 := setClo_keeps (setLk_keeps (foldl_keeps (fun _ _ h => bumpF_keeps (engRest_keeps h)) h))
  split
  · exact h2
  · exact startTrial_keeps (setLk_keeps h2)

theorem jobDone_keeps (h : Holds P s) : Holds P (jobDone s) := by
  unfold jobDone
  split
  · exact bumpF_keeps h
  · exact h

theorem execLinkFrameOpen_keeps (h : Holds P s) : Ends P (execLinkFrameOpen s) := by
  unfold execLinkFrameOpen
  split
  · exact h
  · refine ite_keeps h ?_
    extract_lets _ gone2
    have h2 : Holds P gone2 := takeJob_keeps (setLk_keeps h)
    exact ite_keeps (authFail_keeps h2) (ite_keeps (bumpF_keeps h2) (ite_keeps (when_keeps joinArrives_keeps h2)
      (ite_keeps (authFail_keeps h2) (ite_keeps (unheard_keeps h2) (ite_keeps h (ite_keeps (unheard_keeps
      (authFail_keeps (abortOpen_keeps (jobDone_keeps h2)))) (ite_keeps (unheard_keeps (replayed_keeps (abortOpen_keeps
      (jobDone_keeps h2)))) (pushOpened_keeps (jobDone_keeps h2)))))))))

theorem heardFrom_keeps {n : Nat} (h : Holds P s) : Holds P (heardFrom n s) :=
  when_keeps (fun h => fullCheck_keeps (nSetState_keeps h)) (nSet_keeps h)

theorem linkReceived_keeps {o : Opened} (h : Holds P s) : Holds P (linkReceived o s) :=
  ite_keeps h (unless_keeps (fun h => ite_keeps (takeSeq_keeps h) (when_keeps deliverUp_keeps h)) (unless_keeps
    takeAck_keeps (when_keeps setLk_keeps (unless_keeps (fun h => unless_keeps (fun h => mapsTake_keeps
    (preWeights_keeps h)) (when_keeps setLk_keeps (phyNode_keeps (unless_keeps nSet_keeps h)))) (phyPorts_keeps
    (setLk_keeps (heardFrom_keeps h)))))))

theorem setDescs_keeps {l : List Nat} (h : Holds P s) : Holds P (setDescs l s) := foldl_keeps (fun _ _ => nSet_keeps) h

theorem routeUpdate_keeps {r : Nat} (h : Holds P s) : Holds P (routeUpdate r s) := nodeFrame_keeps h

theorem joinAccept_keeps {slot eui st node parent hops holdoff : Nat} {q : RxQual} (h : Holds P s) :
    Holds P (joinAccept slot eui st node parent hops holdoff q s) :=
  newFrame_keeps h

theorem unbind_keeps {n : Nat} (h : Holds P s) : Holds P (unbind n s) := unless_keeps setKFlag_keeps h

theorem writeEntry_keeps {n slot eui : Nat} {body : Bytes} {parent : Nat} {d : Opened} (h : Holds P s) :
    Holds P (writeEntry n slot eui body parent d s) :=
  setLk_keeps (setKFlag_keeps (memWrite_keeps (dropMaps_keeps (dropFrames_keeps (unbind_keeps (ite_keeps (inTurn_holds
    (fun _ _ => loseNode_keeps) h) h))))))

theorem joinNode_keeps {slot : Nat} {body : Bytes} {d : Opened} (h : Holds P s) : Holds P (joinNode slot body d s) := by
  unfold joinNode
  extract_lets eui old pick
  clear_value pick
  split
  · exact fullCheck_keeps (bumpF_keeps (joinAccept_keeps h))
  · extract_lets narrow cs
    split
    · exact bumpF_keeps (joinAccept_keeps (when_keeps setLk_keeps h))
    · exact fullCheck_keeps (raise_keeps (bumpF_keeps (joinAccept_keeps (foldl_keeps (fun _ _ => routeUpdate_keeps)
        (setDescs_keeps (when_keeps nSet_keeps (when_keeps (fun h => unless_keeps (fun h => mapsTake_keeps
        (preWeights_keeps h)) (phyNode_keeps (phyPorts_keeps h))) (writeEntry_keeps (when_keeps setLk_keeps h)))))))))

theorem execJoinTrial_keeps (h : Holds P s) : Ends P (execJoinTrial s) := by
  unfold execJoinTrial
  split
  · exact h
  · refine ite_keeps h ?_
    extract_lets
    split
    · exact endTrial_keeps (authFail_keeps (abortOpen_keeps h))
    · exact ite_keeps (endTrial_keeps (pushOpened_keeps h)) h

theorem joinReceived_keeps {o : Opened} (h : Holds P s) : Holds P (joinReceived o s) := when_keeps joinNode_keeps h

theorem execLinkFrameReceive_keeps (h : Holds P s) : Ends P (execLinkFrameReceive s) := by
  unfold execLinkFrameReceive
  split
  · exact h
  · extract_lets _ s2
    have h2 : Holds P s2 := by
      unfold s2
      split
      · exact qPop_keeps ‹_› (setLk_keeps h)
      · exact setLk_keeps h
    exact ite_keeps (joinReceived_keeps h2) (linkReceived_keeps h2)

theorem execNodeSilenceLimit_keeps {node : BitVec 12} (h : Holds P s) : Ends P (execNodeSilenceLimit node s) :=
  ite_keeps (inTurn_holds (fun _ _ => loseNode_keeps) h) h

theorem execLeavingToFree_keeps {node : BitVec 12} (h : Holds P s) : Ends P (execLeavingToFree node s) := by
  unfold execLeavingToFree
  extract_lets
  split
  · exact h
  · exact ite_keeps (fullCheck_keeps (raise_keeps (setDescs_keeps (setLk_keeps (memWrite_keeps (dropFrames_keeps
      (unbind_keeps h))))))) h

theorem execNodeRead_keeps {r : Req} (h : Holds Q.toInv s) : Ends Q.toInv (execNodeRead r s) :=
  execReq_keeps (fun _ h => ite_answers h (refuse_keeps h)) h

theorem execNodeFind_keeps {r : Req} (h : Holds Q.toInv s) : Ends Q.toInv (execNodeFind r s) := by
  unfold execNodeFind
  exact execReq_keeps (fun _ h => (by split; exacts [h, refuse_keeps h])) h

theorem execNodeEvict_keeps {r : Req} (h : Holds Q.toInv s) : Ends Q.toInv (execNodeEvict r s) :=
  execReq_keeps (fun _ h => ite_answers (refuse_keeps h) (nodeFrame_keeps (setLeaving_keeps h))) h

theorem execTonemapRead_keeps {r : Req} (h : Holds Q.toInv s) : Ends Q.toInv (execTonemapRead r s) := by
  unfold execTonemapRead
  exact execReq_keeps (fun _ h => (by split; exacts [h, refuse_keeps h])) h

theorem execRouteRead_keeps {r : Req} (h : Holds Q.toInv s) : Ends Q.toInv (execRouteRead r s) :=
  execReq_keeps (fun _ h => ite_answers (refuse_keeps h) h) h

theorem execSchedRead_keeps {r : Req} (h : Holds Q.toInv s) : Ends Q.toInv (execSchedRead r s) := by
  unfold execSchedRead
  exact execReq_keeps (fun _ h => (by split; exacts [h, refuse_keeps h])) h

theorem execNodeRefresh_keeps {r : Req} (h : Holds Q.toInv s) : Ends Q.toInv (execNodeRefresh r s) :=
  execReq_keeps (fun _ h => ite_answers (refuse_keeps h) (refreshNode_keeps h)) h

theorem execDestSet_keeps {r : Req} (h : Holds Q.toInv s) : Ends Q.toInv (execDestSet r s) :=
  execReq_keeps (fun _ h => ite_answers (refuse_keeps h) (ite_answers (setLk_keeps h) (ite_answers (refuse_keeps h)
    (setLk_keeps h)))) h

theorem execDestRead_keeps {r : Req} (h : Holds Q.toInv s) : Ends Q.toInv (execDestRead r s) :=
  execReq_keeps (fun _ h => h) h

theorem downlinkData_keeps {saddr : Nat} {body : Bytes} (h : Holds P s) : Holds P (downlinkData saddr body s).1 :=
  ite_fst_keeps h (ite_fst_keeps (ite_fst_keeps (foldl_keeps (fun _ _ => dataFrame_keeps) h) h) (ite_fst_keeps h
    (ite_fst_keeps (dataFrame_keeps h) h)))

theorem execDataPacketDownlink_keeps {link : Fin 2} {mac : BitVec 48} {vlan : Option (BitVec 12)} {packet : Bytes}
    (h : Holds P s) :
    Ends P (execDataPacketDownlink link mac vlan packet s) := by
  unfold execDataPacketDownlink
  refine unless_keeps (fun h => ?_) (hostRequests_keeps ?_)
  · extract_lets r1
    have h1 : Holds P r1.1 := ite_fst_keeps (downlinkData_keeps h) h
    split
    · exact h1
    · split
      · exact hostSend_keeps h1
      · exact h1
  · split
    · exact ite_keeps (qPop_keeps ‹_› h) h
    · exact h

theorem execUplinkDataSend_keeps (h : Holds P s) : Ends P (execUplinkDataSend s) := by
  unfold execUplinkDataSend
  split
  · exact h
  · extract_lets
    split
    · exact bumpF_keeps (setLk_keeps h)
    · exact ite_keeps (bumpF_keeps (raise_keeps (setLk_keeps h))) (hostSend_keeps (setLk_keeps h))

end Sys2Proof.Machine
end

section
/-!
PROOF. What every step keeps: the schedule and the beacons (08 R227 to R243).
-/
namespace Sys2Proof.Machine

variable {P : Inv} {Q : StepInv} {s : State}

theorem chooseFrame_keeps {f : TxFrame} {grant : Option Grant} {sf : Nat} (h : Holds P s) :
    Holds P (chooseFrame f grant sf s) :=
  setClo_keeps (when_keeps setLk_keeps (setTx_keeps (when_keeps nSet_keeps h)))

theorem chooseNew_keeps {n g ty : Nat} {nb : Bool} {body : Bytes} {key : Option Nat} {grant : Option Grant} {sf : Nat}
    (h : Holds P s) :
    Holds P (chooseNew n g ty nb body key grant sf s) := by
  unfold chooseNew
  extract_lets
  split
  · exact chooseFrame_keeps (newFrame_keeps h)
  · exact newFrame_keeps h

theorem admitUplink_keeps {p : Proposal} {pl : Plan} (h : Holds P s) : Holds P (admitUplink p s pl).1 :=
  ite_fst_keeps (ite_keeps (setLk_keeps h) (when_keeps setGrpL_keeps h)) h

theorem admitJoin_keeps {p : Proposal} {pl : Plan} (h : Holds P s) : Holds P (admitJoin p s pl).1 := ite_fst_keeps h h

theorem admitHop_keeps {p : Proposal} {pl : Plan} (h : Holds P s) : Holds P (admitHop p s pl).1 := ite_fst_keeps h h

theorem admitAcks_keeps {p : Proposal} {pl : Plan} (h : Holds P s) : Holds P (admitAcks p s pl).1 :=
  ite_fst_keeps h (setLk_keeps (chooseNew_keeps h))

theorem admitRelay_keeps {p : Proposal} {pl : Plan} (h : Holds P s) : Holds P (admitRelay p s pl).1 := ite_fst_keeps h h

theorem admitDown_keeps {p : Proposal} {pl : Plan} (h : Holds P s) : Holds P (admitDown p s pl).1 := by
  unfold admitDown
  refine ite_fst_keeps ?_ h
  split
  · exact chooseFrame_keeps h
  · split
    · exact chooseNew_keeps h
    · exact h

theorem admitRelayed_keeps {p : Proposal} {r : Nat} {pl : Plan} (h : Holds P s) : Holds P (admitRelayed p r s pl).1 :=
  ite_fst_keeps h h

theorem admitProp_keeps {e : State × Plan} {p : Proposal} (h : Holds P e.1) : Holds P (admitProp e p).1 :=
  ite_fst_keeps (ite_fst_keeps h (ite_fst_keeps (admitRelayed_keeps h) (ite_fst_keeps (admitRelayed_keeps h)
    (ite_fst_keeps (ite_fst_keeps (admitUplink_keeps h) h) (ite_fst_keeps (admitJoin_keeps h) (ite_fst_keeps
    (admitHop_keeps h) (ite_fst_keeps h (ite_fst_keeps (admitRelay_keeps h) (ite_fst_keeps (ite_fst_keeps
    (admitAcks_keeps h) h) (admitDown_keeps h)))))))))) h

theorem admitOpen_keeps {e : State × Plan} {q : NbOpening} (h : Holds P e.1) : Holds P (admitOpen e q).1 := by
  unfold admitOpen
  exact ite_fst_keeps h (ite_fst_keeps (by split; exacts [chooseFrame_keeps h, h]) h)

theorem sendRelayed_keeps {e : State} {pl : Plan} (h : Holds P e) : Holds P (sendRelayed e pl) := by
  unfold sendRelayed
  refine foldl_keeps (fun s x h => ?_) h
  obtain ⟨r, g, ds⟩ := x
  dsimp only
  split
  · exact setLk_keeps (chooseNew_keeps h)
  · exact h

theorem nbFix_keeps {g : Nat} {pl : Plan} (h : Holds P s) : Holds P (nbFix g pl s) :=
  ite_keeps (setGrpL_keeps h) (setLk_keeps (setGrpL_keeps h))

theorem placeAfter_keeps {mk : Fin 16 → Proposal} {e : State × Plan} {lo : Nat} {x : (State × Plan) × Nat}
    (he : placeAfter mk e lo = some x) (h : Holds P e.1) : Holds P x.1.1 := by
  obtain ⟨t, -, hx⟩ := List.exists_of_findSome?_eq_some he
  dsimp only at hx
  split_ifs at hx
  obtain rfl := Option.some.inj hx
  exact admitProp_keeps h

theorem placeAny_keeps {mk : Fin 16 → Proposal} {e : State × Plan} (h : Holds P e.1) : Holds P (placeAny mk e).1 := by
  unfold placeAny
  cases hx : placeAfter mk e 0 with
  | none => exact h
  | some x => exact placeAfter_keeps hx h

theorem placeRelay_keeps {g : Fin 6} {r : Nat} {e : State × Plan} (h : Holds P e.1) : Holds P (placeRelay g r e).1 := by
  have steps : ∀ (l : List (Fin 16 → Proposal)) (a : Option ((State × Plan) × Nat)), (∀ x ∈ a, Holds P x.1.1) →
      ∀ x ∈ l.foldl (fun a mk => a.bind fun x => placeAfter mk x.1 x.2) a, Holds P x.1.1 := by
    intro l
    induction l with
    | nil => intro a ha; exact ha
    | cons mk l ih =>
      refine fun a ha => ih _ fun x hx => ?_
      obtain ⟨y, hy, hp⟩ := Option.bind_eq_some_iff.mp hx
      exact placeAfter_keeps hp (ha y hy)
  unfold placeRelay
  extract_lets s l out
  have placed : ∀ x ∈ out, Holds P x.1.1 := steps l (some (e, 0)) fun x hx => by cases hx; exact h
  clear_value out
  cases out with
  | none => exact h
  | some x => exact placed x rfl

theorem placeDue_keeps {due : Nat} {g : Fin 6} {e : State × Plan} (h : Holds P e.1) : Holds P (placeDue due g e).1 := by
  unfold placeDue
  extract_lets
  split
  · exact foldl_fst_keeps (fun _ _ => placeRelay_keeps) h
  · exact ite_fst_keeps (placeAny_keeps h) h
  · exact ite_fst_keeps h (placeAny_keeps h)
  · exact foldl_fst_keeps (fun _ _ => placeAny_keeps) h

theorem placeAll_keeps {due : Nat} {e : State × Plan} (h : Holds P e.1) : Holds P (placeAll due e).1 :=
  foldl_fst_keeps (fun _ _ => placeDue_keeps) h

theorem planSchedule_keeps {props : List Proposal} {opens : List NbOpening} {v : State} (h : Holds P v) :
    Holds P (planSchedule props opens v) :=
  foldl_keeps (fun _ _ => setGrpL_keeps) (setLk_keeps (foldl_keeps (fun _ _ => nbFix_keeps) (sendRelayed_keeps
    (foldl_fst_keeps (fun _ _ => admitProp_keeps) (placeAll_keeps (foldl_fst_keeps (fun _ _ => admitProp_keeps)
    (placeAll_keeps (foldl_fst_keeps (fun _ _ => admitProp_keeps) (foldl_fst_keeps (fun _ _ => admitOpen_keeps)
    (placeAll_keeps (foldl_fst_keeps (fun _ _ => admitProp_keeps) (placeAll_keeps (foldl_fst_keeps
    (fun _ _ => admitProp_keeps) (foldl_fst_keeps (fun _ _ h => ite_fst_keeps h h) h))))))))))))))

/-- 08 R228: a schedule is planned over a preview of the next superframe, whose objects do not stay. -/
theorem execScheduleFix_keeps {props : List Proposal} {opens : List NbOpening} (h : Holds Q.toInv s) :
    Ends Q.toInv (execScheduleFix props opens s) := by
  have planned : ∀ {P : Inv}, Holds P s → Holds P (planSchedule props opens (preview s)) := fun h =>
    planSchedule_keeps (preview_keeps h)
  have ht := planned h
  obtain ⟨hrecords, hnext, hdeferred⟩ := planned (lifeAndCommandsOf_self s)
  unfold execScheduleFix
  refine ite_keeps (foldl_keeps (fun _ _ => setGrpL_keeps) h) ?_
  generalize planSchedule props opens (preview s) = t at ht hrecords hnext hdeferred
  unfold Holds at h ht
  rw [← hrecords, ← hnext, ← hdeferred] at h
  exact Q.putBack h ht

theorem execStepWatchEnd_keeps {g : Fin 6} (h : Holds P s) : Ends P (execStepWatchEnd g s) := by
  unfold execStepWatchEnd
  split
  · exact when_keeps setGrpL_keeps h
  · exact h

theorem driversDue_keeps (h : Holds P s) : Holds P (driversDue s) :=
  foldl_keeps (fun _ _ h => ite_keeps h (when_keeps setDriver_keeps (when_keeps setDriver_keeps h))) h

theorem idle_keeps (h : Holds P s) : Holds P (idle s) := driversDue_keeps (tick_keeps h)

theorem testsBegin_keeps (h : Holds P s) : Holds P (testsBegin s) :=
  foldl_keeps (fun _ _ h => ite_keeps (ite_keeps (setDriver_keeps (setPort_keeps h)) (ite_keeps (setDriver_keeps
    (takeBankB_keeps (setPort_keeps h))) (takeBankB_keeps (setPort_keeps h)))) h) h

theorem silentUp_keeps {n : Nat} (h : Holds P s) : Holds P (silentUp n s) := unless_keeps nSet_keeps h

theorem opensEnd_keeps (h : Holds P s) : Holds P (opensEnd s) :=
  setLk_keeps (foldl_keeps (fun _ _ => when_keeps silentUp_keeps) h)

theorem sealBeacon_keeps {ty : Nat} {body : Bytes} (h : Holds P s) : Holds P (sealBeacon ty body s).1 := by
  unfold sealBeacon
  split
  · exact ite_fst_keeps h (sealLink_keeps (bumpF_keeps h))
  · exact h

theorem nbBeaconSend_keeps {g : Nat} (h : Holds P s) : Holds P (nbBeaconSend g s) := by
  unfold nbBeaconSend
  extract_lets
  split
  · exact h
  · refine ite_keeps h ?_
    extract_lets
    split
    · exact fst_keeps ‹_› (sealBeacon_keeps (setGrpL_keeps h))
    · exact ite_keeps (fst_keeps ‹_› (sealBeacon_keeps (setGrpL_keeps h))) (sendNb_keeps (addPrec_keeps (fst_keeps ‹_›
        (sealBeacon_keeps (setGrpL_keeps h)))))

theorem execSlotStart_keeps {slot : Fin 16} (h : Holds P s) : Ends P (execSlotStart slot s) :=
  ite_keeps h (foldl_keeps (fun _ _ => rearm_keeps) (when_keeps (fun h => foldl_keeps (fun _ _ => nbBeaconSend_keeps) h)
    (testsBegin_keeps (opensEnd_keeps (when_keeps lateWrites_keeps (driversDue_keeps (setClk_keeps h)))))))

theorem silentGrants_keeps (h : Holds P s) : Holds P (silentGrants s) :=
  setLk_keeps (foldl_keeps (fun _ _ => silentUp_keeps) (foldl_keeps (fun _ _ h => foldl_keeps
    (fun _ _ => silentUp_keeps) h) (foldl_keeps (fun _ _ h => foldl_keeps (fun _ _ => silentUp_keeps) h) h)))

theorem evalPorts_keeps (h : Holds P s) : Holds P (evalPorts s).1 :=
  foldl_keeps (fun _ _ => evalPort_keeps) (foldl_keeps (fun _ _ => setF_keeps) h)

theorem makeMoves_keeps {due : List (Option PortMove)} (h : Holds P s) : Holds P (makeMoves due s) :=
  foldl_keeps (fun _ _ => unless_keeps setPort_keeps) (portMovesDue_keeps (foldl_keeps (fun _ _ => setPort_keeps) h))

theorem leftPorts_keeps {was : List Nat} (h : Holds P s) : Holds P (leftPorts was s) :=
  foldl_keeps (fun _ _ h => ite_keeps h (foldl_keeps (fun _ _ => setRx_keeps) h)) h

theorem regroup_keeps {newMode : Bool} (h : Holds P s) : Holds P (regroup newMode s) :=
  foldl_keeps (fun _ _ h => ite_keeps h (refreshNode_keeps (setLk_keeps (nSet_keeps h)))) h

theorem governPort_keeps {c p : Nat} (h : Holds P s) : Holds P (governPort c p s) :=
  ite_keeps (ite_keeps (setF_keeps h) (when_keeps setF_keeps h)) (ite_keeps (ite_keeps (setF_keeps h)
    (when_keeps setF_keeps h)) h)

theorem throttleEvents_keeps {why port : Nat} (h : Holds P s) : Holds P (throttleEvents why port s) := by
  unfold throttleEvents
  extract_lets s1
  have h1 : Holds P s1 := setF_keeps h
  clear_value s1
  exact ite_keeps (raise_keeps h1) (ite_keeps (raise_keeps h1) h1)

theorem govern_keeps (h : Holds P s) : Holds P (govern s) :=
  throttleEvents_keeps (foldl_keeps (fun _ _ => governPort_keeps) (when_keeps throttleEvents_keeps (setF_keeps h)))

theorem sendBeacon_keeps {g : Nat} (h : Holds P s) : Holds P (sendBeacon g s) := by
  unfold sendBeacon
  refine ite_keeps h (ite_keeps (setGrpL_keeps h) ?_)
  extract_lets
  split
  · exact fst_keeps ‹_› (sealBeacon_keeps h)
  · exact ite_keeps (fst_keeps ‹_› (sealBeacon_keeps h)) (sendBb_keeps (addPrec_keeps (setGrpL_keeps (fst_keeps ‹_›
      (sealBeacon_keeps h)))))

theorem takeFigures_keeps {fig : SfFigures} (h : Holds P s) : Holds P (takeFigures fig s) :=
  setDec_keeps (foldl_keeps (fun _ _ => setF_keeps) (foldl_keeps (fun _ _ => setF_keeps) h))

theorem superAdopt_keeps (h : Holds P s) : Holds P (superAdopt s) :=
  unless_keeps (fun h => foldl_keeps (fun _ _ => setGrpL_keeps) h) (altReturn_keeps (takeAlt_keeps (nominalHeld_keeps
    (channelChange_keeps (sourceChange_keeps (lateDue_keeps (adoptBound_keeps (setBb_keeps h))))))))

theorem superBegin_keeps (h : Holds P s) : Holds P (superBegin s) :=
  foldl_keeps (fun _ _ => setPort_keeps) (foldl_keeps (fun _ _ => setGrpL_keeps) (setClk_keeps h))

theorem agePorts_keeps (h : Holds P s) : Holds P (agePorts s) := foldl_keeps (fun _ _ => nSet_keeps) h

theorem masterPulse_keeps (h : Holds P s) : Holds P (masterPulse s) := ite_keeps (emit_keeps (setClk_keeps h)) h

theorem routeFull_keeps (h : Holds P s) : Holds P (routeFull s) := ite_keeps h (raise_keeps (setLk_keeps h))

theorem superframeOpens_keeps {fig : SfFigures} (h : Holds P s) : Holds P (superframeOpens fig s) :=
  foldl_keeps (fun _ _ => rearm_keeps) (foldl_keeps (fun _ _ => sendBeacon_keeps) (masterPulse_keeps (testsBegin_keeps
    (opensEnd_keeps (setLk_keeps (routeFull_keeps (recomputeCap_keeps (govern_keeps (foldl_keeps (fun _ _ => setF_keeps)
    (regroup_keeps (superBegin_keeps (agePorts_keeps (leftPorts_keeps (makeMoves_keeps (foldl_keeps
    (fun _ _ => recoveryStep_keeps) (superAdopt_keeps (furrowReport_keeps (takeFigures_keeps (evalPorts_keeps
    (silentGrants_keeps (driversDue_keeps h)))))))))))))))))))))

theorem execSuperframeStart_keeps {fig : SfFigures} (h : Holds P s) : Ends P (execSuperframeStart fig s) :=
  unless_keeps superframeOpens_keeps h

end Sys2Proof.Machine
end

section
/-!
PROOF. What every step keeps: the Cloche (11).
-/
namespace Sys2Proof.Machine

variable {P : Inv} {Q : StepInv} {s : State}

theorem setCore_keeps {n : Nat} {f : CoreSt → CoreSt} (h : Holds P s) : Holds P (setCore n f s) := h

theorem reserveGcm_keeps {n : Nat} (h : Holds P s) : Holds P (reserveGcm n s).1 :=
  ite_fst_keeps (setKFlag_keeps h) (countUse_keeps (setKeyCtr_keeps h))

theorem sampleJob_keeps {j : JobSpec} {who : Nat} (h : Holds P s) : Holds P (sampleJob j who s).1 := by
  unfold sampleJob
  refine ite_fst_keeps h (ite_fst_keeps h (ite_fst_keeps h (ite_fst_keeps h (ite_fst_keeps ?_ ?_))))
  · split <;> exact fst_keeps ‹_› (reserveCtr_keeps h)
  · split <;> exact fst_keeps ‹_› (reserveGcm_keeps h)

theorem hostOutcome_keeps {j : JobSpec} {p key nonce : Bytes} (h : Holds P s) :
    Holds P (hostOutcome j p key nonce s).1 :=
  ite_fst_keeps (authFail_keeps h) (unless_keeps countUse_keeps h)

theorem coreDone_keeps {n a : Nat} {st : W16} (h : Holds P s) : Holds P (coreDone n a st s) :=
  when_keeps setCore_keeps (memSetNat_keeps h)

theorem coreOutcome_keeps {n a : Nat} {run : EngRun} (h : Holds P s) : Holds P (coreOutcome n a run s) :=
  ite_keeps (coreDone_keeps (when_keeps memSetNat_keeps (authFail_keeps (memWrite_keeps h)))) (coreDone_keeps
    (memSetNat_keeps (when_keeps memWrite_keeps (memWrite_keeps (unless_keeps countUse_keeps h)))))

theorem sealTx_keeps {id : Nat} {key nonce : Bytes} (h : Holds P s) : Holds P (sealTx id key nonce s) := by
  unfold sealTx
  split
  · exact h
  · exact setTx_keeps (when_keeps nSetMapreq_keeps h)

theorem unsealable_keeps {id : Nat} (h : Holds P s) : Holds P (unsealable id s) := by
  unfold unsealable
  split
  · exact h
  · exact ite_keeps (requeueTx_keeps h) (dropTx_keeps h)

theorem execClocheJobAssign_keeps {e : Fin 16} (h : Holds P s) : Ends P (execClocheJobAssign e s) := by
  unfold execClocheJobAssign
  refine ite_keeps h ?_
  split
  · exact engTake_keeps (setClo_keeps h)
  · split
    · exact h
    · extract_lets _ s2
      have h2 : Holds P s2 := setClo_keeps (takeJob_keeps h)
      split
      · exact h
      · exact h
      · split
        · exact unsealable_keeps h2
        · refine ite_keeps (unsealable_keeps h2) ?_
          extract_lets
          split
          · exact unsealable_keeps (fst_keeps ‹_› (reserveCtr_keeps h2))
          · exact engLoad_keeps (fst_keeps ‹_› (reserveCtr_keeps h2))
      · split
        · exact sendReply_keeps (fst_keeps ‹_› (sampleJob_keeps h2))
        · exact engLoad_keeps (fst_keeps ‹_› (sampleJob_keeps h2))
      · split
        · exact coreDone_keeps h2
        · split
          · exact coreDone_keeps (fst_keeps ‹_› (sampleJob_keeps h2))
          · exact engLoad_keeps (memSetNat_keeps (memSetNat_keeps (fst_keeps ‹_› (sampleJob_keeps h2))))

theorem execClocheJobComplete_keeps {e : Fin 16} (h : Holds P s) : Ends P (execClocheJobComplete e s) := by
  unfold execClocheJobComplete
  refine ite_keeps h ?_
  split
  · exact h
  · extract_lets _ s2
    have h2 : Holds P s2 := bumpF_keeps (engRest_keeps h)
    split
    · exact h
    · exact h
    · exact sealTx_keeps h2
    · exact coreOutcome_keeps h2
    · exact sendReply_keeps (hostOutcome_keeps h2)

theorem cutStep_keeps {e : Nat} (h : Holds P s) : Holds P (cutStep e s) := by
  unfold cutStep
  split
  · exact h
  · split
    · exact ite_keeps h (memSetNat_keeps (memWrite_keeps h))
    · exact h

theorem cutSteps_keeps (h : Holds P s) : Holds P (cutSteps s) := ite_keeps (foldl_keeps (fun _ _ => cutStep_keeps) h) h

theorem countEngines_keeps (h : Holds P s) : Holds P (countEngines s) := setF_keeps h

theorem retireEngine_keeps {e err : Nat} (h : Holds P s) : Holds P (retireEngine e err s) :=
  raise_keeps (countEngines_keeps (setClo_keeps (setF_keeps (setF_keeps h))))

theorem execEngineFault_keeps {e : Fin 16} {kat : Bool} (h : Holds P s) : Ends P (execEngineFault e kat s) :=
  unless_keeps retireEngine_keeps h

theorem execEngineIdleKat_keeps {e : Fin 16} {pass : Bool} (h : Holds P s) : Ends P (execEngineIdleKat e pass s) :=
  unless_keeps retireEngine_keeps h

theorem setTrng_keeps {k v : Nat} (h : Holds P s) : Holds P (setTrng k v s) := ite_keeps (setF_keeps h) (setF_keeps h)

theorem trngFails_keeps {src test : Nat} (h : Holds P s) : Holds P (trngFails src test s) :=
  ite_keeps h (raise_keeps (setTrng_keeps (setClo_keeps h)))

theorem execTrngFail_keeps {src : Fin 2} {bits : List Bool} (h : Holds P s) : Ends P (execTrngFail src bits s) := by
  unfold execTrngFail
  split
  · exact h
  · exact trngFails_keeps h

theorem execDrbgReseed_keeps {src : Fin 2} {raw : Bytes} (h : Holds P s) : Ends P (execDrbgReseed src raw s) := by
  unfold execDrbgReseed
  exact ite_keeps h (by split; exacts [trngFails_keeps h, setTrng_keeps (setDrbg_keeps h)])

theorem execDrbgHalt_keeps {requests : Nat} (h : Holds P s) : Ends P (execDrbgHalt requests s) :=
  drbgSpent_keeps (setClo_keeps h)

theorem startTest_keeps {src : Nat} {bits : List Bool} (h : Holds P s) : Holds P (startTest src bits s) :=
  ite_keeps (raise_keeps (setTrng_keeps h)) h

theorem clocheStarts_keeps {src : Nat} {raw : Bytes} (h : Holds P s) : Holds P (clocheStarts src raw s).1 := by
  unfold clocheStarts
  refine ite_fst_keeps h ?_
  split
  · exact trngFails_keeps h
  · exact when_keeps drawMask_keeps (setTrng_keeps (setDrbg_keeps h))

theorem abortRun_keeps {r : EngRun} (h : Holds P s) : Holds P (abortRun r s) := by
  unfold abortRun
  split
  · exact unsealable_keeps h
  · exact h
  · exact setLk_keeps h
  · exact sendReply_keeps h
  · exact coreDone_keeps h

theorem abortRuns_keeps (h : Holds P s) : Holds P (abortRuns s) :=
  foldl_keeps (fun _ _ => when_keeps engRest_keeps) (foldl_keeps (fun _ _ => abortRun_keeps) (setClo_keeps h))

theorem wipeKeys_keeps (h : Holds P s) : Holds P (wipeKeys s) := by
  unfold wipeKeys
  refine slotsUsed_keeps (when_keeps drawMask_keeps ?_)
  split
  · exact when_keeps (fun h => startTrial_keeps (setLk_keeps h)) (setClo_keeps (abortRuns_keeps h))
  · exact setClo_keeps (abortRuns_keeps h)

theorem kekStatus_keeps (h : Holds P s) : Holds P (kekStatus s) := setF_keeps (setF_keeps h)

theorem execCrypt_keeps {r : Req} (h : Holds Q.toInv s) : Ends Q.toInv (execCrypt r s) := by
  unfold execCrypt
  refine execReq_keeps (fun _ h => ite_answers (refuse_keeps h) (ite_answers (refuse_keeps h) ?_)) h
  split
  · exact setClo_keeps h
  · split
    · exact refuse_keeps (fst_keeps ‹_› (sampleJob_keeps h))
    · exact hostOutcome_keeps (bumpF_keeps (splitKey_keeps (setClo_keeps (fst_keeps ‹_› (sampleJob_keeps h)))))

theorem whenReady_keeps {op : Nat} {r : Req} {body : State → Ans} (hb : ∀ s, Holds P s → Answers P r (body s))
    (h : Holds P s) : Answers P r (whenReady op r body s) :=
  ite_answers (setClo_keeps h) (hb s h)

theorem rngAns_keeps {r : Req} (h : Holds P s) : Answers P r (rngAns r s) :=
  ite_answers (refuse_keeps h) (drawBytes_keeps h)

theorem execRngRead_keeps {r : Req} (h : Holds Q.toInv s) : Ends Q.toInv (execRngRead r s) :=
  execReq_keeps (fun _ h => whenReady_keeps (fun _ => rngAns_keeps) h) h

theorem execKekLoad_keeps {r : Req} (h : Holds Q.toInv s) : Ends Q.toInv (execKekLoad r s) :=
  execReq_keeps (fun _ h => ite_answers (refuse_keeps h) (ite_answers (refuse_keeps h) (kekStatus_keeps h))) h

theorem storeKey_keeps {n eui cls mode allow : Nat} {fixed key : Bytes} {big : Bool} {flags : Nat} {ctr : Bytes}
    (h : Holds P s) :
    Holds P (storeKey n eui cls mode allow fixed key big flags ctr s) := by
  unfold storeKey
  extract_lets _ _ _ _ _ s6
  have h6 : Holds P s6 := setKeyCtr_keeps (setKeySlot_keeps h)
  exact slotsUsed_keeps (ite_keeps (setKeyCtr_keeps (setKeySlot_keeps h6)) (when_keeps (fun h => setKeyCtr_keeps
    (setKeySlot_keeps h)) h6))

theorem unwrapAns_keeps {r : Req} (h : Holds P s) : Answers P r (unwrapAns r s) :=
  ite_answers (refuse_keeps h) (ite_answers (refuse_keeps h) (ite_answers (refuse_keeps h) (resetUse_keeps
    (storeKey_keeps h))))

theorem execKeyUnwrap_keeps {r : Req} (h : Holds Q.toInv s) : Ends Q.toInv (execKeyUnwrap r s) :=
  execReq_keeps (fun _ h => whenReady_keeps (fun _ => unwrapAns_keeps) h) h

theorem saveAns_keeps {r : Req} (h : Holds P s) : Answers P r (saveAns r s) :=
  ite_answers (refuse_keeps h) (ite_answers (refuse_keeps h) (resetUse_keeps (setKFlag_keeps h)))

theorem execKeySave_keeps {r : Req} (h : Holds Q.toInv s) : Ends Q.toInv (execKeySave r s) :=
  execReq_keeps (fun _ h => whenReady_keeps (fun _ => saveAns_keeps) h) h

theorem restoreAns_keeps {r : Req} (h : Holds P s) : Answers P r (restoreAns r s) :=
  ite_answers (refuse_keeps h) (ite_answers (refuse_keeps h) (ite_answers (refuse_keeps h) (ite_answers (refuse_keeps h)
    (storeKey_keeps h))))

theorem execKeyRestore_keeps {r : Req} (h : Holds Q.toInv s) : Ends Q.toInv (execKeyRestore r s) :=
  execReq_keeps (fun _ h => whenReady_keeps (fun _ => restoreAns_keeps) h) h

theorem serveWaiting_keeps {e : Nat × Req} (h : Holds P s) : Holds P (serveWaiting e s) := by
  have ha : Answers P e.2 (if e.1 = 0x802 then rngAns e.2 s else if e.1 = 0x810 then unwrapAns e.2 s
      else if e.1 = 0x811 then saveAns e.2 s else restoreAns e.2 s) :=
    ite_answers (rngAns_keeps h) (ite_answers (unwrapAns_keeps h) (ite_answers (saveAns_keeps h) (restoreAns_keeps h)))
  unfold serveWaiting
  split
  · exact sendReply_keeps (ha.reply ‹_›)
  · exact ha.hold ‹_›
  · exact (ha.defer ‹_›).1

theorem clocheReady_keeps (h : Holds P s) : Holds P (clocheReady s) :=
  foldl_keeps (fun _ _ => serveWaiting_keeps) (raise_keeps (slotsUsed_keeps (setF_keeps (setClo_keeps h))))

theorem execClocheReady_keeps {src : Fin 2} {raw : Bytes} (h : Holds P s) : Ends P (execClocheReady src raw s) :=
  ite_keeps h (when_keeps clocheReady_keeps (clocheStarts_keeps h))

theorem execKeyErase_keeps {r : Req} (h : Holds Q.toInv s) : Ends Q.toInv (execKeyErase r s) :=
  execReq_keeps (fun _ h => ite_answers (refuse_keeps h) (slotsUsed_keeps (resetUse_keeps (when_keeps
    (fun h => setKeyCtr_keeps (setKeySlot_keeps h)) (setKeyCtr_keeps (setKeySlot_keeps h)))))) h

theorem execKeyInfo_keeps {r : Req} (h : Holds Q.toInv s) : Ends Q.toInv (execKeyInfo r s) :=
  execReq_keeps (fun _ h => ite_answers (refuse_keeps h) h) h

theorem execCeTest_keeps {r : Req} (h : Holds Q.toInv s) : Ends Q.toInv (execCeTest r s) :=
  execReq_keeps (fun _ h => deferIf_keeps h (fun _ => when_keeps setF_keeps)) h

theorem execCeTestDone_keeps {e : Fin 16} {failCase : Fin 8} (h : Holds Q.toInv s) :
    Ends Q.toInv (execCeTestDone e failCase s) := by
  unfold execCeTestDone
  extract_lets
  split
  · exact h
  · exact ite_keeps h (finish_keeps (when_keeps retireEngine_keeps (setF_keeps h)))

end Sys2Proof.Machine
end

section
/-!
PROOF. What every step keeps: the backhaul (12).
-/
namespace Sys2Proof.Machine

variable {P : Inv} {Q : StepInv} {s : State}

theorem setBh_keeps {f : BhSt → BhSt} (h : Holds P s) : Holds P (setBh f s) := h

theorem setLaneRec_keeps {l : Nat} {f : BhLane → BhLane} (h : Holds P s) : Holds P (setLaneRec l f s) := setBh_keeps h

theorem setGraft_keeps {g : Nat} {f : GraftSt → GraftSt} (h : Holds P s) : Holds P (setGraft g f s) := setBh_keeps h

theorem setMembers_keeps {f : BhMember → BhMember} (h : Holds P s) : Holds P (setMembers f s) := setBh_keeps h

theorem setLaneF_keeps {l hi lo v : Nat} (h : Holds P s) : Holds P (setLaneF l hi lo v s) := setF_keeps h

theorem skewStatus_keeps (h : Holds P s) : Holds P (skewStatus s) := setF_keeps (setF_keeps h)

theorem graftFill_keeps {f n g : Nat} (h : Holds P s) : Holds P (graftFill f n g s) := by
  induction f generalizing s with
  | zero => exact h
  | succ f ih =>
    unfold graftFill
    refine ite_keeps h ?_
    split
    · exact ih (drainGraft_keeps (setGraft_keeps (qRelease_keeps h)))
    · exact ih (setGraft_keeps h)

theorem graftShare_keeps {g : Nat} (h : Holds P s) : Holds P (graftShare g s).1 := setGraft_keeps (graftFill_keeps h)

theorem graftStatus_keeps {g : Nat} (h : Holds P s) : Holds P (graftStatus g s) := setObj_keeps h

theorem graftMst_keeps {g : Nat} (h : Holds P s) : Holds P (graftMst g s) := by
  unfold graftMst
  extract_lets _ _ _ _ _ _ s7
  have h7 : Holds P s7 := when_keeps setGraft_keeps h
  exact graftStatus_keeps (ite_keeps (raise_keeps (setGraft_keeps h7)) (when_keeps raise_keeps (setGraft_keeps h7)))

theorem checkMembers_keeps (h : Holds P s) : Holds P (checkMembers s) :=
  foldl_keeps (fun _ _ => graftMst_keeps) (setMembers_keeps (foldl_keeps (fun _ _ h => ite_keeps (when_keeps raise_keeps
    (raise_keeps h)) h) h))

theorem laneMembers_keeps (h : Holds P s) : Holds P (laneMembers s) := foldl_keeps (fun _ _ => setLaneF_keeps) h

theorem graftDelays_keeps {g : Nat} (h : Holds P s) : Holds P (graftDelays g s) := by
  unfold graftDelays
  extract_lets _ first
  clear_value first
  split
  · exact h
  · exact setMembers_keeps (foldl_keeps (fun _ _ => when_keeps raise_keeps) h)

theorem execFawMatch_keeps {lane : Fin 8} {pos : Nat} (h : Holds P s) : Ends P (execFawMatch lane pos s) :=
  ite_keeps h (setLaneF_keeps (setLaneRec_keeps h))

theorem laneAligned_keeps {l : Nat} {c : BhCand} {mfi bip : Nat} (h : Holds P s) : Holds P (laneAligned l c mfi bip s) := by
  unfold laneAligned
  exact checkMembers_keeps (setLaneRec_keeps (setLaneF_keeps (setLaneF_keeps h)))

theorem candFrame_keeps {l : Nat} {c : BhCand} {b : Bytes} (h : Holds P s) : Holds P (candFrame l c b s) := by
  unfold candFrame
  extract_lets
  split
  · exact setLaneRec_keeps h
  · exact ite_keeps (when_keeps setLaneF_keeps (setLaneRec_keeps h)) (ite_keeps (setLaneRec_keeps h) (ite_keeps
      (laneAligned_keeps h) (ite_keeps (laneAligned_keeps h) (when_keeps setLaneF_keeps (setLaneRec_keeps h)))))

theorem takeWord_keeps {l ts c : Nat} {w : Bytes} (h : Holds P s) : Holds P (takeWord l ts c w s) :=
  ite_keeps (setMembers_keeps h) (unless_keeps (fun h => setGraft_keeps (setMembers_keeps h)) (setMembers_keeps h))

theorem takeTrace_keeps {l mfi : Nat} {b : Byte} (h : Holds P s) : Holds P (takeTrace l mfi b s) :=
  unless_keeps (fun h => unless_keeps (fun h => ite_keeps (setLaneF_keeps h) (when_keeps setLaneF_keeps h))
    (setLaneRec_keeps h)) (setLaneRec_keeps h)

theorem takeTest_keeps {l : Nat} {pay : Bytes} (h : Holds P s) : Holds P (takeTest l pay s) :=
  unless_keeps setLaneRec_keeps h

theorem takeSlots_keeps {l mfi : Nat} {pay : Array Byte} (h : Holds P s) : Holds P (takeSlots l mfi pay s) :=
  foldl_keeps (fun _ _ => when_keeps setGraft_keeps) h

theorem realign_keeps {g : Nat} (h : Holds P s) : Holds P (realign g s) := setGraft_keeps h

theorem rxCycle_keeps {g c : Nat} (h : Holds P s) : Holds P (rxCycle g c s) := by
  unfold rxCycle
  extract_lets _ _ _ _ _ s6
  have h6 : Holds P s6 := when_keeps setGraft_keeps (setMembers_keeps (setGraft_keeps h))
  exact ite_keeps (setGraft_keeps h6) (ite_keeps (realign_keeps (bumpF_keeps h6)) (setGraft_keeps (bumpF_keeps h6)))

theorem rxAdvance_keeps {g : Nat} (h : Holds P s) : Holds P (rxAdvance g s) := by
  unfold rxAdvance
  split
  · exact h
  · split
    · exact rxCycle_keeps h
    · exact ite_keeps h (ite_keeps (foldl_keeps (fun _ _ => rxCycle_keeps) h) (rxCycle_keeps h))

theorem alignedFrame_keeps {l : Nat} {b : Bytes} (h : Holds P s) : Holds P (alignedFrame l b s) := by
  unfold alignedFrame
  refine ite_keeps (checkMembers_keeps (setLaneF_keeps (setLaneF_keeps (setLaneRec_keeps h)))) ?_
  extract_lets _ _ _ _ _ _ _ _ s9
  have h9 : Holds P s9 := setLaneF_keeps (setLaneF_keeps (setLaneF_keeps h))
  exact ite_keeps (checkMembers_keeps (takeTrace_keeps (setLaneRec_keeps h9))) (checkMembers_keeps (takeSlots_keeps
    (takeTest_keeps (foldl_keeps (fun _ _ h => rxAdvance_keeps (graftDelays_keeps h)) (foldl_keeps
    (fun _ _ => takeWord_keeps) (takeTrace_keeps (setLaneRec_keeps h9)))))))

theorem execVirerFrameReceive_keeps {lane : Fin 8} {pos : Nat} {bytes : Bytes} (h : Holds P s) :
    Ends P (execVirerFrameReceive lane pos bytes s) := by
  unfold execVirerFrameReceive
  refine unless_keeps (fun h => ite_keeps (alignedFrame_keeps h) ?_) (ite_fst_keeps (qStream_keeps h) h)
  split
  · exact candFrame_keeps h
  · exact h

theorem laneLos_keeps {l : Nat} (h : Holds P s) : Holds P (laneLos l s) :=
  checkMembers_keeps (setLaneF_keeps (setLaneRec_keeps h))

theorem execLaneLos_keeps {lane : Fin 8} (h : Holds P s) : Ends P (execLaneLos lane s) := when_keeps laneLos_keeps h

theorem execLaneLosClear_keeps {lane : Fin 8} (h : Holds P s) : Ends P (execLaneLosClear lane s) :=
  ite_keeps h (checkMembers_keeps (setLaneF_keeps (setLaneRec_keeps h)))

theorem releaseFrame_keeps {g m : Nat} (h : Holds P s) : Holds P (releaseFrame g m s) := setGraft_keeps h

theorem execGraftFrameRelease_keeps {gid : Fin 16} (h : Holds P s) : Ends P (execGraftFrameRelease gid s) := by
  unfold execGraftFrameRelease
  split
  · exact h
  · exact unless_keeps releaseFrame_keeps h

theorem execGraftRealign_keeps {gid : Fin 16} (h : Holds P s) : Ends P (execGraftRealign gid s) := realign_keeps h

theorem passDown_keeps {f q : Nat} (h : Holds P s) : Holds P (passDown f q s) := by
  induction f generalizing s with
  | zero => exact h
  | succ f ih =>
    unfold passDown
    split
    · exact h
    · refine ite_keeps h ?_
      split
      · exact ih (qPop_keeps ‹_› (downlinkData_keeps h))
      · exact downlinkData_keeps h

theorem packetIn_keeps {g : Nat} {p : List (Option Byte)} (h : Holds P s) : Holds P (packetIn g p s) :=
  ite_keeps (setGraft_keeps (bumpF_keeps h)) (ite_keeps (bumpF_keeps h) (passDown_keeps (qPush_keeps h)))

theorem eat_keeps {n g : Nat} (h : Holds P s) : Holds P (eat n g s) := setGraft_keeps h

theorem hecFail_keeps {g : Nat} (h : Holds P s) : Holds P (hecFail g s) :=
  when_keeps bumpF_keeps (setGraft_keeps (bumpF_keeps h))

theorem delineate_keeps {f g : Nat} (h : Holds P s) : Holds P (delineate f g s) := by
  induction f generalizing s with
  | zero => exact h
  | succ f ih =>
    unfold delineate
    extract_lets
    split
    · refine ite_keeps h ?_
      split
      · exact ih (setGraft_keeps h)
      · exact ih (eat_keeps h)
    · exact ite_keeps h (ite_keeps (ih (setGraft_keeps h)) (ih (bumpF_keeps (setGraft_keeps (eat_keeps h)))))
    · refine ite_keeps h ?_
      split
      · exact ih (eat_keeps (setGraft_keeps h))
      · exact ite_keeps h (packetIn_keeps (eat_keeps (setGraft_keeps h)))
      · exact ite_keeps (ih (hecFail_keeps (eat_keeps h))) (ite_keeps h (ih (hecFail_keeps (eat_keeps h))))

theorem execGraftPacketReceive_keeps {gid : Fin 16} (h : Holds P s) : Ends P (execGraftPacketReceive gid s) :=
  delineate_keeps h

theorem announce_keeps {pay adds : List BhMember} (h : Holds P s) : Holds P (announce pay adds s) := setMembers_keeps h

theorem txCycle_keeps {g : Nat} (h : Holds P s) : Holds P (txCycle g s) :=
  ite_keeps h (unless_keeps (fun h => ite_keeps (announce_keeps (setMembers_keeps h)) (setBh_keeps (announce_keeps
    (setMembers_keeps h)))) (setMembers_keeps h))

theorem graftsOff_keeps (h : Holds P s) : Holds P (graftsOff s) :=
  foldl_keeps (fun _ _ h => ite_keeps h (setGraft_keeps (realign_keeps (setBh_keeps h)))) h

theorem cycleEnds_keeps (h : Holds P s) : Holds P (cycleEnds s) :=
  skewStatus_keeps (laneMembers_keeps (passDown_keeps (passDown_keeps (checkMembers_keeps (foldl_keeps
    (fun _ _ => txCycle_keeps) (graftsOff_keeps (adoptBound_keeps (setBh_keeps h))))))))

theorem execControlCycleEnd_keeps (h : Holds P s) : Ends P (execControlCycleEnd s) := when_keeps cycleEnds_keeps h

theorem execVirerFrameTransmit_keeps (h : Holds P s) : Ends P (execVirerFrameTransmit s) :=
  ite_keeps h (setBh_keeps (foldl_keeps (fun _ _ => setGraft_keeps) (foldl_keeps (fun _ _ h => ite_keeps (emit_keeps
    (qStream_keeps (setLaneRec_keeps h))) h) (foldl_fst_keeps (fun _ _ => graftShare_keeps)
    (when_keeps cycleEnds_keeps h)))))

theorem binAdd_keeps {a : Nat} {x : PmSec} (h : Holds P s) : Holds P (binAdd a x s) :=
  when_keeps memWrite_keeps (memSetNat_keeps (memSetNat_keeps (ite_fst_keeps (memSetNat_keeps h) (memSetNat_keeps
    (memSetNat_keeps (memSetNat_keeps h))))))

theorem pmPush_keeps {obj : Nat} {x : PmSec} (h : Holds P s) : Holds P (pmPush obj x s) :=
  foldl_keeps (fun _ _ h => binAdd_keeps (binAdd_keeps h)) (setBh_keeps h)

theorem lanePm_keeps {l : Nat} (h : Holds P s) : Holds P (lanePm l s) := setLaneRec_keeps (when_keeps pmPush_keeps h)

theorem graftPm_keeps {g : Nat} (h : Holds P s) : Holds P (graftPm g s) := setGraft_keeps (when_keeps pmPush_keeps h)

theorem execPmSecond_keeps (h : Holds P s) : Ends P (execPmSecond s) :=
  ite_keeps h (setBh_keeps (foldl_keeps (fun _ _ => graftPm_keeps) (foldl_keeps (fun _ _ => lanePm_keeps) h)))

theorem closeBins_keeps {day : Bool} {start : W64} (h : Holds P s) : Holds P (closeBins day start s) :=
  setBh_keeps (foldl_keeps (fun _ _ h => memWrite_keeps (foldl_keeps (fun _ _ => memWrite_keeps) (memWrite_keeps h))) h)

theorem execPmBinClose_keeps {day : Bool} (h : Holds P s) : Ends P (execPmBinClose day s) := closeBins_keeps h

theorem execGraftAdd_keeps {r : Req} (h : Holds Q.toInv s) : Ends Q.toInv (execGraftAdd r s) :=
  execReq_keeps (fun _ h => ite_answers (refuse_keeps h) (ite_answers (refuse_keeps h) (ite_answers (refuse_keeps h)
    (graftStatus_keeps (skewStatus_keeps (laneMembers_keeps (setBh_keeps h))))))) h

theorem execGraftRemove_keeps {r : Req} (h : Holds Q.toInv s) : Ends Q.toInv (execGraftRemove r s) :=
  execReq_keeps (fun _ h => ite_answers (refuse_keeps h) (ite_answers (refuse_keeps h) (graftStatus_keeps
    (setMembers_keeps h)))) h

theorem execGraftRead_keeps {r : Req} (h : Holds Q.toInv s) : Ends Q.toInv (execGraftRead r s) :=
  execReq_keeps (fun _ h => h) h

theorem execBhPmRead_keeps {r : Req} (h : Holds Q.toInv s) : Ends Q.toInv (execBhPmRead r s) :=
  execReq_keeps (fun _ h => h) h

theorem execBhPmAlign_keeps {r : Req} (h : Holds Q.toInv s) : Ends Q.toInv (execBhPmAlign r s) :=
  execReq_keeps (fun _ h => closeBins_keeps (closeBins_keeps (setBh_keeps h))) h

theorem execBhTraceRead_keeps {r : Req} (h : Holds Q.toInv s) : Ends Q.toInv (execBhTraceRead r s) :=
  execReq_keeps (fun _ h => ite_answers (refuse_keeps h) h) h

theorem execBhTraceLearn_keeps {r : Req} (h : Holds Q.toInv s) : Ends Q.toInv (execBhTraceLearn r s) :=
  execReq_keeps (fun _ h => ite_answers (refuse_keeps h) (setLaneRec_keeps h)) h

theorem execBhLaneTest_keeps {r : Req} (h : Holds Q.toInv s) : Ends Q.toInv (execBhLaneTest r s) :=
  execReq_keeps (fun _ h => ite_answers (refuse_keeps h) (deferIf_keeps h (fun _ h => setLaneF_keeps
    (setLaneRec_keeps h)))) h

theorem execBhLaneTestDone_keeps {lane : Fin 8} (h : Holds Q.toInv s) : Ends Q.toInv (execBhLaneTestDone lane s) := by
  unfold execBhLaneTestDone
  split
  · exact h
  · exact finish_keeps (setLaneF_keeps h)

theorem bhPortReset_keeps {port : Nat} (h : Holds P s) : Holds P (bhPortReset port s) :=
  skewStatus_keeps (laneMembers_keeps (checkMembers_keeps (foldl_keeps (fun _ _ => announce_keeps) (setMembers_keeps
    (setBh_keeps (foldl_keeps (fun _ _ => setLaneRec_keeps) h))))))

end Sys2Proof.Machine
end

section
/-!
PROOF. What every step keeps: mains measurement (13).
-/
namespace Sys2Proof.Machine

variable {P : Inv} {Q : StepInv} {s : State}

theorem setMeas_keeps {f : MeasSt → MeasSt} (h : Holds P s) : Holds P (setMeas f s) := h

theorem setSlice_keeps {k : Nat} {f : SliceSt → SliceSt} (h : Holds P s) : Holds P (setSlice k f s) := setMeas_keeps h

theorem resultWrite_keeps {ty k ch gain entry tags tb : Nat} {data : Bytes} (h : Holds P s) :
    Holds P (resultWrite ty k ch gain entry tags tb data s) :=
  qWord_keeps (setMeas_keeps h)

theorem result_keeps {ty k ch gain entry tags tb : Nat} {data : Bytes} (h : Holds P s) :
    Holds P (result ty k ch gain entry tags tb data s) :=
  unless_keeps resultWrite_keeps (qStream_keeps h)

theorem cycleRecord_keeps {k i : Nat} {w : W32} {cut : Bool} {a : Rat} {d : Interval} (h : Holds P s) :
    Holds P (cycleRecord k i w cut a d s) :=
  result_keeps h

theorem waveRecords_keeps {k i : Nat} {w : W32} {cut : Bool} {outs : List MeasOut} (h : Holds P s) :
    Holds P (waveRecords k i w cut outs s) :=
  foldl_keeps (fun _ _ => result_keeps) h

theorem spareFollows_keeps {k : Nat} (h : Holds P s) : Holds P (spareFollows k s) := unless_keeps setSlice_keeps h

theorem startOn_keeps {k : Nat} {w : W32} (h : Holds P s) : Holds P (startOn k w s) :=
  when_keeps spareFollows_keeps (setSlice_keeps (adopt_keeps h))

theorem issueEntry_keeps {i : Nat} {w : W32} {trig : Bool} (h : Holds P s) : Holds P (issueEntry i w trig s) :=
  startOn_keeps (setSlice_keeps h)

theorem endCont_keeps {k : Nat} (h : Holds P s) : Holds P (endCont k s) :=
  ite_keeps (setSlice_keeps h) (ite_keeps (setSlice_keeps h) (setSlice_keeps h))

theorem loopStart_keeps (h : Holds P s) : Holds P (loopStart s) := by
  unfold loopStart
  refine unless_keeps (fun h => ?_) (setMeas_keeps (bumpF_keeps h))
  extract_lets
  split
  · exact raise_keeps (bumpF_keeps (setMeas_keeps h))
  · refine inTurn_holds (fun _ _ => raise_keeps) (setMeas_keeps (foldl_keeps (fun _ _ h => ?_) (adoptBound_keeps
      (setMeas_keeps h))))
    split
    · exact when_keeps endCont_keeps h
    · exact h

theorem seqStatus_keeps (h : Holds P s) : Holds P (seqStatus s) := setF_keeps (setF_keeps (setF_keeps h))

theorem runEnds_keeps (h : Holds P s) : Holds P (runEnds s) := setMeas_keeps h

theorem issueRun_keeps {l : List (Nat × W32)} (h : Holds P s) : Holds P (issueRun l s) := by
  unfold issueRun
  extract_lets l'
  clear_value l'
  split
  · exact runEnds_keeps h
  · exact ite_keeps (when_keeps runEnds_keeps (issueEntry_keeps (setMeas_keeps h))) (setMeas_keeps h)

theorem issueLoop_keeps (h : Holds P s) : Holds P (issueLoop s) := by
  unfold issueLoop
  extract_lets _ _ s3
  have h3 : Holds P s3 := when_keeps loopStart_keeps h
  split
  · exact issueEntry_keeps (setMeas_keeps h3)
  · split
    · exact h3
    · exact when_keeps (fun h => issueEntry_keeps (setMeas_keeps h)) h3

theorem execSeqEntryIssue_keeps (h : Holds P s) : Ends P (execSeqEntryIssue s) := by
  unfold execSeqEntryIssue
  refine ite_keeps h (seqStatus_keeps ?_)
  split
  · exact issueEntry_keeps (setMeas_keeps h)
  · split
    · exact issueRun_keeps h
    · exact issueRun_keeps h
    · exact issueLoop_keeps h

theorem execSliceSyncReset_keeps {sl : Fin 9} (h : Holds P s) : Ends P (execSliceSyncReset sl s) :=
  ite_keeps (setSlice_keeps (setSlice_keeps h)) h

theorem execSliceSettled_keeps {sl : Fin 9} (h : Holds P s) : Ends P (execSliceSettled sl s) :=
  ite_keeps (ite_keeps (setSlice_keeps h) (setSlice_keeps h)) h

theorem execEntryDelayEnd_keeps {sl : Fin 9} (h : Holds P s) : Ends P (execEntryDelayEnd sl s) :=
  when_keeps setSlice_keeps h

theorem freeSlice_keeps {k : Nat} (h : Holds P s) : Holds P (freeSlice k s) := setSlice_keeps h

theorem intervalNext_keeps {k : Nat} {w : W32} (h : Holds P s) : Holds P (intervalNext k w s) :=
  ite_keeps (ite_keeps (freeSlice_keeps h) (startOn_keeps h)) (ite_keeps (freeSlice_keeps h) (setSlice_keeps h))

theorem execMeasIntervalEnd_keeps {sl : Fin 9} {rx : ModRx} (h : Holds P s) : Ends P (execMeasIntervalEnd sl rx s) := by
  unfold execMeasIntervalEnd
  extract_lets
  split
  · exact h
  · exact ite_keeps h (ite_keeps (ite_keeps h (ite_keeps (setSlice_keeps (waveRecords_keeps h)) (intervalNext_keeps
      (waveRecords_keeps h)))) (ite_keeps h (intervalNext_keeps (cycleRecord_keeps h))))

theorem changeNow_keeps {k : Nat} {w : W32} (h : Holds P s) : Holds P (changeNow k w s) :=
  ite_keeps (setSlice_keeps h) (startOn_keeps h)

theorem execPhase4000Instant_keeps (h : Holds P s) : Ends P (execPhase4000Instant s) := by
  unfold execPhase4000Instant
  refine ite_keeps h (foldl_keeps (fun _ _ h => ?_) h)
  extract_lets
  split
  · exact ite_keeps h (ite_keeps (ite_keeps (setSlice_keeps h) (freeSlice_keeps h)) (when_keeps changeNow_keeps h))
  · exact h

theorem trigger_keeps {source : Nat} (h : Holds P s) : Holds P (trigger source s).1 :=
  ite_fst_keeps (raise_keeps (bumpF_keeps h)) (seqStatus_keeps (resultWrite_keeps (setMeas_keeps h)))

theorem execTriggerArmedInstant_keeps (h : Holds P s) : Ends P (execTriggerArmedInstant s) := by
  unfold execTriggerArmedInstant
  split
  · exact h
  · exact ite_keeps h (when_keeps trigger_keeps (setMeas_keeps h))

theorem stepDeclared_keeps {k i : Nat} {w cfg : W32} {d : StepFound} (h : Holds P s) :
    Holds P (stepDeclared k i w cfg d s) :=
  when_keeps trigger_keeps (when_keeps result_keeps (raise_keeps (bumpF_keeps (setSlice_keeps h))))

theorem execLoadStepDetect_keeps {sl : Fin 9} {rx : ModRx} (h : Holds P s) : Ends P (execLoadStepDetect sl rx s) := by
  unfold execLoadStepDetect
  extract_lets
  split
  · exact unless_keeps stepDeclared_keeps h
  · exact h

theorem rotStatus_keeps (h : Holds P s) : Holds P (rotStatus s) := setF_keeps h

theorem execSliceRotation_keeps (h : Holds P s) : Ends P (execSliceRotation s) := by
  unfold execSliceRotation
  refine ite_keeps h ?_
  extract_lets s1
  have h1 : Holds P s1 := rotStatus_keeps (setMeas_keeps h)
  split
  · exact spareFollows_keeps h1
  · exact h1

theorem setMap_keeps {l k : Nat} (h : Holds P s) : Holds P (setMap l k s) := setF_keeps h

theorem execRotationExchange_keeps (h : Holds P s) : Ends P (execRotationExchange s) := by
  unfold execRotationExchange
  split
  · exact h
  · extract_lets
    split
    · exact h
    · exact ite_keeps h (rotStatus_keeps (setF_keeps (setMap_keeps (setMeas_keeps (setSlice_keeps
        (setSlice_keeps h))))))

theorem retireSlice_keeps {k reason : Nat} (h : Holds P s) : Holds P (retireSlice k reason s) := by
  unfold retireSlice
  refine ite_keeps h ?_
  extract_lets s1 s2 s3 p x
  have h3 : Holds P s3 := setSlice_keeps (setMeas_keeps (raise_keeps (setF_keeps h)))
  refine ite_keeps (rotStatus_keeps (setF_keeps h3)) ?_
  split
  · exact rotStatus_keeps h3
  · extract_lets s4 s5
    have h4 : Holds P s4 := setF_keeps (setMap_keeps h3)
    have h5 : Holds P s5 := ite_keeps (setSlice_keeps h4) (freeSlice_keeps h4)
    clear_value s5
    refine rotStatus_keeps ?_
    split
    · exact h5
    · exact ite_keeps h5 (ite_keeps h5 (ite_keeps h5 (startOn_keeps (setSlice_keeps h5))))

theorem execSliceRetire_keeps {sl : Fin 9} {reason : Fin 3} (h : Holds P s) : Ends P (execSliceRetire sl reason s) :=
  when_keeps retireSlice_keeps h

theorem execSliceCalibrationDone_keeps {sl : Fin 9} {refs : Vector (Rat × Rat × Rat) 5} {gainBad : Bool} (h : Holds P s)
    :
    Ends P (execSliceCalibrationDone sl refs gainBad s) :=
  ite_keeps h (ite_keeps (retireSlice_keeps (setSlice_keeps h)) (ite_keeps (retireSlice_keeps (setSlice_keeps h))
    (ite_keeps (rotStatus_keeps (setF_keeps (setMeas_keeps (setSlice_keeps h)))) (rotStatus_keeps (setSlice_keeps h)))))

theorem measBegin_keeps (h : Holds P s) : Holds P (measBegin s) :=
  rotStatus_keeps (seqStatus_keeps (setMeas_keeps (foldl_keeps (fun _ _ => setSlice_keeps) h)))

theorem crossRecord_keeps {ch i k stamp : Nat} (h : Holds P s) : Holds P (crossRecord ch i k stamp s) :=
  unless_keeps (fun h => result_keeps h) (setMeas_keeps h)

theorem execMainsCrossingCapture_keeps {ch : Fin 24} {rx : ModRx} (h : Holds P s) :
    Ends P (execMainsCrossingCapture ch rx s) := by
  unfold execMainsCrossingCapture
  refine ite_keeps h ?_
  split
  · exact h
  · split
    · exact captureClock_keeps (crossRecord_keeps h)
    · exact h

theorem popResults_keeps {n : Nat} (h : Holds P s) : Holds P (popResults n s).1 := by
  induction n generalizing s with
  | zero => exact h
  | succ n ih => exact ite_fst_keeps h (ih (qRead1_keeps h))

theorem sendMeas_keeps {n : Nat} (h : Holds P s) : Holds P (sendMeas n s) :=
  ite_keeps h (unless_keeps bumpF_keeps (setCore_keeps (qPush_keeps h)))

theorem execMeasForward_keeps (h : Holds P s) : Ends P (execMeasForward s) :=
  ite_keeps h (foldl_keeps (fun _ _ h => when_keeps sendMeas_keeps (foldl_keeps (fun _ _ => sendMeas_keeps)
    (setCore_keeps h))) (popResults_keeps h))

theorem execMeasRead_keeps {r : Req} (h : Holds Q.toInv s) : Ends Q.toInv (execMeasRead r s) :=
  execReq_keeps (fun _ h => ite_answers h (popResults_keeps h)) h

theorem execMeasTrigger_keeps {r : Req} (h : Holds Q.toInv s) : Ends Q.toInv (execMeasTrigger r s) :=
  execReq_keeps (fun _ h => ite_answers (refuse_keeps h) (ite_answers (trigger_keeps h) (refuse_keeps
    (trigger_keeps h)))) h

theorem execMeasTrigAt_keeps {r : Req} (h : Holds Q.toInv s) : Ends Q.toInv (execMeasTrigAt r s) :=
  execReq_keeps (fun _ h => ite_answers (refuse_keeps h) (ite_answers (trigger_keeps (setMeas_keeps h))
    (setMeas_keeps h))) h

theorem syscalStarts_keeps {ch cycles : Nat} (h : Holds P s) : Holds P (syscalStarts ch cycles s) :=
  setF_keeps (setSlice_keeps (setSlice_keeps h))

theorem execMeasSyscal_keeps {r : Req} (h : Holds Q.toInv s) : Ends Q.toInv (execMeasSyscal r s) :=
  execReq_keeps (fun _ h => ite_answers (refuse_keeps h) (ite_answers (refuse_keeps h) (deferIf_keeps h
    (fun _ => syscalStarts_keeps)))) h

theorem syscalAnswer_keeps {d : Deferred} {st : W16} {id : Nat} {r : Interval} (h : Holds Q.toInv s) :
    Holds Q.toInv (syscalAnswer d st id r s) :=
  finish_keeps (setF_keeps h)

theorem syscalStore_keeps {ch step target : Nat} {r : Interval} (h : Holds P s) :
    Holds P (syscalStore ch step target r s).1 :=
  ite_fst_keeps (ite_fst_keeps h (setF_keeps (setF_keeps h))) (ite_fst_keeps h (setF_keeps (setF_keeps (setF_keeps h))))

theorem execMeasSyscalDone_keeps {rx : ModRx} (h : Holds Q.toInv s) : Ends Q.toInv (execMeasSyscalDone rx s) := by
  unfold execMeasSyscalDone
  split
  · exact h
  · exact ite_keeps (finish_keeps (setF_keeps h)) (ite_keeps h (syscalAnswer_keeps (syscalStore_keeps h)))

theorem execMeasLast_keeps {r : Req} (h : Holds Q.toInv s) : Ends Q.toInv (execMeasLast r s) :=
  execReq_keeps (fun _ h => ite_answers (refuse_keeps h) h) h

end Sys2Proof.Machine
end

section
/-!
PROOF. What every step keeps: the console and the chain (15).
-/
namespace Sys2Proof.Machine

variable {P : Inv} {Q : StepInv} {s : State}

theorem setCon_keeps {f : ConSt → ConSt} (h : Holds P s) : Holds P (setCon f s) := h

theorem setChain_keeps {f : ChainSt → ChainSt} (h : Holds P s) : Holds P (setChain f s) := h

theorem frameShut_keeps (h : Holds P s) : Holds P (frameShut s) := setF_keeps (setCon_keeps h)

theorem lineDrop_keeps (h : Holds P s) : Holds P (lineDrop s) := setCon_keeps h

theorem conEcho_keeps {b : Bytes} (h : Holds P s) : Holds P (conEcho b s) := when_keeps conSend_keeps h

theorem frameChar_keeps {x : Byte} {bad : Bool} {f : Bytes} (h : Holds P s) : Holds P (frameChar x bad f s) := by
  unfold frameChar
  extract_lets s1
  have h1 : Holds P s1 := when_keeps setCon_keeps h
  exact ite_keeps (setCon_keeps h1) (ite_keeps (when_keeps setCon_keeps (frameShut_keeps h1)) (ite_keeps
    (setCon_keeps h1) (setCon_keeps h1)))

theorem lineEnd_keeps (h : Holds P s) : Holds P (lineEnd s) := conEcho_keeps (setCon_keeps h)

theorem lineChar_keeps {x : Byte} {bad : Bool} (h : Holds P s) : Holds P (lineChar x bad s) := by
  unfold lineChar
  extract_lets _ _ s3
  have h3 : Holds P s3 := when_keeps setCon_keeps (setCon_keeps h)
  exact ite_keeps (setCon_keeps (lineEnd_keeps h3)) (ite_keeps (unless_keeps lineEnd_keeps h3) (ite_keeps (unless_keeps
    (fun h => conEcho_keeps (setCon_keeps h)) h3) (ite_keeps (setCon_keeps h3) (conEcho_keeps (setCon_keeps h3)))))

theorem caseriChar_keeps {fresh : Bool} {c : BitVec 9} (h : Holds P s) : Holds P (caseriChar fresh c s) := by
  unfold caseriChar
  extract_lets
  split
  · exact frameChar_keeps h
  · exact ite_keeps (setF_keeps (setCon_keeps h)) (lineChar_keeps h)

theorem handBlock_keeps (h : Holds P s) : Holds P (handBlock s) := by
  unfold handBlock
  extract_lets b _ s1
  have h1 : Holds P s1 := setCon_keeps h
  clear_value b
  split
  · exact h1
  · exact foldl_keeps (fun _ _ => caseriChar_keeps) (caseriChar_keeps h1)

theorem collect_keeps {c : BitVec 9} (h : Holds P s) : Holds P (collect c s) :=
  when_keeps handBlock_keeps (setCon_keeps (when_keeps handBlock_keeps h))

theorem holdMove_keeps (h : Holds P s) : Holds P (holdMove s) := by
  unfold holdMove
  split
  · exact h
  · exact ite_keeps (setCon_keeps (qWord_keeps h)) h

theorem flowOut_keeps (h : Holds P s) : Holds P (flowOut s) :=
  ite_keeps h (ite_keeps (emit_keeps (setF_keeps h)) (ite_keeps (emit_keeps (setF_keeps h)) h))

theorem conDrain_keeps (h : Holds P s) : Holds P (conDrain s) :=
  flowOut_keeps (foldl_keeps (fun _ _ h => ite_keeps h (collect_keeps (holdMove_keeps (qRead1_keeps h)))) h)

theorem conResume_keeps (h : Holds P s) : Holds P (conResume s) :=
  conDrain_keeps (unless_keeps emit_keeps (setF_keeps (setCon_keeps (foldl_keeps (fun _ _ => qRead1_keeps) h))))

theorem conStore_keeps {c : BitVec 9} (h : Holds P s) : Holds P (conStore c s) := by
  unfold conStore
  refine conDrain_keeps (flowOut_keeps (holdMove_keeps (setCon_keeps ?_)))
  split
  · exact h
  · exact bumpF_keeps (setF_keeps (setQ_keeps h))

theorem conTake_keeps {c : ConChar} (h : Holds P s) : Holds P (conTake c s) := by
  unfold conTake
  extract_lets _ _ _ _ _ _ s7
  have h7 : Holds P s7 := when_keeps bumpF_keeps (when_keeps bumpF_keeps (when_keeps bumpF_keeps (setF_keeps
    (setCon_keeps h))))
  exact ite_keeps (setF_keeps h7) (ite_keeps (conResume_keeps h7) (conStore_keeps h7))

theorem execConCharReceive_keeps {v : CharSamples} (h : Holds P s) : Ends P (execConCharReceive v s) := by
  unfold execConCharReceive
  exact ite_keeps h (by split; exacts [h, conTake_keeps h])

theorem execConBreak_keeps {v : CharSamples} (h : Holds P s) : Ends P (execConBreak v s) :=
  ite_keeps h (unless_keeps lineDrop_keeps (setF_keeps (bumpF_keeps h)))

theorem execConIdle_keeps (h : Holds P s) : Ends P (execConIdle s) := unless_keeps setF_keeps h

theorem execConRxTimeout_keeps (h : Holds P s) : Ends P (execConRxTimeout s) :=
  ite_keeps h (conDrain_keeps (handBlock_keeps h))

theorem execXoffTimeout_keeps (h : Holds P s) : Ends P (execXoffTimeout s) := unless_keeps conResume_keeps h

theorem execConStuck_keeps (h : Holds P s) : Ends P (execConStuck s) :=
  ite_keeps h (raise_keeps (frameShut_keeps (lineDrop_keeps (setF_keeps (setF_keeps h)))))

theorem execConStuckClear_keeps (h : Holds P s) : Ends P (execConStuckClear s) :=
  ite_keeps h (raise_keeps (setF_keeps h))

theorem execConCfgSwitch_keeps {tx : Bool} (h : Holds P s) : Ends P (execConCfgSwitch tx s) :=
  ite_keeps h (when_keeps adopt_keeps (setCon_keeps h))

theorem askOne_keeps {dest : Nat} {words : List Bytes} {q : WordReq} (h : Holds P s) : Holds P (askOne dest words q s) := by
  unfold askOne
  exact receiveCmd_keeps (setCon_keeps h)

theorem caseriText_keeps {l : Bytes} (h : Holds P s) : Holds P (caseriText l s) := by
  unfold caseriText
  split
  · exact conPrompt_keeps (conSend_keeps h)
  · refine ite_keeps (conPrompt_keeps (conSend_keeps h)) ?_
    split
    · exact conPrompt_keeps (conSend_keeps h)
    · exact conPrompt_keeps h
    · exact foldl_keeps (fun _ _ => askOne_keeps) h

theorem execCaseriLine_keeps (h : Holds P s) : Ends P (execCaseriLine s) := by
  unfold execCaseriLine
  refine ite_keeps h ?_
  split
  · exact h
  · exact conDrain_keeps (ite_keeps (conPrompt_keeps (conSend_keeps (setCon_keeps h))) (ite_keeps (conPrompt_keeps
      (conSend_keeps (setCon_keeps h))) (caseriText_keeps (setCon_keeps h))))

theorem execCaseriFrame_keeps (h : Holds P s) : Ends P (execCaseriFrame s) := by
  unfold execCaseriFrame
  exact ite_keeps h (by split; exacts [h, conDrain_keeps (when_keeps receiveCmd_keeps (setCon_keeps h))])

theorem execCaseriFrameGap_keeps (h : Holds P s) : Ends P (execCaseriFrameGap s) :=
  ite_keeps h (conDrain_keeps (when_keeps frameShut_keeps (handBlock_keeps h)))

theorem newAddress_keeps {a : BitVec 6} {reason : Nat} (h : Holds P s) : Holds P (newAddress a reason s) :=
  raise_keeps h

theorem assignStarts_keeps (h : Holds P s) : Holds P (assignStarts s) :=
  newAddress_keeps (setF_keeps (setChain_keeps h))

theorem assignOffered_keeps {n : BitVec 6} (h : Holds P s) : Holds P (assignOffered n s) :=
  ite_keeps (chainSend_keeps (newAddress_keeps h)) h

theorem assignEnds_keeps {r : AssignRun} (h : Holds P s) : Holds P (assignEnds r s) :=
  setChain_keeps (chainSend_keeps h)

theorem assignAcked_keeps {n : BitVec 6} {eui : W64} (h : Holds P s) : Holds P (assignAcked n eui s) := by
  unfold assignAcked
  split
  · exact h
  · exact ite_keeps h (ite_keeps (assignEnds_keeps h) (setChain_keeps (chainSend_keeps h)))

theorem assignOver_keeps (h : Holds P s) : Holds P (assignOver s) := setF_keeps (setChain_keeps h)

theorem forwardLeft_keeps {pkt : Bytes} (h : Holds P s) : Holds P (forwardLeft pkt s) := h

theorem messageSent_keeps {m : Bytes} (h : Holds P s) : Holds P (messageSent m s) := by
  unfold messageSent
  refine ite_keeps (unless_keeps forwardLeft_keeps h) (ite_keeps (setChain_keeps h) (ite_keeps (ite_keeps ?_ (ite_keeps
    (assignOffered_keeps h) (ite_keeps (assignAcked_keeps h) (when_keeps assignOver_keeps h)))) h))
  split
  · exact h
  · exact setChain_keeps (chainSend_keeps (assignStarts_keeps h))

theorem chainSettle_keeps (h : Holds P s) : Holds P (chainSettle s) := by
  unfold chainSettle
  split
  · exact h
  · exact messageSent_keeps (emit_keeps (bumpF_keeps (setChain_keeps h)))

theorem idleStep_keeps (h : Holds P s) : Holds P (idleStep s) := cutSteps_keeps (chainSettle_keeps (idle_keeps h))

theorem execChainTxStart_keeps {eni : Bool} (h : Holds P s) : Ends P (execChainTxStart eni s) := by
  unfold execChainTxStart
  refine unless_keeps (fun h => ite_keeps (setChain_keeps h) ?_) (setChain_keeps (chainSettle_keeps h))
  split
  · exact h
  · exact setChain_keeps (qStream_keeps h)

theorem chainRetract_keeps (h : Holds P s) : Holds P (chainRetract s) := setChain_keeps h

theorem execChainArbitrationLost_keeps (h : Holds P s) : Ends P (execChainArbitrationLost s) :=
  ite_keeps h (bumpF_keeps (chainRetract_keeps h))

theorem execChainMessageAbort_keeps (h : Holds P s) : Ends P (execChainMessageAbort s) :=
  ite_keeps h (bumpF_keeps (chainRetract_keeps h))

theorem execChainStuck_keeps (h : Holds P s) : Ends P (execChainStuck s) :=
  unless_keeps (fun h => raise_keeps (setF_keeps h)) (chainSettle_keeps h)

theorem execChainStuckClear_keeps (h : Holds P s) : Ends P (execChainStuckClear s) :=
  ite_keeps h (raise_keeps (setF_keeps h))

theorem replyRelayed_keeps {pkt : Bytes} (h : Holds P s) : Holds P (replyRelayed pkt s) := by
  unfold replyRelayed
  exact ite_keeps h (by extract_lets; split; exacts [h, deliver_keeps h])

theorem eventRelayed_keeps {pkt : Bytes} (h : Holds P s) : Holds P (eventRelayed pkt s) := by
  unfold eventRelayed
  split
  · exact hostSend_keeps h
  · exact h

theorem chainPacket_keeps {src : Nat} {pkt : Bytes} (h : Holds P s) : Holds P (chainPacket src pkt s) :=
  ite_keeps h (ite_keeps (ite_keeps (receiveCmd_keeps h) (ite_keeps (eventRelayed_keeps h) (replyRelayed_keeps h)))
    (receiveCmd_keeps h))

theorem wakeNoticed_keeps (h : Holds P s) : Holds P (wakeNoticed s) := setChain_keeps h

theorem dispatchMsg_keeps {m : Bytes} (h : Holds P s) : Holds P (dispatchMsg m s) :=
  ite_keeps (syncAnnounced_keeps h) (ite_keeps (ite_keeps (assignStarts_keeps h) (ite_keeps (assignOffered_keeps h)
    (ite_keeps (assignAcked_keeps h) (when_keeps assignOver_keeps h)))) (ite_keeps (when_keeps chainPacket_keeps h)
    (wakeNoticed_keeps h)))

theorem execChainMessageReceive_keeps {chars : List CharSamples} {eni : Bool} (h : Holds P s) :
    Ends P (execChainMessageReceive chars eni s) :=
  unless_keeps (fun h => ite_keeps (dispatchMsg_keeps (qStream_keeps (setChain_keeps h))) (bumpF_keeps (qStream_keeps
    (setChain_keeps h)))) (chainSettle_keeps h)

theorem execAssignStart_keeps (h : Holds P s) : Ends P (execAssignStart s) :=
  when_keeps assignStarts_keeps (chainSettle_keeps h)

theorem execAssignOffer_keeps {n : BitVec 6} {eni : Bool} (h : Holds P s) : Ends P (execAssignOffer n eni s) :=
  when_keeps (fun h => assignOffered_keeps (setChain_keeps h)) (chainSettle_keeps h)

theorem execAssignAck_keeps {n : BitVec 6} {eui : W64} (h : Holds P s) : Ends P (execAssignAck n eui s) :=
  when_keeps assignAcked_keeps (chainSettle_keeps h)

theorem execAssignOfferTimeout_keeps (h : Holds P s) : Ends P (execAssignOfferTimeout s) := by
  unfold execAssignOfferTimeout
  extract_lets
  split
  · exact chainSettle_keeps h
  · exact unless_keeps (fun h => ite_keeps (setChain_keeps (chainSend_keeps h)) (assignEnds_keeps h))
      (chainSettle_keeps h)

theorem execAssignEnd_keeps (h : Holds P s) : Ends P (execAssignEnd s) :=
  when_keeps assignOver_keeps (chainSettle_keeps h)

theorem execAssignResumeTimeout_keeps (h : Holds P s) : Ends P (execAssignResumeTimeout s) :=
  ite_keeps (setF_keeps (setChain_keeps h)) h

theorem execWakeNotice_keeps (h : Holds P s) : Ends P (execWakeNotice s) :=
  when_keeps wakeNoticed_keeps (chainSettle_keeps h)

theorem execForwardTimeout_keeps {idx : Fin 8} (h : Holds P s) : Ends P (execForwardTimeout idx s) := by
  unfold execForwardTimeout
  extract_lets
  split
  · exact chainSettle_keeps h
  · exact unless_keeps (fun h => deliver_keeps h) (chainSettle_keeps h)

theorem execCommandForward_keeps {opcode : W16} {r : Req} (h : Holds P s) : Ends P (execCommandForward opcode r s) :=
  when_keeps forwardReq_keeps h

theorem execForwardedReply_keeps {packet : Bytes} (h : Holds P s) : Ends P (execForwardedReply packet s) :=
  when_keeps replyRelayed_keeps (chainSettle_keeps h)

theorem execChainAssign_keeps {r : Req} (h : Holds Q.toInv s) : Ends Q.toInv (execChainAssign r s) :=
  execReq_keeps (fun _ h => ite_answers (refuse_keeps h) (ite_answers (refuse_keeps h) (deferIf_keeps h
    (fun _ h => setChain_keeps (chainSend_keeps h))))) h

theorem execChainAssignDone_keeps (h : Holds Q.toInv s) : Ends Q.toInv (execChainAssignDone s) := by
  unfold execChainAssignDone
  extract_lets
  split
  · exact chainSettle_keeps h
  · refine unless_keeps (fun h => ?_) (chainSettle_keeps h)
    extract_lets
    split
    · exact setChain_keeps h
    · exact finish_keeps (setChain_keeps h)

theorem execChainWake_keeps {r : Req} (h : Holds Q.toInv s) : Ends Q.toInv (execChainWake r s) :=
  execReq_keeps (fun _ h => ite_answers (refuse_keeps h) (deferIf_keeps h (fun _ h => setChain_keeps
    (chainSend_keeps h)))) h

theorem execChainWakeSent_keeps (h : Holds Q.toInv s) : Ends Q.toInv (execChainWakeSent s) := by
  unfold execChainWakeSent
  extract_lets
  split
  · extract_lets s1
    have h1 : Holds Q.toInv s1 := emit_keeps (setChain_keeps (chainSettle_keeps h))
    split
    · exact h1
    · exact finish_keeps h1
  · exact chainSettle_keeps h

end Sys2Proof.Machine
end

section
/-!
PROOF. What every step keeps: the application cores (16).
-/
namespace Sys2Proof.Machine

variable {P : Inv} {Q : StepInv} {s : State}

theorem setCoreState_keeps {n v : Nat} (h : Holds P s) : Holds P (setCoreState n v s) := setF_keeps h

theorem appFault_keeps {n cause : Nat} {mepc mtval : W32} (h : Holds P s) : Holds P (appFault n cause mepc mtval s) :=
  raise_keeps (bumpF_keeps (setF_keeps h))

theorem startFault_keeps {n cause : Nat} (h : Holds P s) : Holds P (startFault n cause s) := appFault_keeps h

theorem outAbort_keeps {n : Nat} (h : Holds P s) : Holds P (outAbort n s) := ite_keeps h (setQ_keeps (setCore_keeps h))

theorem withdrawJobs_keeps {n : Nat} (h : Holds P s) : Holds P (withdrawJobs n s) := by
  unfold withdrawJobs
  exact foldl_keeps (fun _ _ h => (by split; exacts [memSetNat_keeps h, h])) (setClo_keeps h)

theorem wipeWindow_keeps {n : Nat} (h : Holds P s) : Holds P (wipeWindow n s) := P.dropByte h _

theorem haltCore_keeps {n : Nat} (h : Holds P s) : Holds P (haltCore n s) :=
  setCore_keeps (withdrawJobs_keeps (outAbort_keeps (setCoreState_keeps h)))

theorem stopCore_keeps {n : Nat} {wipe : Bool} (h : Holds P s) : Holds P (stopCore n wipe s) :=
  when_keeps wipeWindow_keeps (qEmpty_keeps (qEmpty_keeps (haltCore_keeps h)))

theorem checkImage_keeps {n : Nat} (h : Holds P s) : Holds P (checkImage n s).1 := by
  unfold checkImage
  refine ite_fst_keeps h (ite_fst_keeps h (ite_fst_keeps h (ite_fst_keeps h (ite_fst_keeps h ?_))))
  split
  · exact fst_keeps ‹_› (sampleJob_keeps h)
  · exact ite_fst_keeps (fst_keeps ‹_› (sampleJob_keeps h)) (authFail_keeps (fst_keeps ‹_› (sampleJob_keeps h)))

theorem execCoreStart_keeps {n : Fin 4} (h : Holds P s) : Ends P (execCoreStart n s) :=
  ite_keeps h (ite_keeps (setCoreState_keeps (setCore_keeps (setCore_keeps h))) (ite_keeps (raise_keeps
    (setCoreState_keeps (setCore_keeps h))) (setCoreState_keeps (setCore_keeps h))))

theorem startAnswer_keeps {n : Nat} {st : W16} (h : Holds Q.toInv s) : Holds Q.toInv (startAnswer n st s) := by
  unfold startAnswer
  split
  · exact h
  · exact finish_keeps h

theorem execFlashBoot_keeps {ofs : Byte} {answers sfdp : Bool} {image : Bytes} (h : Holds Q.toInv s) :
    Ends Q.toInv (execFlashBoot ofs answers sfdp image s) := by
  unfold execFlashBoot
  split
  · exact h
  · exact ite_keeps h (ite_keeps (foldl_keeps (fun _ _ h => setCoreState_keeps (trWrite_keeps h)) h) (foldl_keeps
      (fun _ _ h => startAnswer_keeps (startFault_keeps (setCoreState_keeps (setCore_keeps h)))) h))

theorem releaseCore_keeps {n : Nat} (h : Holds P s) : Holds P (releaseCore n s) :=
  raise_keeps (setCoreState_keeps (setCore_keeps h))

theorem execImageCheckVerdict_keeps {n : Fin 4} (h : Holds Q.toInv s) : Ends Q.toInv (execImageCheckVerdict n s) :=
  ite_keeps h (ite_keeps (startAnswer_keeps (releaseCore_keeps (checkImage_keeps h))) (startAnswer_keeps
    (startFault_keeps (setCoreState_keeps (setCore_keeps (checkImage_keeps h))))))

theorem execCoreWatchdogExpire_keeps {n : Fin 4} {mepc mtval : W32} (h : Holds P s) :
    Ends P (execCoreWatchdogExpire n mepc mtval s) :=
  ite_keeps h (when_keeps (fun h => bumpF_keeps (setCore_keeps h)) (haltCore_keeps (appFault_keeps h)))

theorem coreFaults_keeps {n : Nat} {poisoned : Bool} {mepc mtval : W32} (h : Holds P s) :
    Holds P (coreFaults n poisoned mepc mtval s) :=
  appFault_keeps (setCore_keeps h)

theorem execCoreAccessFault_keeps {n : Fin 4} {poisoned : Bool} {mepc mtval : W32} (h : Holds P s) :
    Ends P (execCoreAccessFault n poisoned mepc mtval s) :=
  when_keeps coreFaults_keeps h

theorem execCoreTimerInterrupt_keeps {n : Fin 4} (h : Holds P s) : Ends P (execCoreTimerInterrupt n s) :=
  unless_keeps setCore_keeps h

theorem execAppLoad_keeps {r : Req} (h : Holds Q.toInv s) : Ends Q.toInv (execAppLoad r s) :=
  execReq_keeps (fun _ h => ite_answers (refuse_keeps h) (ite_answers (refuse_keeps h) (trWrite_keeps h))) h

theorem execAppStart_keeps {r : Req} (h : Holds Q.toInv s) : Ends Q.toInv (execAppStart r s) :=
  execReq_keeps (fun _ h => ite_answers (refuse_keeps h) (ite_answers (refuse_keeps h) (deferIf_keeps h
    (fun _ h => setCoreState_keeps (setCore_keeps h))))) h

theorem execAppStop_keeps {r : Req} (h : Holds Q.toInv s) : Ends Q.toInv (execAppStop r s) :=
  execReq_keeps (fun _ h => deferIf_keeps h (fun _ h => h)) h

theorem execAppStopDone_keeps {n : Fin 4} (h : Holds Q.toInv s) : Ends Q.toInv (execAppStopDone n s) := by
  unfold execAppStopDone
  split
  · exact h
  · exact finish_keeps (stopCore_keeps h)

theorem execIntClrWrite_keeps {n : Fin 4} {v : W32} (h : Holds P s) : Ends P (execIntClrWrite n v s) :=
  ite_keeps h (when_keeps setQ_keeps (when_keeps setCore_keeps h))

theorem execInPopWrite_keeps {n : Fin 4} (h : Holds P s) : Ends P (execInPopWrite n s) := by
  unfold execInPopWrite
  exact ite_keeps h (by split; exacts [qPop_keeps ‹_› h, h])

theorem execOutReqWrite_keeps {n : Fin 4} {v : W32} (h : Holds P s) : Ends P (execOutReqWrite n v s) :=
  ite_keeps h (setCore_keeps (outAbort_keeps h))

theorem coreRequest_keeps {n : Fin 4} {pkt : Bytes} (h : Holds P s) : Holds P (coreRequest n pkt s) :=
  ite_keeps h (ite_keeps (answer_keeps h) (ite_keeps (answer_keeps h) (receiveCmd_keeps h)))

theorem takeOutbound_keeps {n : Fin 4} {tag : Byte} {data : Bytes} (h : Holds P s) :
    Holds P (takeOutbound n tag data s) := by
  unfold takeOutbound
  refine ite_keeps ?_ (when_keeps coreRequest_keeps h)
  extract_lets
  split
  · exact downlinkData_keeps h
  · exact qPush_keeps (downlinkData_keeps h)

theorem execOutCommitWrite_keeps {n : Fin 4} {payload : Bytes} (h : Holds P s) :
    Ends P (execOutCommitWrite n payload s) := by
  unfold execOutCommitWrite
  extract_lets
  split
  · exact h
  · refine ite_keeps h ?_
    extract_lets
    split
    · exact qPush_keeps (setCore_keeps h)
    · exact takeOutbound_keeps (qPop_keeps ‹_› (qPush_keeps (setCore_keeps h)))

theorem execOutAbortWrite_keeps {n : Fin 4} (h : Holds P s) : Ends P (execOutAbortWrite n s) :=
  when_keeps outAbort_keeps h

theorem execCjSubmitWrite_keeps {n : Fin 4} {addr : W32} (h : Holds P s) : Ends P (execCjSubmitWrite n addr s) :=
  ite_keeps h (ite_keeps (setCore_keeps (memSetNat_keeps h)) (setClo_keeps (setCore_keeps h)))

theorem execMboxWrite_keeps {n : Fin 4} {v : W32} (h : Holds P s) : Ends P (execMboxWrite n v s) :=
  ite_keeps h (foldl_keeps (fun _ _ => when_keeps setCore_keeps) h)

theorem execMboxClrWrite_keeps {n : Fin 4} (h : Holds P s) : Ends P (execMboxClrWrite n s) :=
  unless_keeps setCore_keeps h

theorem execWdogKickWrite_keeps {n : Fin 4} (h : Holds P s) : Ends P (execWdogKickWrite n s) :=
  unless_keeps setCore_keeps h

theorem failCws_keeps {pick : RxFrame → Nat → DecCw → Bool} (h : Holds P s) : Holds P (failCws pick s) := by
  unfold failCws
  refine foldl_keeps (fun _ _ h => ite_keeps (leaveDue_keeps (maybeEnd_keeps (foldl_keeps (fun _ _ h => ?_) h))) h) h
  split
  · exact restUnit_keeps h
  · exact restUnit_keeps h
  · exact h

theorem codewordsFail_keeps (h : Holds P s) : Holds P (codewordsFail s) := failCws_keeps h

theorem rebuildBank_keeps {r i : Nat} {mirror : Bool} (h : Holds P s) : Holds P (rebuildBank r i mirror s) := by
  unfold rebuildBank
  split
  · exact h
  · exact ite_keeps (ite_keeps h (raise_keeps (bankLost_keeps h))) (ite_keeps (codewordsFail_keeps (bankLost_keeps h))
      (ite_keeps (foldl_keeps (fun _ _ => unless_keeps slotInvalid_keeps) (bankLost_keeps h)) (ite_keeps (inTurn_holds
      (fun _ _ => queueReset_keeps) (bankLost_keeps h)) (ite_keeps (foldl_keeps (fun _ _ => realign_keeps)
      (bankLost_keeps h)) (ite_keeps (coresDue_keeps (foldl_keeps (fun _ _ => haltCore_keeps) (bankLost_keeps h)))
      (bankLost_keeps h))))))

theorem execBankRebuildDone_keeps {r : Fin 4} (h : Holds P s) : Ends P (execBankRebuildDone r s) := by
  unfold execBankRebuildDone
  split
  · exact h
  · exact ite_keeps h (rebuildBank_keeps (setF_keeps (setReg_keeps h)))

end Sys2Proof.Machine
end

section
/-!
PROOF. What every step keeps: accesses to the Trellis (09 R269 to R287).
-/
namespace Sys2Proof.Machine

variable {P : Inv} {Q : StepInv} {s : State}

theorem poisonMeets_keeps {k : Nat × Nat} (h : Holds P s) : Holds P (poisonMeets k s) := by
  unfold poisonMeets
  split
  · exact failCws_keeps h
  · split
    · exact failCws_keeps h
    · exact h
  · exact slotInvalid_keeps h
  · exact ite_keeps h h
  · exact queueReset_keeps h
  · exact realign_keeps h
  · exact h

theorem poisonOutcome_keeps {ws : List Nat} (h : Holds P s) : Holds P (poisonOutcome ws s) :=
  foldl_keeps (fun _ _ => poisonMeets_keeps) h

theorem chargeGrant_keeps {x : HeldAcc} (h : Holds P s) : Holds P (chargeGrant x s) :=
  when_keeps bumpF_keeps (setF_keeps h)

theorem eccReport_keeps {x : HeldAcc} {e : Nat × EccResult} (h : Holds P s) : Holds P (eccReport x e s) := by
  unfold eccReport
  split
  extract_lets
  split
  · exact h
  · exact correctedWord_keeps h
  · exact uncorrectable_keeps h
  · exact ite_keeps h (ite_keeps (clusterFault_keeps h) (bumpF_keeps h))
  · exact bankFailing_keeps h

theorem fabricRead_keeps {x : HeldAcc} (h : Holds P s) : Holds P (fabricRead x s) :=
  poisonOutcome_keeps (emit_keeps (foldl_keeps (fun _ _ => eccReport_keeps) h))

theorem fabricWrite_keeps {x : HeldAcc} (h : Holds P s) : Holds P (fabricWrite x s) :=
  emit_keeps (foldl_keeps (fun _ _ => trWrite_keeps) (foldl_keeps (fun _ _ => eccReport_keeps) h))

theorem fabricAccess_keeps {x : HeldAcc} (h : Holds P s) : Holds P (fabricAccess x s) :=
  ite_keeps (ite_keeps (emit_keeps (windowFault_keeps (chargeGrant_keeps h))) (emit_keeps (windowFault_keeps
    (chargeGrant_keeps h)))) (ite_keeps (fabricWrite_keeps (chargeGrant_keeps h)) (fabricRead_keeps
    (chargeGrant_keeps h)))

theorem mcRead_keeps {a n : Nat} (h : Holds P s) : Holds P (mcRead a n s).2.2 := poisonOutcome_keeps h

theorem peekAnswer_keeps {r : Req} (h : Holds P s) : Holds P (peekAnswer r s).1 := mcRead_keeps h

theorem tapRead_keeps {a : Nat} (h : Holds P s) : Holds P (tapRead a s) := mcRead_keeps h

theorem holdAccess_keeps {x : HeldAcc} {a : Nat} (h : Holds P s) : Holds P (holdAccess x a s) := setReg_keeps h

theorem serveAccess_keeps {x : HeldAcc} (h : Holds P s) : Holds P (serveAccess x s) := by
  unfold serveAccess
  split
  · exact fabricAccess_keeps h
  · exact sendReply_keeps (peekAnswer_keeps h)
  · exact tapRead_keeps h

theorem serveHeld_keeps {r : Nat} (h : Holds P s) : Holds P (serveHeld r s) := by
  unfold serveHeld
  exact foldl_keeps (fun _ _ h => (by split; exacts [holdAccess_keeps h, serveAccess_keeps h])) (setReg_keeps h)

theorem execTrellisAccess_keeps {client : BitVec 6} {addr : BitVec 23} {write : Bool} {data : List (Option Byte)}
    {ecc : List (Fin 8 × EccResult)} {wait : Nat} {within : Bool} (h : Holds P s) :
    Ends P (execTrellisAccess client addr write data ecc wait within s) := by
  unfold execTrellisAccess
  split
  · trivial
  · exact ite_keeps (holdAccess_keeps h) (fabricAccess_keeps h)

theorem execRegionControllerRestarted_keeps {r : Fin 4} (h : Holds P s) : Ends P (execRegionControllerRestarted r s) :=
  ite_keeps (serveHeld_keeps (setF_keeps h)) h

theorem execTrPeek_keeps {r : Req} (h : Holds Q.toInv s) : Ends Q.toInv (execTrPeek r s) := by
  unfold execTrPeek
  refine execReq_keeps (fun _ h => ite_answers ?_ (refuse_keeps h)) h
  split
  · exact holdAccess_keeps h
  · exact peekAnswer_keeps h

theorem execTrWipe_keeps {r : Req} (h : Holds Q.toInv s) : Ends Q.toInv (execTrWipe r s) :=
  execReq_keeps (fun _ h => ite_answers (startWipe_keeps h) (refuse_keeps h)) h

theorem execTrRepart_keeps {r : Req} (h : Holds Q.toInv s) : Ends Q.toInv (execTrRepart r s) :=
  execReq_keeps (fun _ h => ite_answers (startWipe_keeps (setF_keeps h)) (refuse_keeps h)) h

theorem wipeEnds_keeps {w : WipeRun} (h : Holds P s) : Holds P (wipeEnds w s) := by
  unfold wipeEnds
  extract_lets _ s1 s2 s3 s4
  have h1 : Holds P s1 := h
  have h3 : Holds P s3 := when_keeps coresDue_keeps (when_keeps setF_keeps h1)
  refine foldl_keeps (fun _ _ => serveHeld_keeps) ?_
  unfold s4
  split
  · exact sendReply_keeps h3
  · exact h3

theorem execTrellisWipeComplete_keeps (h : Holds P s) : Ends P (execTrellisWipeComplete s) := by
  unfold execTrellisWipeComplete
  split
  · exact h
  · exact wipeEnds_keeps h

theorem execTrBankTestDone_keeps {r : Fin 4} {result : Fin 3} {line bits : W16} {bad : List (Fin 2048 × Fin 8)}
    (h : Holds Q.toInv s) :
    Ends Q.toInv (execTrBankTestDone r result line bits bad s) := by
  unfold execTrBankTestDone
  split
  · exact h
  · exact ite_keeps h (ite_keeps (bankFailing_keeps (finish_keeps (wordsLost_keeps h))) (when_keeps bankDies_keeps
      (finish_keeps (wordsLost_keeps h))))

end Sys2Proof.Machine
end

section
/-!
PROOF. What every step keeps: reset, power and life cycle (17).
-/
namespace Sys2Proof.Machine

variable {P : Inv} {Q : StepInv} {s : State}

theorem setPw_keeps {f : PowerSt → PowerSt} (hf : ∀ p, (f p).lcNext = p.lcNext) (h : Holds P s) :
    Holds P (setPw f s) := by
  have same : (setPw f s).pw.lcNext = s.pw.lcNext := hf s.pw
  rwa [Holds, same]

theorem driversOff_keeps (h : Holds P s) : Holds P (driversOff s) := foldl_keeps (fun _ _ => driverOff_keeps) h

theorem beginReset_keeps {c : Nat} {ph : Phase} (h : Holds P s) : Holds P (beginReset c ph s) := by
  unfold beginReset
  extract_lets cause s1
  have h1 : Holds P s1 := driversOff_keeps h
  clear_value s1
  exact setPw_keeps (fun _ => by dsimp only) h1

theorem execPowerOn_keeps (h : Holds Q.toInv s) : Ends Q.toInv (execPowerOn s) := Q.reset h

theorem execBrownout_keeps {rail : Rail} (h : Holds P s) : Ends P (execBrownout rail s) := by
  unfold execBrownout
  extract_lets s1
  have h1 : Holds P s1 := setPw_keeps (fun _ => rfl) h
  exact ite_keeps (setPw_keeps (fun _ => rfl) h1) (beginReset_keeps h1)

theorem execResetNLow_keeps {lowNs : Nat} (h : Holds P s) : Ends P (execResetNLow lowNs s) :=
  unless_keeps (fun h => ite_keeps (setPw_keeps (fun _ => rfl) h) (beginReset_keeps h)) (when_keeps takeFree_keeps h)

theorem execResetClocksReady_keeps (h : Holds P s) : Ends P (execResetClocksReady s) :=
  ite_keeps (setPw_keeps (fun _ => rfl) h) h

/-- 17 R461: a reset leaves the records, and nothing else that is watched. -/
theorem freshen_keeps {f : ResetFindings} (h : Holds Q.toInv s) : Holds Q.toInv (freshen f s) := Q.reset h

theorem revokeKek_keeps (h : Holds P s) : Holds P (revokeKek s) := ite_keeps h h

theorem bankFound_keeps {answers : Bool} {k : Nat} (h : Holds P s) : Holds P (bankFound answers k s) :=
  setF_keeps (setReg_keeps (bankSwitch_keeps (bankFailing_keeps h)))

theorem laneFound_keeps {l2d : Bool} {i : Nat} (h : Holds P s) : Holds P (laneFound l2d i s) :=
  ite_keeps (retireSpareLane_keeps h) (laneFault_keeps h)

theorem findingsAct_keeps {f : ResetFindings} (h : Holds P s) : Holds P (findingsAct f s) :=
  foldl_keeps (fun _ _ => retireSlice_keeps) (when_keeps drbgHalts_keeps (startTest_keeps (startTest_keeps (foldl_keeps
    (fun _ _ => retireEngine_keeps) (foldl_keeps (fun _ _ => clusterFault_keeps) (foldl_keeps
    (fun _ _ => laneFound_keeps) (foldl_keeps (fun _ _ => laneFound_keeps) (wipeDone_keeps (foldl_keeps
    (fun _ _ => bankFound_keeps) (foldl_keeps (fun _ _ => bankFound_keeps) h))))))))))

theorem resetDone_keeps {func cause result durUs : Nat} (h : Holds P s) :
    Holds P (resetDone func cause result durUs s) :=
  raise_keeps h

/-- 17 R461: what a reset finds and reports keeps what the reset left. -/
theorem wholeReset_keeps {f : ResetFindings} (h : Holds P (freshen f s)) : Holds P (wholeReset f s) := by
  unfold wholeReset
  extract_lets s1 cause _ s2 lc s3 s4 s5 res s6 s7
  have h1 : Holds P s1 := h
  clear_value s1
  refine ite_keeps (setPw_keeps (fun _ => by dsimp only) h1) ?_
  have h3 : Holds P s3 := when_keeps (fun h => wipeKeys_keeps (revokeKek_keeps h)) (findingsAct_keeps h1)
  have h5 : Holds P s5 := when_keeps (foldl_keeps fun _ _ => setDom_keeps) (kekStatus_keeps h3)
  have h6 : Holds P s6 := setObj_keeps h5
  clear_value s6
  have h7 : Holds P s7 := by
    unfold s7
    split
    · exact h6
    · exact issue_keeps (setPw_keeps (fun _ => rfl) h6)
  exact emit_keeps (resetDone_keeps h7)

theorem execWholeDeviceReset_keeps {f : ResetFindings} (h : Holds Q.toInv s) : Ends Q.toInv (execWholeDeviceReset f s) :=
  ite_keeps (wholeReset_keeps (freshen_keeps h)) (ite_keeps (wholeReset_keeps (freshen_keeps (beginReset_keeps h))) h)

theorem execDevReset_keeps {r : Req} (h : Holds Q.toInv s) : Ends Q.toInv (execDevReset r s) :=
  execReq_keeps (fun _ h => setPw_keeps (fun _ => rfl) h) h

theorem emptyQueues_keeps {f : Nat} {held : Bool} (h : Holds P s) : Holds P (emptyQueues f held s) :=
  foldl_keeps (fun _ _ => qEmpty_keeps) h

theorem portResets_keeps {p : Nat} (h : Holds P s) : Holds P (portResets p s) :=
  leftPorts_keeps (sieveReset_keeps (setPort_keeps (setF_keeps (setF_keeps (resetObjs_keeps (driverOff_keeps h))))))

theorem enterReset_keeps {f : Nat} (h : Holds P s) : Holds P (enterReset f s) :=
  ite_keeps (portResets_keeps (emptyQueues_keeps h)) (ite_keeps (ite_keeps (resetObjs_keeps (emptyQueues_keeps h))
    (ite_keeps (takeoverReset_keeps (emptyQueues_keeps h)) (emptyQueues_keeps h))) (ite_keeps (when_keeps setF_keeps
    (resetObjs_keeps (setClo_keeps (emptyQueues_keeps h)))) (ite_keeps (bhPortReset_keeps (resetObjs_keeps
    (emptyQueues_keeps h))) (ite_keeps (eventLinkMoved_keeps (resetObjs_keeps (emptyQueues_keeps h))) (ite_keeps
    (setF_keeps (resetObjs_keeps (emptyQueues_keeps h))) (ite_keeps (resetObjs_keeps (emptyQueues_keeps h)) (ite_keeps
    (setChain_keeps (resetObjs_keeps (emptyQueues_keeps h))) (ite_keeps (setCore_keeps (resetObjs_keeps
    (emptyQueues_keeps (stopCore_keeps (emptyQueues_keeps h))))) (when_keeps (fun h => when_keeps setF_keeps
    (resetObjs_keeps h)) (emptyQueues_keeps h))))))))))

theorem leaveReset_keeps {f : Nat} (h : Holds P s) : Holds P (leaveReset f s) :=
  ite_keeps (sieveReset_keeps (loadPreset_keeps (emptyQueues_keeps (adoptFunc_keeps h)))) (ite_keeps (measBegin_keeps
    (emptyQueues_keeps (adoptFunc_keeps h))) (ite_keeps (hostDrain_keeps (emptyQueues_keeps (adoptFunc_keeps h)))
    (ite_keeps (when_keeps (fun h => serveHeld_keeps (setF_keeps h)) (emptyQueues_keeps (adoptFunc_keeps h)))
    (when_keeps (fun h => setCon_keeps h) (emptyQueues_keeps (adoptFunc_keeps h))))))

theorem unabsorbed_keeps {d : Nat} {l : List Nat} (h : Holds P s) : Holds P (unabsorbed d l s) :=
  inTurn_holds (fun _ _ => raise_keeps) h

theorem holdFunc_keeps {f : Nat} (h : Holds P s) : Holds P (holdFunc f s) :=
  ite_keeps (resetObjs_keeps h) (ite_keeps (abortRuns_keeps h) (unless_keeps enterReset_keeps h))

theorem holdWriters_keeps {r : Nat} (h : Holds P s) : Holds P (holdWriters r s) :=
  setPw_keeps (fun _ => rfl) (foldl_keeps (fun _ _ => unless_keeps holdFunc_keeps) (when_keeps codewordsFail_keeps h))

theorem tripped_keeps {d : Nat} (h : Holds P s) : Holds P (tripped d s) :=
  ite_keeps (losePortFrom_keeps (driverOff_keeps h)) (ite_keeps (losePortFrom_keeps (driverOff_keeps h)) (ite_keeps
    (raise_keeps (recomputeCap_keeps (reslice_keeps (foldl_keeps (fun _ _ => restartOn_keeps) h)))) (ite_keeps
    (holdWriters_keeps (loseRegion_keeps h)) (ite_keeps (unabsorbed_keeps (foldl_keeps (fun _ _ => haltCore_keeps) h))
    (ite_keeps (unabsorbed_keeps h) (ite_keeps (unabsorbed_keeps (slotsUsed_keeps (setF_keeps (setClo_keeps
    (abortRuns_keeps h))))) (ite_keeps (foldl_keeps (fun _ _ => laneLos_keeps) h) (ite_keeps (unabsorbed_keeps
    (eventLinkMoved_keeps (foldl_keeps (fun _ _ => setF_keeps) h))) (ite_keeps (unabsorbed_keeps h) (ite_keeps
    (unabsorbed_keeps h) (unabsorbed_keeps h)))))))))))

theorem execDomainTrip_keeps {d : Fin 30} (h : Holds P s) : Ends P (execDomainTrip d s) :=
  ite_keeps h (tripped_keeps (when_keeps (fun h => setPw_keeps (fun _ => rfl) h) (setF_keeps (bumpF_keeps
    (setDom_keeps h)))))

theorem startFuncReset_keeps {f : Nat} {hold : Bool} (h : Holds P s) : Holds P (startFuncReset f hold s) :=
  enterReset_keeps (setPw_keeps (fun _ => rfl) (unless_keeps bumpF_keeps (foldl_keeps (fun _ _ => setDom_keeps) h)))

theorem execFuncReset_keeps {r : Req} (h : Holds Q.toInv s) : Ends Q.toInv (execFuncReset r s) := by
  unfold execFuncReset
  refine execReq_keeps (fun _ h => ?_) h
  split
  · exact refuse_keeps h
  · refine ite_answers ?_ (deferIf_keeps h (fun _ => startFuncReset_keeps))
    split
    · exact refuse_keeps h
    · exact startFuncReset_keeps h

theorem execFuncRelease_keeps {r : Req} (h : Holds Q.toInv s) : Ends Q.toInv (execFuncRelease r s) :=
  execReq_keeps (fun _ h => ite_answers (refuse_keeps h) (deferIf_keeps h (fun _ h => setPw_keeps (fun _ => rfl) h))) h

theorem funcAnswer_keeps {f : Nat} {release : Bool} {st : W16} (h : Holds Q.toInv s) :
    Holds Q.toInv (funcAnswer f release st s) := by
  unfold funcAnswer
  split
  · exact h
  · exact finish_keeps h

theorem execFuncResetDone_keeps {func : Byte} {failed : Bool} (h : Holds Q.toInv s) :
    Ends Q.toInv (execFuncResetDone func failed s) := by
  unfold execFuncResetDone
  extract_lets f s1
  change Holds Q.toInv (match s.pw.resetting.find? (fun r => decide (r.func = func)) with | none => s | some run => _)
  split
  · exact h
  · extract_lets s2 dur s3
    have h1 : Holds Q.toInv s1 := setPw_keeps (fun _ => rfl) h
    have h2 : Holds Q.toInv s2 := ite_keeps (setPw_keeps (fun _ => rfl) h1) (leaveReset_keeps h1)
    exact ite_keeps h (ite_keeps (funcAnswer_keeps h1) (funcAnswer_keeps (unless_keeps resetDone_keeps h2)))

theorem execPdSet_keeps {r : Req} (h : Holds Q.toInv s) : Ends Q.toInv (execPdSet r s) :=
  execReq_keeps (fun _ h => ite_answers (refuse_keeps h) (ite_answers (ite_answers h (foldl_keeps
    (fun _ _ => unless_keeps enterReset_keeps) (setDom_keeps h))) (ite_answers h (foldl_keeps
    (fun _ _ => unless_keeps leaveReset_keeps) (setDom_keeps h))))) h

theorem testsAbandoned_keeps (h : Holds P s) : Holds P (testsAbandoned s) :=
  foldl_keeps (fun _ _ => when_keeps testEnds_keeps) h

theorem abandon_keeps {d : Deferred} (h : Holds P s) : Holds P (abandon d s) :=
  ite_keeps (when_keeps setF_keeps h) (ite_keeps (setLaneF_keeps h) (ite_keeps (setF_keeps h) (ite_keeps (setF_keeps
    (setChain_keeps h)) (ite_keeps (setChain_keeps h) (ite_keeps (setCoreState_keeps (setCore_keeps h)) h)))))

theorem mcForgets_keeps (h : Holds Q.toInv s) : Holds Q.toInv (mcForgets s) := by
  have h1 : Holds Q.toInv (testsAbandoned s) := testsAbandoned_keeps h
  unfold mcForgets
  generalize testsAbandoned s = t at h1
  extract_lets l _ _ s2 hostJob s3 s4 runs s5 s6
  have h2 : Holds Q.toInv s2 := foldl_keeps (fun _ _ => abandon_keeps) (Q.noDeferred h1)
  have h3 : Holds Q.toInv s3 := foldl_keeps (fun _ _ => when_keeps engRest_keeps) h2
  have h5 : Holds Q.toInv s5 := setPw_keeps (fun _ => rfl) (setClo_keeps h3)
  have h6 : Holds Q.toInv s6 := foldl_keeps (fun _ _ => when_keeps leaveReset_keeps) h5
  clear_value s6
  simpa only [Holds] using h6

theorem execMcLockstepMismatch_keeps (h : Holds Q.toInv s) : Ends Q.toInv (execMcLockstepMismatch s) :=
  ite_keeps h (ite_keeps (beginReset_keeps h) (setPw_keeps (fun _ => rfl) (mcForgets_keeps h)))

theorem execMcRestartDone_keeps {crcOk : Bool} (h : Holds P s) : Ends P (execMcRestartDone crcOk s) :=
  ite_keeps h (ite_keeps (beginReset_keeps h) (raise_keeps (setPw_keeps (fun _ => rfl) h)))

theorem execSleep_keeps {r : Req} (h : Holds Q.toInv s) : Ends Q.toInv (execSleep r s) :=
  execReq_keeps (fun _ h => ite_answers (refuse_keeps h) (setPw_keeps (fun _ => rfl) h)) h

theorem goSleep_keeps (h : Holds P s) : Holds P (goSleep s) := by
  have hd : Holds P (driversOff s) := driversOff_keeps h
  unfold goSleep
  generalize driversOff s = t at hd
  exact setPw_keeps (fun _ => by dsimp only) hd

theorem deviceIdle_keeps (h : Holds P s) : Holds P (deviceIdle s) := when_keeps goSleep_keeps (idleStep_keeps h)

theorem execWakeCharacters_keeps {first second : Byte} (h : Holds P s) : Ends P (execWakeCharacters first second s) :=
  when_keeps beginReset_keeps h

theorem execThermalShutdown_keeps (h : Holds P s) : Ends P (execThermalShutdown s) := unless_keeps beginReset_keeps h

theorem execThermalRecovery_keeps (h : Holds P s) : Ends P (execThermalRecovery s) := ite_keeps h h

theorem execHotChange_keeps {temps : Vector Int 8} (h : Holds P s) : Ends P (execHotChange temps s) :=
  unless_keeps (fun h => throttleEvents_keeps (setF_keeps (setF_keeps (setF_keeps h)))) (setPw_keeps (fun _ => rfl) h)

theorem lifeCycle_lt (s : State) : lifeCycle s < 5 := by
  unfold lifeCycle
  split
  · exact Fin.isLt _
  · decide

/-- 17 R475, R476: a life-cycle command is accepted where the table has its transition and the fuses have room for it. -/
theorem lcRequest_keeps {op : Nat} {new : Fin 5} {r : Req} {svcLow : Bool} {ok : State → Bool} (hop : op ∉ retiredOps)
    (hok : ∀ t, lifeCycle t ≠ 4 → ok t = true → lcAllowed (lifeCycle t) new.val = true) (h : Holds Q.toInv s) :
    Holds Q.toInv (lcRequest op new r svcLow ok s) := by
  refine execReq_keeps_alive (fun t ht alive => ?_) (unless_keeps (setPw_keeps fun _ => rfl) h)
  split
  · exact ht
  · split
    · exact ht
    · rename_i hstate hroom
      obtain ⟨hnone, hgo⟩ : t.pw.lcNext = none ∧ ok t = true := by simpa using hstate
      rw [Holds, hnone] at ht
      have allowed : lcAllowed (stateAfter t.fuse.records) new.val = true :=
        lifeCycle_eq_stateAfter t ▸ hok t (fun e => alive ⟨e, hop⟩) hgo
      exact Q.accept ht new allowed (by omega)

theorem execLcProvision_keeps {r : Req} {svcLow : Bool} (h : Holds Q.toInv s) : Ends Q.toInv (execLcProvision r svcLow s) :=
  lcRequest_keeps (by decide) (fun t _ ok => by
    have : lifeCycle t = 0 := by simp at ok; omega
    simp [lcAllowed, this]) h

theorem execLcCommit_keeps {r : Req} {svcLow : Bool} (h : Holds Q.toInv s) : Ends Q.toInv (execLcCommit r svcLow s) :=
  lcRequest_keeps (by decide) (fun t _ ok => by
    have : lifeCycle t = 1 := by simp at ok; omega
    simp [lcAllowed, this]) h

theorem execLcService_keeps {r : Req} {svcLow : Bool} (h : Holds Q.toInv s) : Ends Q.toInv (execLcService r svcLow s) :=
  lcRequest_keeps (by decide) (fun t _ ok => by
    have : lifeCycle t = 1 ∨ lifeCycle t = 2 := by simp at ok; omega
    rcases this with this | this <;> simp [lcAllowed, this]) h

theorem execLcReturn_keeps {r : Req} {svcLow : Bool} (h : Holds Q.toInv s) : Ends Q.toInv (execLcReturn r svcLow s) :=
  lcRequest_keeps (by decide) (fun t _ ok => by
    have : lifeCycle t = 3 := by simp at ok; omega
    simp [lcAllowed, this]) h

theorem execLcRetire_keeps {r : Req} {svcLow : Bool} (h : Holds Q.toInv s) : Ends Q.toInv (execLcRetire r svcLow s) :=
  lcRequest_keeps (by decide) (fun t alive _ => by
    have : lifeCycle t ≤ 3 := by have := lifeCycle_lt t; omega
    simp [lcAllowed, this]) h

/-- 17 R477: the record of the accepted transition is burned, and the device resets. -/
theorem execLifeCycleCommit_keeps {f : ResetFindings}
    (hburn : Q.SurvivesBurn) (h : Holds Q.toInv s) : Ends Q.toInv (execLifeCycleCommit f s) := by
  unfold execLifeCycleCommit
  change Holds Q.toInv (match s.pw.lcNext with | none => s | some b => _)
  split
  · exact h
  · rename_i b hb
    extract_lets old _ _ s1 s2 s3
    -- what leads to the reset keeps the record burned
    have h3 : Holds (lifeAndCommandsOf s1) s3 := setPw_keeps (fun _ => rfl)
      (when_keeps (fun h => wipeKeys_keeps (revokeKek_keeps h)) (lifeAndCommandsOf_self s1))
    obtain ⟨burned, -, -⟩ : Holds (lifeAndCommandsOf s1) (beginReset 5 .resetRun s3) := beginReset_keeps h3
    refine ite_keeps h (wholeReset_keeps ?_)
    generalize beginReset 5 .resetRun s3 = t at burned
    unfold Holds at h
    rw [hb] at h
    change Q.holds [] State.reset.regs t.fuse.records none []
    rw [burned]
    exact hburn h

end Sys2Proof.Machine
end

section
/-!
PROOF. What every step keeps: field service and the test access port (18, 19 R496 to R499).
-/
namespace Sys2Proof.Machine

variable {P : Inv} {Q : StepInv} {s : State}

theorem setSvc_keeps {f : SvcSt → SvcSt} (h : Holds P s) : Holds P (setSvc f s) := h

theorem meterSelect_keeps {v : Nat} (h : Holds P s) : Holds P (meterSelect v s) := setSvc_keeps (setF_keeps h)

theorem execMeterRefresh_keeps {reading : Nat} (h : Holds P s) : Ends P (execMeterRefresh reading s) := by
  unfold execMeterRefresh
  exact ite_keeps h (by split; exacts [h, setSvc_keeps h])

theorem execLedLocate_keeps {r : Req} (h : Holds Q.toInv s) : Ends Q.toInv (execLedLocate r s) :=
  execReq_keeps (fun _ => setSvc_keeps) h

theorem execLocateEnd_keeps (h : Holds P s) : Ends P (execLocateEnd s) := by
  unfold execLocateEnd
  split
  · exact when_keeps setSvc_keeps h
  · exact h

theorem execLedTest_keeps {r : Req} (h : Holds Q.toInv s) : Ends Q.toInv (execLedTest r s) :=
  execReq_keeps (fun _ => setSvc_keeps) h

theorem execLedTestEnd_keeps (h : Holds P s) : Ends P (execLedTestEnd s) := unless_keeps setSvc_keeps h

theorem tapSelects_keeps (h : Holds P s) : Holds P (tapSelects s) := emit_keeps h

theorem execTapReset_keeps (h : Holds P s) : Ends P (execTapReset s) := tapSelects_keeps (setSvc_keeps h)

theorem execTapInstructionUpdate_keeps {op : BitVec 6} (h : Holds P s) : Ends P (execTapInstructionUpdate op s) :=
  when_keeps driversOff_keeps (tapSelects_keeps (setSvc_keeps h))

theorem execPeekUpdate_keeps {addr : BitVec 23} (h : Holds P s) : Ends P (execPeekUpdate addr s) := by
  unfold execPeekUpdate
  exact ite_keeps h (tapSelects_keeps (by split; exacts [holdAccess_keeps h, tapRead_keeps h]))

theorem execMeterSelUpdate_keeps {v : Byte} (h : Holds P s) : Ends P (execMeterSelUpdate v s) :=
  when_keeps meterSelect_keeps h

theorem execSvcSelftest_keeps {r : Req} (h : Holds Q.toInv s) : Ends Q.toInv (execSvcSelftest r s) :=
  execReq_keeps (fun _ h => deferIf_keeps h (fun _ h => h)) h

theorem selfActs_keeps {f : SelftestFinding} (h : Holds P s) : Holds P (selfActs f s) :=
  ite_keeps (foldl_keeps (fun _ _ => when_keeps bankFailing_keeps) h) (ite_keeps (foldl_keeps
    (fun _ _ => codecFails_keeps) (foldl_keeps (fun _ _ => unitTested_keeps) h)) (ite_keeps (foldl_keeps
    (fun _ _ => when_keeps retireEngine_keeps) h) h))

theorem execSvcSelftestDone_keeps {finds : List SelftestFinding} (h : Holds Q.toInv s) :
    Ends Q.toInv (execSvcSelftestDone finds s) := by
  unfold execSvcSelftestDone
  split
  · exact h
  · exact finish_keeps (foldl_keeps (fun _ _ => selfActs_keeps) h)

end Sys2Proof.Machine
end

section
/-!
PROOF. What every step keeps: identity, parameter objects and performance bins (14 R404 to R409, R414, R516, R517).
-/
namespace Sys2Proof.Machine

variable {P : Inv} {Q : StepInv} {s : State}

theorem afterRead_keeps {func id : Nat} (h : Holds P s) : Holds P (afterRead func id s) := by
  unfold afterRead
  split
  · exact h
  · exact ite_keeps h (ite_keeps (when_keeps setF_keeps (setObj_keeps h)) (when_keeps setObj_keeps h))

theorem sampleAll_keeps {func : Nat} {l : List Bytes} (h : Holds P s) : Holds P (sampleAll func l s).1 :=
  foldl_fst_keeps (fun _ _ => afterRead_keeps) h

theorem readParams_keeps {r : Req} (h : Holds Q.toInv s) : Holds Q.toInv (readParams r s) := by
  unfold readParams
  exact execReq_keeps (fun _ h => (by extract_lets; split; exacts [refuse_keeps h, sampleAll_keeps h])) h

theorem freeStart_keeps (h : Holds P s) : Holds P (freeStart s) := ite_keeps h (mainsLock_keeps (setClk_keeps h))

theorem atOnce_keeps {func id : Nat} {w : W32} (h : Holds P s) : Holds P (atOnce func id w s) :=
  ite_keeps (freeStart_keeps (nominalHeld_keeps (channelChange_keeps (setObj_keeps h)))) (when_keeps
    (fun h => regroup_keeps (foldl_keeps (fun _ _ => setF_keeps) h)) (setObj_keeps h))

theorem forSuperframe_keeps {func id : Nat} {w : W32} (h : Holds P s) : Holds P (forSuperframe func id w s) :=
  ite_keeps (atOnce_keeps h) (ite_keeps (putLate_keeps h) (pendWrite_keeps h))

theorem measChNow_keeps {ch : Nat} (h : Holds P s) : Holds P (measChNow ch s) := by
  unfold measChNow
  exact ite_keeps h (foldl_keeps (fun _ _ h => (by split; exacts [when_keeps changeNow_keeps h, h])) h)

theorem conCfgWritten_keeps {r : Req} {w : W32} (h : Holds P s) : Holds P (conCfgWritten r w s) := by
  unfold conCfgWritten
  extract_lets
  split
  · exact setCon_keeps (setShadow_keeps h)
  · exact when_keeps adopt_keeps (setCon_keeps (setShadow_keeps h))

theorem writeB_keeps {r : Req} {func id : Nat} {b : Bound} {w : W32} (h : Holds P s) :
    Holds P (writeB r func id b w s) := by
  unfold writeB
  split
  · exact forSuperframe_keeps h
  · exact pendWrite_keeps h
  · exact pendWrite_keeps h
  · exact nbTakesAll_keeps (setObj_keeps h)
  · exact setMeas_keeps (pendWrite_keeps h)
  · exact measChNow_keeps (pendWrite_keeps h)
  · exact conCfgWritten_keeps h

theorem evtCfgWritten_keeps {r : Req} {w : W32} (h : Holds P s) : Holds P (evtCfgWritten r w s) := by
  unfold evtCfgWritten
  exact eventLinkMoved_keeps (by split; exacts [setObj_keeps h, setObj_keeps h])

theorem writeL_keeps {r : Req} {func id : Nat} {w : W32} (h : Holds P s) : Holds P (writeL r func id w s) :=
  ite_keeps (evtCfgWritten_keeps h) (ite_keeps (meterSelect_keeps h) (when_keeps setPga_keeps (setObj_keeps h)))

theorem writeObject_keeps {r : Req} {id : Nat} {mask v : W32} {t : State} (he : writeObject r id mask v s = .ok t)
    (h : Holds P s) : Holds P t := by
  unfold writeObject at he
  extract_lets f at he
  split at he
  · cases he
  · extract_lets w at he
    rw [ite_eq_iff, ite_eq_iff] at he
    obtain ⟨-, he⟩ | ⟨-, ⟨-, he⟩ | ⟨-, he⟩⟩ := he
    · cases he
    · cases he
    · split at he
      · cases he
      · obtain rfl := Except.ok.inj he
        exact ite_keeps (setObj_keeps h) (ite_keeps (setShadow_keeps h) (ite_keeps (writeB_keeps h) (writeL_keeps h)))

theorem writeEntries_keeps {r : Req} {size i : Nat} {l : List Bytes} {t : State} (he : writeEntries r size i l s = .ok t)
    (h : Holds P s) : Holds P t := by
  induction l generalizing i s with
  | nil => cases he; exact h
  | cons e l ih =>
    unfold writeEntries at he
    extract_lets at he
    split at he
    · cases he
    · exact ih he (writeObject_keeps ‹_› h)

theorem writeParams_keeps {modify : Bool} {r : Req} (h : Holds Q.toInv s) : Holds Q.toInv (writeParams modify r s) := by
  refine execReq_keeps (fun t ht => ?_) h
  split
  · exact ht
  · exact writeEntries_keeps ‹_› ht

theorem writeNamed_keeps {r : Req} (h : Holds Q.toInv s) : Holds Q.toInv (writeNamed r s) := writeParams_keeps h

theorem execPing_keeps {r : Req} (h : Holds Q.toInv s) : Ends Q.toInv (execPing r s) := execReq_keeps (fun _ h => h) h

theorem execIdentify_keeps {r : Req} (h : Holds Q.toInv s) : Ends Q.toInv (execIdentify r s) :=
  execReq_keeps (fun _ h => h) h

theorem execParamRead_keeps {r : Req} (h : Holds Q.toInv s) : Ends Q.toInv (execParamRead r s) := readParams_keeps h

theorem execParamWrite_keeps {r : Req} (h : Holds Q.toInv s) : Ends Q.toInv (execParamWrite r s) := writeParams_keeps h

theorem execParamModify_keeps {r : Req} (h : Holds Q.toInv s) : Ends Q.toInv (execParamModify r s) :=
  writeParams_keeps h

theorem execRcObjectRead_keeps {r : Req} (h : Holds Q.toInv s) : Ends Q.toInv (execRcObjectRead r s) :=
  readParams_keeps h

theorem execTbLoRead_keeps {r : Req} (h : Holds Q.toInv s) : Ends Q.toInv (execTbLoRead r s) := readParams_keeps h

theorem execW1cObjectWrite_keeps {func : Byte} {id : W16} {v setNow : W32} (h : Holds P s) :
    Ends P (execW1cObjectWrite func id v setNow s) :=
  h

theorem execMainsCtrlWrite_keeps {r : Req} (h : Holds Q.toInv s) : Ends Q.toInv (execMainsCtrlWrite r s) :=
  writeNamed_keeps h

theorem execNbChWrite_keeps {r : Req} (h : Holds Q.toInv s) : Ends Q.toInv (execNbChWrite r s) := writeNamed_keeps h

theorem execNbSyncWrite_keeps {r : Req} (h : Holds Q.toInv s) : Ends Q.toInv (execNbSyncWrite r s) := writeNamed_keeps h

theorem execMeasChWrite_keeps {r : Req} (h : Holds Q.toInv s) : Ends Q.toInv (execMeasChWrite r s) := writeNamed_keeps h

theorem execMeasSeqWrite_keeps {r : Req} (h : Holds Q.toInv s) : Ends Q.toInv (execMeasSeqWrite r s) :=
  writeNamed_keeps h

theorem execGraftCfgWrite_keeps {r : Req} (h : Holds Q.toInv s) : Ends Q.toInv (execGraftCfgWrite r s) :=
  writeNamed_keeps h

theorem execConCfgWrite_keeps {r : Req} (h : Holds Q.toInv s) : Ends Q.toInv (execConCfgWrite r s) := writeNamed_keeps h

theorem execEvtCfgWrite_keeps {r : Req} (h : Holds Q.toInv s) : Ends Q.toInv (execEvtCfgWrite r s) := writeNamed_keeps h

theorem execMeterCtrlWrite_keeps {r : Req} (h : Holds Q.toInv s) : Ends Q.toInv (execMeterCtrlWrite r s) :=
  writeNamed_keeps h

theorem execPmReadBlock_keeps {r : Req} (h : Holds Q.toInv s) : Ends Q.toInv (execPmReadBlock r s) :=
  execReq_keeps (fun _ h => h) h

end Sys2Proof.Machine
end

section
/-!
PROOF. What every step keeps: every command, every step; and from that the canonical form of the contents (09 R270, 14 R404).
-/
namespace Sys2Proof.Machine

variable {Q : StepInv} {s : State}

/-- Every command but the commit of a life-cycle transition keeps what `StepInv` says. -/
theorem exec_keeps {c : Instr} (hc : ∀ f, c ≠ .lifeCycleCommit f) (h : Holds Q.toInv s) : Ends Q.toInv (exec c s) := by
  cases c
  case lifeCycleCommit f => exact absurd rfl (hc f)
  case flashBoot _ _ sfdp _ => exact execFlashBoot_keeps (sfdp := sfdp) h
  exacts [execPowerOn_keeps h, execBrownout_keeps h, execResetNLow_keeps h, execResetClocksReady_keeps h,
    execWholeDeviceReset_keeps h, execDomainTrip_keeps h, execThermalShutdown_keeps h, execThermalRecovery_keeps h,
    execHotChange_keeps h, execMcLockstepMismatch_keeps h, execMcRestartDone_keeps h, execRegionControllerMismatch_keeps h,
    execRegionControllerRestarted_keeps h, execRefclkLoss_keeps h, execRefclkRestoreDetect_keeps h,
    execRefclkSlewEnd_keeps h, execMainsCrossingCapture_keeps h, execMainsCycleStart_keeps h, execMainsMissHoldover_keeps h,
    execChainSyncMiss_keeps h, execChainSyncEdge_keeps h, execChainSyncLowSeen_keeps h, execSyncAnnounceSend_keeps h,
    execSyncAnnouncement_keeps h, execTbSlewAdjust_keeps h, execSuperframeStart_keeps h, execArqAckTimeout_keeps h,
    execSlotStart_keeps h, execScheduleFix_keeps h, execNodeSilenceLimit_keeps h, execLeavingToFree_keeps h,
    execStepWatchEnd_keeps h, execEventRecordAccept_keeps h, execEventRelease_keeps h, execEventPacketSend_keeps h,
    execPortStartupChecks_keeps h, execPortChecksDone_keeps h, execClampEpisodeEnd_keeps h, execClampTimeout_keeps h,
    execPortUnitFault_keeps h, execAgcUpdate_keeps h, execReadmitPeriodEnd_keeps h, execBbBurstTransmit_keeps h,
    execDownlinkEncode_keeps h, execNbBurstTransmit_keeps h, execShapeFadeStart_keeps h, execShapeFadeEnd_keeps h,
    execBbPreambleDetect_keeps h, execBbSecondaryDetect_keeps h, execBbS9Found_keeps h, execBbSyncTimeout_keeps h,
    execBbCapture_keeps h, execBbTrainingEnd_keeps h, execBbFrameControl_keeps h, execBbPayloadSymbol_keeps h,
    execBbStepReestimate_keeps h, execNoiseMapBlock_keeps h, execCodewordDecodeStart_keeps h, execOuterRoundStart_keeps h,
    execCodewordIteration_keeps h, execReprieveStart_keeps h, execReprieveTimeout_keeps h, execDecodeLag_keeps h,
    execLagModeExit_keeps h, execClusterFault_keeps h, execSpareFailed_keeps h, execSpareLaneRetrain_keeps h,
    execD2dLaneFault_keeps h, execCapacityUpdate_keeps h, execNbPreambleDetect_keeps h, execNbSyncMatch_keeps h,
    execNbSyncTimeout_keeps h, execNbHeaderDecode_keeps h, execNbSymbol_keeps h, execNbCaptureArm_keeps h,
    execNbCapture_keeps h, execNbLostCarrier_keeps h, execNbChannelTakesEffect_keeps h, execLinkFrameOpen_keeps h,
    execLinkFrameReceive_keeps h, execJoinTrial_keeps h, execTrellisAccess_keeps h, execScrubRead_keeps h,
    execBankSwitch_keeps h, execMirrorCopyDone_keeps h, execBankRebuildDone_keeps h, execTrellisWipeComplete_keeps h,
    execPacketCommit_keeps h, execPacketAbort_keeps h, execQueueUnitWrite_keeps h, execQueueConsumerRead_keeps h,
    execPacketRelease_keeps h, execQueuePointerMismatch_keeps h, execClocheJobAssign_keeps h, execClocheJobComplete_keeps h,
    execEngineFault_keeps h, execEngineIdleKat_keeps h, execTrngFail_keeps h, execDrbgReseed_keeps h, execDrbgHalt_keeps h,
    execClocheReady_keeps h, execVirerFrameTransmit_keeps h, execVirerFrameReceive_keeps h, execLaneLos_keeps h,
    execLaneLosClear_keeps h, execControlCycleEnd_keeps h, execGraftFrameRelease_keeps h, execGraftRealign_keeps h,
    execGraftPacketReceive_keeps h, execPmSecond_keeps h, execPmBinClose_keeps h, execSeqEntryIssue_keeps h,
    execSliceSettled_keeps h, execEntryDelayEnd_keeps h, execMeasIntervalEnd_keeps h, execPhase4000Instant_keeps h,
    execTriggerArmedInstant_keeps h, execLoadStepDetect_keeps h, execSliceRotation_keeps h, execRotationExchange_keeps h,
    execSliceCalibrationDone_keeps h, execSliceRetire_keeps h, execMeasForward_keeps h, execConCharReceive_keeps h,
    execConBreak_keeps h, execConIdle_keeps h, execConRxTimeout_keeps h, execXoffTimeout_keeps h, execConStuck_keeps h,
    execConStuckClear_keeps h, execCaseriLine_keeps h, execCaseriFrame_keeps h, execCaseriFrameGap_keeps h,
    execConCfgSwitch_keeps h, execChainMessageReceive_keeps h, execChainTxStart_keeps h, execChainArbitrationLost_keeps h,
    execChainMessageAbort_keeps h, execChainStuck_keeps h, execChainStuckClear_keeps h, execAssignStart_keeps h,
    execAssignOffer_keeps h, execAssignAck_keeps h, execAssignOfferTimeout_keeps h, execAssignEnd_keeps h,
    execAssignResumeTimeout_keeps h, execWakeNotice_keeps h, execWakeCharacters_keeps h, execForwardTimeout_keeps h,
    execCommandForward_keeps h, execForwardedReply_keeps h, execHostFrameReceive_keeps h, execPauseReceive_keeps h,
    execHostLinkState_keeps h, execHostLinkUp_keeps h, execDataPacketDownlink_keeps h, execUplinkDataSend_keeps h,
    execCoreStart_keeps h, execImageCheckVerdict_keeps h, execCoreWatchdogExpire_keeps h,
    execCoreAccessFault_keeps h, execCoreTimerInterrupt_keeps h, execAppStopDone_keeps h, execMeterRefresh_keeps h,
    execLocateEnd_keeps h, execLedTestEnd_keeps h, execTapReset_keeps h, execTapInstructionUpdate_keeps h,
    execPeekUpdate_keeps h, execMeterSelUpdate_keeps h, execFuncResetDone_keeps h, execPing_keeps h, execIdentify_keeps h,
    execParamRead_keeps h, execParamWrite_keeps h, execParamModify_keeps h, execRcObjectRead_keeps h,
    execW1cObjectWrite_keeps h, execTbLoRead_keeps h, execMainsCtrlWrite_keeps h, execNbChWrite_keeps h,
    execNbSyncWrite_keeps h, execMeasChWrite_keeps h, execMeasSeqWrite_keeps h, execGraftCfgWrite_keeps h,
    execConCfgWrite_keeps h, execEvtCfgWrite_keeps h, execMeterCtrlWrite_keeps h, execDevReset_keeps h,
    execFuncReset_keeps h, execFuncRelease_keeps h, execPdSet_keeps h, execSleep_keeps h, execLcProvision_keeps h,
    execLcCommit_keeps h, execLcService_keeps h, execLcReturn_keeps h, execLcRetire_keeps h, execPortSound_keeps h,
    execPortSoundDone_keeps h, execPortSoundRead_keeps h, execPortRemove_keeps h, execPortAdmit_keeps h,
    execBbMaskWrite_keeps h, execBbMaskRead_keeps h, execShapeWrite_keeps h, execShapePreset_keeps h, execShapeSwap_keeps h,
    execShapeRead_keeps h, execBbTxTest_keeps h, execBbTxTestDone_keeps h, execBbRxLast_keeps h, execBbSnrArm_keeps h,
    execBbSnrRead_keeps h, execBbNoiseRead_keeps h, execDecLast_keeps h, execCodecTest_keeps h, execCodecTestDone_keeps h,
    execNbRxLast_keeps h, execNbLevel_keeps h, execNbTxTest_keeps h, execNbTxTestDone_keeps h, execNodeRead_keeps h,
    execNodeFind_keeps h, execNodeEvict_keeps h, execTonemapRead_keeps h, execRouteRead_keeps h, execSchedRead_keeps h,
    execNodeRefresh_keeps h, execDestSet_keeps h, execDestRead_keeps h, execCrypt_keeps h, execRngRead_keeps h,
    execKekLoad_keeps h, execKeyUnwrap_keeps h, execKeySave_keeps h, execKeyRestore_keeps h, execKeyErase_keeps h,
    execKeyInfo_keeps h, execCeTest_keeps h, execCeTestDone_keeps h, execGraftAdd_keeps h, execGraftRemove_keeps h,
    execGraftRead_keeps h, execBhPmRead_keeps h, execBhPmAlign_keeps h, execBhTraceRead_keeps h, execBhTraceLearn_keeps h,
    execBhLaneTest_keeps h, execBhLaneTestDone_keeps h, execMeasRead_keeps h, execMeasTrigger_keeps h,
    execMeasTrigAt_keeps h, execMeasSyscal_keeps h, execMeasSyscalDone_keeps h, execMeasLast_keeps h,
    execChainAssign_keeps h, execChainAssignDone_keeps h, execChainWake_keeps h, execChainWakeSent_keeps h,
    execAppLoad_keeps h, execAppStart_keeps h, execAppStop_keeps h, execSvcSelftest_keeps h, execSvcSelftestDone_keeps h,
    execLedLocate_keeps h, execLedTest_keeps h, execEvtRead_keeps h, execPmReadBlock_keeps h, execTrWipe_keeps h,
    execTrRepart_keeps h, execTrBankTest_keeps h, execTrBankTestDone_keeps h, execTrPeek_keeps h, execQRead_keeps h,
    execQWm_keeps h, execIntClrWrite_keeps h, execInPopWrite_keeps h, execOutReqWrite_keeps h, execOutCommitWrite_keeps h,
    execOutAbortWrite_keeps h, execCjSubmitWrite_keeps h, execMboxWrite_keeps h, execMboxClrWrite_keeps h,
    execWdogKickWrite_keeps h, execFawMatch_keeps h, execNbChannelSettled_keeps h, execPauseExpire_keeps h,
    execSliceSyncReset_keeps h, execNbChannelFloorUpdate_keeps h, execSlowClockChange_keeps h]

/-- So does every step, where the burned record of an accepted transition keeps it too (17 R477). -/
theorem step_keeps (hburn : Q.SurvivesBurn) (h : Holds Q.toInv s) : Ends Q.toInv (step s) := by
  unfold step
  split
  · exact deviceIdle_keeps h
  · rename_i c rest _
    by_cases hc : ∃ f, c = .lifeCycleCommit f
    · obtain ⟨f, rfl⟩ := hc
      exact execLifeCycleCommit_keeps hburn h
    · exact exec_keeps (fun f e => hc ⟨f, e⟩) h

/-- What holds of the state holds of the next state. -/
theorem step_next_keeps {t : State} (hburn : Q.SurvivesBurn) (h : Holds Q.toInv s) (ht : step s = .next t) : Holds Q.toInv t := by
  have hends := step_keeps hburn h
  rwa [ht] at hends

/-- The bytes of the Trellis and the objects are in canonical form (09 R270, 14 R404). -/
def contentsCanonical : StepInv where
  holds m r _ _ _ := smWf memD m = true ∧ smWf regD r = true
  putObj h _ _ := ⟨h.1, smWf_smPut h.2⟩
  dropObj h _ := ⟨h.1, smWf_filter h.2⟩
  putByte h _ _ := ⟨smWf_smPut h.1, h.2⟩
  dropByte h _ := ⟨smWf_filter h.1, h.2⟩
  defer h _ _ _ := h
  drop h _ := h
  accept h _ _ _ := h
  reset _ := ⟨wf_reset, rfl⟩
  putBack h h' := ⟨h'.1, h.2⟩

theorem contentsCanonical_survivesBurn : contentsCanonical.SurvivesBurn := fun _ _ _ _ _ _ => ⟨wf_reset, rfl⟩

theorem canonical_iff_holds : canonical s = true ↔ Holds contentsCanonical.toInv s := Bool.and_eq_true_iff

/-- Settles O6: every write of a byte or of an object is a put, a removal or a reset, and each keeps the canonical form. -/
theorem contentsStayCanonical : Obligations.ContentsStayCanonical := by
  unfold Obligations.ContentsStayCanonical
  intro s t h ht
  exact canonical_iff_holds.mpr (step_next_keeps contentsCanonical_survivesBurn (canonical_iff_holds.mp h) ht)

end Sys2Proof.Machine
end

section
/-!
PROOF. The one queue design (10): the evaluation of the watermark (R301, R302), and what producers and consumers do at a port
(R290, R292 to R296, R300). Each command has one equation per kind of queue; the clauses follow from it by their cases.
-/
namespace Sys2Proof.Machine

section watermark

variable {qid size : Nat} {v : Que} {s : State}

/-- R301: an upward crossing sets ABOVE and UP and counts; R302: its event is due where UP was clear. -/
theorem qWater_upward (habove : v.above = false) (hmark : v.wm.toNat * size ≤ 256 * qLevel size v) :
    qWater size v = ({ v with
      peak := max v.peak (qLevel size v), above := true, up := true, upCount := min (v.upCount + 1) 255 }, !v.up) :=
  if_pos (by rw [habove]; exact decide_eq_true hmark)

/-- R301, R302: where ABOVE is set already or the level is below the watermark, UP and its count stay and no event is due. -/
theorem qWater_not_upward (h : v.above = true ∨ 256 * qLevel size v < v.wm.toNat * size) :
    (qWater size v).2 = false ∧ (qWater size v).1.upCount = v.upCount ∧ (qWater size v).1.up = v.up := by
  have hup : (!v.above && atMark v.wm.toNat size (qLevel size v)) = false := by
    rcases h with habove | hbelow
    · rw [habove, Bool.not_true, Bool.false_and]
    · rw [atMark, decide_eq_false (not_le.mpr hbelow), Bool.and_false]
  unfold qWater
  rw [if_neg (ne_true_of_eq_false hup)]
  split
  · exact ⟨rfl, rfl, rfl⟩
  · exact ⟨rfl, rfl, rfl⟩

/-- R302: with the event due, QUEUE_WATERMARK carries the QID and the level. -/
theorem putQ_event (h : (qWater (qSize qid) v).2 = true) :
    putQ qid v s = raise 76 0 .queueWatermark (beBytes 1 qid ++ [0] ++ beBytes 4 (qLevel (qSize qid) v))
      (setQ qid (qWater (qSize qid) v).1 s) := if_pos h

theorem putQ_silent (h : (qWater (qSize qid) v).2 = false) : putQ qid v s = setQ qid (qWater (qSize qid) v).1 s :=
  if_neg (ne_true_of_eq_false h)

end watermark

/-- Settles O11: the queue is evaluated once, and the event is due at an upward crossing with UP clear alone. -/
theorem watermarkEventNeedsUpClear : Obligations.WatermarkEventNeedsUpClear := by
  unfold Obligations.WatermarkEventNeedsUpClear
  refine ⟨?firstCrossing, ?furtherCrossing, ?noCrossing⟩
  case firstCrossing =>
    rintro qid v s lv rfl habove hmark hup
    have hw := qWater_upward habove hmark
    rw [putQ_event (by rw [hw, hup, Bool.not_false]), hw]
  case furtherCrossing =>
    rintro qid v s lv rfl habove hmark hup
    have hw := qWater_upward habove hmark
    rw [putQ_silent (by rw [hw, hup, Bool.not_true]), hw]
  case noCrossing =>
    rintro qid v s lv rfl h
    obtain ⟨hsilent, hcount, hup⟩ := qWater_not_upward h
    exact ⟨_, putQ_silent hsilent, hcount, hup⟩

section port

variable {q : Byte} {s : State} {c : QCat}

theorem qSize_of_qCat {qid : Nat} (hq : qCat qid = some c) : qSize qid = c.size := by rw [qSize, hq]

/-- R292, R294, R295: at a packet queue a commit ends the packet written; the rest of a lost packet is discarded with it. -/
theorem exec_packetCommit {bytes : Nat} {mark : Bool} {tag : Byte} (hq : qCat q.toNat = some c) (hc : c.crossing = false) :
    exec (.packetCommit q bytes mark tag) s = .next
      (if (getQ s q.toNat).discarding then setQ q.toNat { getQ s q.toNat with discarding := false, writing := none } s
      else (getQ s q.toNat).writing.elim (qPush q.toNat (producerOf q.toNat) mark tag.toNat [] s).1 fun d =>
        putQ q.toNat { getQ s q.toNat with
          pp := (getQ s q.toNat).wp
          pkts := (getQ s q.toNat).pkts ++ [⟨(getQ s q.toNat).pp, BitVec.ofNat 6 (producerOf q.toNat), false, mark, tag,
            s.clk.tb.truncate 32, payloadOf d bytes⟩]
          writing := none } (unpoison (unitAddr q.toNat (getQ s q.toNat).pp) 8 s)) := by
  change execPacketCommit q bytes mark tag s = _
  simp only [execPacketCommit, hq, hc, Bool.false_eq_true, if_false]
  cases (getQ s q.toNat).writing <;> rfl

/-- R293: at a packet queue an abort ends the packet written, or the discard of a lost one; with neither begun nothing
changes (log 3). -/
theorem exec_packetAbort (hq : qCat q.toNat = some c) (hc : c.crossing = false) :
    exec (.packetAbort q) s = .next
      (if (getQ s q.toNat).discarding then setQ q.toNat { getQ s q.toNat with discarding := false } s
      else if (getQ s q.toNat).writing.isSome then putQ q.toNat (qAbort (getQ s q.toNat)) s else s) := by
  change execPacketAbort q s = _
  simp only [execPacketAbort, hq, hc, Bool.false_eq_true, if_false]

theorem exec_queueUnitWrite_crossing {unit : BitVec 256} (hq : qCat q.toNat = some c) (hc : c.crossing = true) :
    exec (.queueUnitWrite q unit) s = .next
      (if decide (c.size ≤ qUsed c.size (getQ s q.toNat)) && c.drop && !(getQ s q.toNat).heldR291
      then dropOwner q.toNat (qWord q.toNat unit.toNat s).1 else (qWord q.toNat unit.toNat s).1) := by
  change execQueueUnitWrite q unit s = _
  simp only [execQueueUnitWrite, hq, hc, if_true]

theorem exec_queueUnitWrite_packet {unit : BitVec 256} (hq : qCat q.toNat = some c) (hc : c.crossing = false) :
    exec (.queueUnitWrite q unit) s = .next (unitPacket q.toNat c unit s) := by
  change execQueueUnitWrite q unit s = _
  simp only [execQueueUnitWrite, hq, hc, Bool.false_eq_true, if_false]

/-- R291: a held queue takes no unit, whatever its kind. -/
theorem exec_queueUnitWrite_held {unit : BitVec 256} (hheld : (getQ s q.toNat).heldR291 = true) :
    exec (.queueUnitWrite q unit) s = .next s := by
  change execQueueUnitWrite q unit s = _
  cases hq : qCat q.toNat with
  | none => simp only [execQueueUnitWrite, hq]
  | some c => simp only [execQueueUnitWrite, hq, hheld, qWord, unitPacket, Bool.not_true, Bool.and_false, Bool.or_true,
      Bool.false_eq_true, if_true, if_false, ite_self]

section word

variable {qid w : Nat}

/-- R298: a word is stored while a unit is free. -/
theorem qWord_stores (hq : qCat qid = some c) (hheld : (getQ s qid).heldR291 = false)
    (hroom : qUsed c.size (getQ s qid) < c.size) :
    (qWord qid w s).1 = putQ qid { getQ s qid with
      wp := ptrAdd c.size (getQ s qid).wp 1, pp := ptrAdd c.size (getQ s qid).wp 1
      words := (getQ s qid).words ++ [BitVec.ofNat 256 (w % 2 ^ qWidth qid)] } s := by
  simp only [qWord, qSize_of_qCat hq, hheld, hroom, Bool.false_eq_true, if_false, if_true]

/-- R294: at a full queue a DROP producer loses the word; a WAIT producer is held. -/
theorem qWord_full (hq : qCat qid = some c) (hheld : (getQ s qid).heldR291 = false)
    (hfull : c.size ≤ qUsed c.size (getQ s qid)) :
    (qWord qid w s).1 = if c.drop then setQ qid { getQ s qid with drops := min ((getQ s qid).drops + 1) 0xFFFF } s else s := by
  simp only [qWord, qSize_of_qCat hq, hq, hheld, not_lt.mpr hfull, Bool.false_eq_true, if_false]
  split <;> rfl

end word

section unit

variable {qid n : Nat} {unit : BitVec 256} (hdisc : (getQ s qid).discarding = false) (hheld : (getQ s qid).heldR291 = false)
  (hn : n = if (getQ s qid).writing.isNone then 2 else 1)

include hdisc hheld hn

/-- R292: a unit is written where it fits; the first of a packet reserves that of the length word too. -/
theorem unitPacket_stores (hroom : qUsed c.size (getQ s qid) + n ≤ c.size) :
    unitPacket qid c unit s = putQ qid { getQ s qid with
      wp := ptrAdd c.size (getQ s qid).wp n
      writing := some ((getQ s qid).writing.getD [] ++ beBytes 8 (unit.toNat % 2 ^ 64)) }
        (unpoison (unitAddr qid (ptrAdd c.size (getQ s qid).wp (n - 1))) 8 s) := by
  simp only [unitPacket, hdisc, hheld, ← hn, hroom, Bool.or_self, Bool.false_eq_true, if_false, if_true]

/-- R294, R295: without room a DROP producer loses its packet, and a WAIT producer loses one that overtakes its rewind mark
and is held with any other. -/
theorem unitPacket_full (hfull : c.size < qUsed c.size (getQ s qid) + n) :
    unitPacket qid c unit s = if c.drop then dropOwner qid (qDiscards qid (qDrop qid s))
      else if (getQ s qid).rp = (getQ s qid).pp then qDiscards qid (qOversize qid ((getQ s qid).writing.getD []).length s)
      else s := by
  simp only [unitPacket, hdisc, hheld, ← hn, not_le.mpr hfull, Bool.or_self, Bool.false_eq_true, if_false]

end unit

section read

variable {pos : Nat}

/-- R300: a read of an empty queue is an underrun, at a crossing queue as at a packet queue. -/
theorem exec_queueConsumerRead_empty (hq : qCat q.toNat = some c)
    (hempty : if c.crossing then (getQ s q.toNat).words = [] else (getQ s q.toNat).pkts = []) :
    exec (.queueConsumerRead q pos) s = .next (putQ q.toNat { getQ s q.toNat with
      underrun := true, underruns := min ((getQ s q.toNat).underruns + 1) 0xFFFF } s) := by
  change execQueueConsumerRead q pos s = _
  cases hc : c.crossing with
  | true =>
    rw [hc, if_pos rfl] at hempty
    simp only [execQueueConsumerRead, hq, hc, if_true, qRead1, hempty]
  | false =>
    rw [hc, if_neg Bool.false_ne_true] at hempty
    simp only [execQueueConsumerRead, hq, hc, hempty, List.isEmpty_nil, Bool.false_eq_true, if_false, if_true]

/-- R300: a read of a crossing queue takes its oldest word. -/
theorem exec_queueConsumerRead_word {w : BitVec 256} {rest : List (BitVec 256)} (hq : qCat q.toNat = some c)
    (hc : c.crossing = true) (hwords : (getQ s q.toNat).words = w :: rest) :
    exec (.queueConsumerRead q pos) s = .next (putQ q.toNat { getQ s q.toNat with
      words := rest, rp := ptrAdd (qSize q.toNat) (getQ s q.toNat).rp 1, lastRead := w } s) := by
  change execQueueConsumerRead q pos s = _
  simp only [execQueueConsumerRead, hq, hc, if_true, qRead1, hwords]

/-- R296, 09 R278: what the consumer of a packet queue that holds packets does with the one that its read finds. A poisoned
packet resets the queue; a read that finds none changes nothing (log 3). -/
theorem exec_queueConsumerRead_packet (hq : qCat q.toNat = some c) (hc : c.crossing = false)
    (hpkts : (getQ s q.toNat).pkts ≠ []) :
    exec (.queueConsumerRead q pos) s = .next
      ((if c.retain then qReadAt q.toNat pos s else qPop q.toNat s).elim s fun r =>
        if pktPoisoned q.toNat r.1 s then queueReset q.toNat 2 3 0 0 s else r.2) := by
  change execQueueConsumerRead q pos s = _
  simp only [execQueueConsumerRead, hq, hc, List.isEmpty_eq_false_iff.mpr hpkts, Bool.false_eq_true, if_false]
  cases (if c.retain then qReadAt q.toNat pos s else qPop q.toNat s) <;> rfl

variable {qid : Nat} {p : Pkt}

theorem qReadAt_found (h : (getQ s qid).pkts.find? (fun p => decide (p.pos = pos)) = some p) :
    qReadAt qid pos s = some (p, putQ qid { getQ s qid with lastRead := lastUnit p } s) := by
  rw [qReadAt, h, Option.map_some]

theorem qReadAt_missing (h : (getQ s qid).pkts.find? (fun p => decide (p.pos = pos)) = none) : qReadAt qid pos s = none := by
  rw [qReadAt, h, Option.map_none]

theorem qPop_cons {rest : List Pkt} (h : (getQ s qid).pkts = p :: rest) :
    qPop qid s = some (p, putQ qid { getQ s qid with
      pkts := rest, rp := ptrAdd (qSize qid) (getQ s qid).rp (pktUnits p.data.length), lastRead := lastUnit p } s) := by
  simp only [qPop, h]

/-- The packet that a read finds: of a retaining queue the one at the position (R296), else the oldest. -/
theorem exists_read_of_found {retain : Bool} (h : (if retain then (getQ s qid).pkts.find? (fun p => decide (p.pos = pos))
      else (getQ s qid).pkts.head?) = some p) :
    ∃ t, (if retain then qReadAt qid pos s else qPop qid s) = some (p, t) := by
  cases retain with
  | true => exact ⟨_, qReadAt_found h⟩
  | false =>
    obtain ⟨rest, hpkts⟩ := List.head?_eq_some_iff.mp h
    exact ⟨_, qPop_cons hpkts⟩

end read

/-- R296: the consumer of a retaining queue releases a packet. -/
theorem exec_packetRelease {pos : Nat} (hq : qCat q.toNat = some c) (hr : c.retain = true) :
    exec (.packetRelease q pos) s = .next (qRelease q.toNat pos s) := by
  change execPacketRelease q pos s = _
  simp only [execPacketRelease, hq, hr, if_true]

/-- R290: two copies of a pointer that disagree reset the queue. -/
theorem exec_queuePointerMismatch {side : Bool} {ptr : Fin 3} {a b : W32} (hq : qCat q.toNat = some c) (hab : a ≠ b) :
    exec (.queuePointerMismatch q side ptr a b) s = .next (queueReset q.toNat (b2n side) ptr.val a.toNat b.toNat s) :=
  congrArg Host.Outcome.next (if_neg (by simp [hq, hab]))

end port

/-- Settles O31, command by command. That an abort with no packet begun and a read at a position that holds none change nothing
(log 3), that equal copies of a pointer are no mismatch (log 153) and how BYTES cuts the payload (log 151) are the model's own
readings. -/
theorem queuePortCommands : Obligations.QueuePortCommands := by
  unfold Obligations.QueuePortCommands
  refine ⟨?commit, ?commitEmpty, ?commitLost, ?abortLost, ?abort, ?abortNone, ?wordStored, ?wordFull, ?unitStored, ?unitFull,
    fun _ _ _ => exec_queueUnitWrite_held, ?word, ?underrun, ?readAt, ?readAtNone, ?pop, ?poisoned, ?release, ?mismatch,
    fun _ _ _ _ _ => congrArg Host.Outcome.next (if_pos (.inr rfl))⟩
  case commit =>
    intro q bytes mark tag s c d hq hc hdisc hw
    rw [exec_packetCommit hq hc, hdisc, hw]
    rfl
  case commitEmpty =>
    intro q bytes mark tag s c hq hc hdisc hw
    rw [exec_packetCommit hq hc, hdisc, hw]
    rfl
  case commitLost =>
    intro q bytes mark tag s c hq hc hdisc
    rw [exec_packetCommit hq hc, if_pos hdisc]
  case abortLost =>
    intro q s c hq hc hdisc
    rw [exec_packetAbort hq hc, if_pos hdisc]
  case abort =>
    intro q s c hq hc hdisc hw
    rw [exec_packetAbort hq hc, if_neg (ne_true_of_eq_false hdisc), if_pos hw]
  case abortNone =>
    intro q s c hq hc hdisc hw
    rw [exec_packetAbort hq hc, hdisc, hw]
    rfl
  case wordStored =>
    rintro q unit s c x hq hc rfl hheld hroom
    rw [exec_queueUnitWrite_crossing hq hc, decide_eq_false (not_le.mpr hroom), qWord_stores hq hheld hroom]
    rfl
  case wordFull =>
    rintro q unit s c x hq hc rfl hheld hfull
    have hlost : (decide (c.size ≤ qUsed c.size (getQ s q.toNat)) && c.drop && !(getQ s q.toNat).heldR291) = c.drop := by
      rw [decide_eq_true hfull, hheld, Bool.true_and, Bool.not_false, Bool.and_true]
    rw [exec_queueUnitWrite_crossing hq hc, hlost, qWord_full hq hheld hfull]
    cases c.drop <;> rfl
  case unitStored =>
    rintro q unit s c x hq hc rfl hdisc hheld hroom
    rw [exec_queueUnitWrite_packet hq hc, unitPacket_stores hdisc hheld rfl hroom]
  case unitFull =>
    rintro q unit s c x hq hc rfl hdisc hheld hfull
    rw [exec_queueUnitWrite_packet hq hc, unitPacket_full hdisc hheld rfl hfull]
  case word =>
    rintro q pos s c x w rest hq hc rfl hwords
    exact exec_queueConsumerRead_word hq hc hwords
  case underrun =>
    rintro q pos s c x hq rfl hempty
    exact exec_queueConsumerRead_empty hq hempty
  case readAt =>
    intro q pos s c p hq hc hr hfind hclean
    have hpkts : (getQ s q.toNat).pkts ≠ [] := List.ne_nil_of_mem (List.mem_of_find?_eq_some hfind)
    rw [exec_queueConsumerRead_packet hq hc hpkts, if_pos hr, qReadAt_found hfind, Option.elim_some,
      if_neg (ne_true_of_eq_false hclean)]
  case readAtNone =>
    rintro q pos s c x hq hc hr rfl hpkts hnone
    rw [exec_queueConsumerRead_packet hq hc hpkts, if_pos hr, qReadAt_missing hnone, Option.elim_none]
  case pop =>
    rintro q pos s c x p rest hq hc hr rfl hpkts hclean
    rw [exec_queueConsumerRead_packet hq hc (by rw [hpkts]; exact List.cons_ne_nil p rest),
      if_neg (ne_true_of_eq_false hr), qPop_cons hpkts, Option.elim_some, if_neg (ne_true_of_eq_false hclean)]
  case poisoned =>
    intro q pos s c p hq hc hpkts hfind hpoison
    obtain ⟨t, ht⟩ := exists_read_of_found hfind
    rw [exec_queueConsumerRead_packet hq hc hpkts, ht, Option.elim_some, if_pos hpoison, queueReset]
  case release =>
    rintro q pos s c x r hq hr rfl rfl
    rw [exec_packetRelease hq hr, qRelease]
  case mismatch =>
    intro q side ptr a b s c hq hab
    rw [exec_queuePointerMismatch hq hab, queueReset]

end Sys2Proof.Machine
end

section
/-!
PROOF. What every step keeps of the life cycle and of the deferred commands (14 R399, 17 R474 to R477): instances of the walk
through the model, and the one command that burns a record.
-/
namespace Sys2Proof.Machine

variable {s t : State}

/-- At most one deferred command on each FUNC, and at most 32 in all (14 R399). -/
def deferLimits : StepInv where
  holds _ _ _ _ d := d.length ≤ 32 ∧ (d.map fun e : Deferred => e.req.func).Nodup
  putObj h _ _ := h
  dropObj h _ := h
  putByte h _ _ := h
  dropByte h _ := h
  defer := by
    rintro _ _ _ _ d ⟨-, hfuncs⟩ x hnew hroom
    refine ⟨by simpa using hroom, ?_⟩
    rw [List.map_append, List.nodup_append']
    exact ⟨hfuncs, List.nodup_singleton _, by simpa using hnew⟩
  drop h p := ⟨(List.length_filter_le p _).trans h.1, h.2.sublist (List.filter_sublist.map _)⟩
  accept h _ _ _ := h
  reset _ := ⟨Nat.zero_le _, List.nodup_nil⟩
  putBack h _ := h

theorem deferLimits_survivesBurn : deferLimits.SurvivesBurn := fun _ _ _ _ _ _ => ⟨Nat.zero_le _, List.nodup_nil⟩

theorem deferWithin_iff_holds : deferWithin s = true ↔ Holds deferLimits.toInv s := by
  simp [deferWithin, Holds, deferLimits]

/-- Settles O7: R399 turns away a command that would exceed a limit, and every other change of the deferred commands drops some. -/
theorem deferredCommandsStayWithinLimits : Obligations.DeferredCommandsStayWithinLimits := by
  unfold Obligations.DeferredCommandsStayWithinLimits
  intro s t h ht
  exact deferWithin_iff_holds.mpr (step_next_keeps deferLimits_survivesBurn (deferWithin_iff_holds.mp h) ht)

/-- A path of the table goes on with every transition that the table allows from its end. -/
theorem lcPath_append {b : Fin 5} : ∀ {l : List (Fin 5)} {a : Nat}, lcPath a l = true →
    lcAllowed (match l.getLast? with | some x => x.val | none => a) b.val = true → lcPath a (l ++ [b]) = true
  | [], _, _, hb => by simpa [lcPath] using hb
  | [x], a, hl, hb => by simpa [lcPath] using ⟨by simpa [lcPath] using hl, hb⟩
  | x :: y :: l, a, hl, hb => by
    obtain ⟨hx, hl⟩ := Bool.and_eq_true_iff.mp hl
    refine Bool.and_eq_true_iff.mpr ⟨hx, lcPath_append hl ?_⟩
    rw [List.getLast?_cons_cons] at hb
    cases hlast : (y :: l).getLast? with
    | none => simp at hlast
    | some z => rwa [hlast] at hb

/-- The records are a path of the table of 17 R475 from FACTORY that fits the 32 fuses, the last of which only LC_RETIRE uses;
an accepted transition is one of the table for which there is room. -/
def lifeCycleSound : StepInv where
  holds _ _ l n _ := lcPath 0 l = true ∧ l.length ≤ (if stateAfter l = 4 then 32 else 31) ∧
    ∀ b ∈ n, lcAllowed (stateAfter l) b.val = true ∧ (b = 4 ∨ l.length ≤ 30)
  putObj h _ _ := h
  dropObj h _ := h
  putByte h _ _ := h
  dropByte h _ := h
  defer h _ _ _ := h
  drop h _ := h
  accept h b hb hroom := ⟨h.1, h.2.1, by rintro _ ⟨⟩; exact ⟨hb, hroom⟩⟩
  reset h := ⟨h.1, h.2.1, nofun⟩
  putBack h _ := h

/-- RETIRED has no transition, so that one accepted finds a fuse free (17 R476). -/
theorem lifeCycleSound_survivesBurn : lifeCycleSound.SurvivesBurn := by
  rintro _ _ l b _ ⟨hpath, hfit, hnext⟩
  obtain ⟨hallowed, hroom⟩ := hnext b rfl
  have halive : stateAfter l ≠ 4 := fun h => by simp [lcAllowed, h] at hallowed
  rw [if_neg halive] at hfit
  refine ⟨lcPath_append hpath hallowed, ?_, nofun⟩
  have hafter : stateAfter (l ++ [b]) = b.val := by simp [stateAfter]
  rw [hafter, List.length_append, List.length_singleton]
  rcases hroom with rfl | hroom
  · rw [if_pos (by rfl)]; omega
  · split <;> omega

theorem lifeSound_iff_holds : lifeSound s = true ↔ Holds lifeCycleSound.toInv s := by
  simp only [lifeSound, lifeCycle_eq_stateAfter, Bool.and_eq_true, Holds, lifeCycleSound, and_assoc]
  refine and_congr_right' (and_congr decide_eq_true_iff ?_)
  cases s.pw.lcNext with
  | none => simp
  | some b =>
    simp only [Option.mem_some_iff, forall_eq']
    simp [Fin.ext_iff]

/-- Settles O4: the five requests accept only transitions of the table that the fuses have room for, and the commit burns the
accepted one. -/
theorem lifeCycleStaysSound : Obligations.LifeCycleStaysSound := by
  unfold Obligations.LifeCycleStaysSound
  intro s t h ht
  exact lifeSound_iff_holds.mpr (step_next_keeps lifeCycleSound_survivesBurn (lifeSound_iff_holds.mp h) ht)

/-- The life-cycle records stay those of a list. -/
def recordsAre (l : List (Fin 5)) : StepInv where
  holds _ _ k _ _ := k = l
  putObj h _ _ := h
  dropObj h _ := h
  putByte h _ _ := h
  dropByte h _ := h
  defer h _ _ _ := h
  drop h _ := h
  accept h _ _ _ := h
  reset h := h
  putBack h _ := h

/-- 17 R477: the commit leaves the records, or appends the transition that was accepted. -/
theorem lifeCycleCommit_records {f : ResetFindings} (ht : exec (.lifeCycleCommit f) s = .next t) :
    t.fuse.records = s.fuse.records ∨ ∃ n, s.pw.lcNext = some n ∧ t.fuse.records = s.fuse.records ++ [n] := by
  have hends : Host.Outcome.next t = execLifeCycleCommit f s := ht.symm
  unfold execLifeCycleCommit at hends
  rw [Host.Outcome.next.injEq] at hends
  subst hends
  split
  · exact .inl rfl
  · rename_i n hn
    extract_lets old _ _ s1 s2 s3
    have h3 : Holds (recordsAre (s.fuse.records ++ [n])).toInv s3 :=
      setPw_keeps (fun _ => rfl) (when_keeps (fun h => wipeKeys_keeps (revokeKek_keeps h)) rfl)
    clear_value s3
    split
    · exact .inl rfl
    · exact .inr ⟨n, hn, wholeReset_keeps (freshen_keeps (beginReset_keeps h3))⟩

/-- Settles O5: every other command keeps the records whatever they are. -/
theorem onlyTheCommitBurnsARecord : Obligations.OnlyTheCommitBurnsARecord := by
  unfold Obligations.OnlyTheCommitBurnsARecord
  refine ⟨fun c s t ht hc => ?_, fun f s t => lifeCycleCommit_records⟩
  have h : Ends (recordsAre s.fuse.records).toInv (exec c s) := exec_keeps hc rfl
  rwa [ht] at h

end Sys2Proof.Machine
end

section
/-!
PROOF. Every request row runs the one flow of requests (14 R387); RETIRED refuses all but five (17 R474), and the five life-cycle
commands check their word, their transport and their conditions (17 R475).
-/
namespace Sys2Proof.Machine

section flow

variable {op : Nat} {r : Req} {s : State}

/-- A PARAM_READ runs the flow of requests. -/
theorem readParams_execReq (r : Req) (s : State) :
    ∃ okFunc bad down body, Host.Outcome.next (φ := Fault) (ρ := Refusal) (readParams r s) =
      .next (execReq 0x101 r okFunc bad down body s) := by
  unfold readParams
  exact ⟨_, _, _, _, rfl⟩

/-- So do a PARAM_WRITE and a PARAM_MODIFY. -/
theorem writeParams_execReq (modify : Bool) (r : Req) (s : State) :
    ∃ okFunc bad down body, Host.Outcome.next (φ := Fault) (ρ := Refusal) (writeParams modify r s) =
      .next (execReq (if modify then 0x103 else 0x102) r okFunc bad down body s) := by
  unfold writeParams
  exact ⟨_, _, _, _, rfl⟩

/-- 14 R403: every request row runs the flow of requests under its opcode. -/
theorem requestRow_execReq {c : Instr} (hc : RequestRow r op c) (s : State) :
    ∃ okFunc bad down body, exec c s = .next (execReq op r okFunc bad down body s) := by
  revert hc
  simp only [RequestRow, List.mem_append, List.mem_cons, List.not_mem_nil, or_false, or_imp, Prod.mk.injEq]
  refine ⟨⟨⟨?ping, ?identify, ?read, ?write, ?modify, ?rcRead, ?tbRead, ?others⟩, ?second⟩, ?third⟩
  case read | rcRead | tbRead =>
    rintro ⟨rfl, rfl⟩
    exact readParams_execReq r s
  case write =>
    rintro ⟨rfl, rfl⟩
    exact writeParams_execReq false r s
  case modify =>
    rintro ⟨rfl, rfl⟩
    exact writeParams_execReq true r s
  all_goals
    and_intros
    all_goals
      rintro ⟨rfl, rfl⟩
      exact ⟨_, _, _, _, rfl⟩

/-- The three statuses with which RETIRED turns a request away (steps 8 to 10 of 14 R387). -/
theorem execReq_retired_refuses {okFunc down : Bool} {bad : Option Nat} {body : State → Ans} (ha : accepting s = true)
    (h4 : lifeCycle s = 4) (hop : op ∉ retiredOps) : ∃ st d, st ∈ [stBadFunc, stBadLength, stNotInState]
      ∧ execReq op r okFunc bad down body s = sendReply op r st (beBytes 4 d) (takeMgmt op r s) := by
  cases okFunc with
  | false => exact ⟨_, _, by simp, execReq_badFunc ha r bad down body⟩
  | true =>
    cases bad with
    | some d => exact ⟨_, _, by simp, execReq_badLength ha r down body⟩
    | none => exact ⟨_, _, by simp, execReq_retired ha h4 hop r down body⟩

end flow

/-- A life-cycle command reads the strap, unless the test port holds the pins, and then runs the flow of requests. -/
theorem lcRequest_retired {r : Req} {low : Bool} {s u : State} {op : Nat} {new : Fin 5} {ok : State → Bool}
    (hu : u = if tapHold s then s else setPw (fun p => { p with svcLow := low }) s) (ha : accepting u = true)
    (h4 : lifeCycle u = 4) (hop : op ∉ retiredOps) : ∃ st d, st ∈ [stBadFunc, stBadLength, stNotInState]
      ∧ lcRequest op new r low ok s = sendReply op r st (beBytes 4 d) (takeMgmt op r u) := by
  unfold lcRequest
  rw [← hu]
  exact execReq_retired_refuses ha h4 hop

/-- Settles O8: every request runs the one flow, which refuses it in RETIRED before its body. -/
theorem retiredRefusesRequests : Obligations.RetiredRefusesRequests := by
  unfold Obligations.RetiredRefusesRequests
  refine ⟨?rows, ?lifeCycle⟩
  case rows =>
    intro r s op c ha h4 hc hop
    obtain ⟨okFunc, bad, down, body, hexec⟩ := requestRow_execReq hc s
    rw [hexec]
    obtain ⟨st, d, hst, hreply⟩ := execReq_retired_refuses (r := r) (okFunc := okFunc) (bad := bad) (down := down)
      (body := body) ha h4 hop
    exact ⟨st, d, hst, congrArg Host.Outcome.next hreply⟩
  case lifeCycle =>
    rintro r low s u p hu ha h4 hp
    have refused {op : Nat} (new : Fin 5) (ok : State → Bool) (hop : op ∉ retiredOps) :
        ∃ st d, st ∈ [stBadFunc, stBadLength, stNotInState] ∧ Host.Outcome.next (φ := Fault) (ρ := Refusal)
          (lcRequest op new r low ok s) = .next (sendReply op r st (beBytes 4 d) (takeMgmt op r u)) := by
      obtain ⟨st, d, hst, hreply⟩ := lcRequest_retired (new := new) (ok := ok) hu ha h4 hop
      exact ⟨st, d, hst, congrArg Host.Outcome.next hreply⟩
    revert p
    simp only [List.forall_mem_cons, List.not_mem_nil, false_imp_iff, implies_true, and_true]
    exact ⟨refused 1 _ (by decide), refused 2 _ (by decide), refused 3 _ (by decide), refused 2 _ (by decide),
      refused 4 _ (by decide)⟩

section lifeCycle

variable {op : Nat} {r : Req} {s u : State} {low : Bool} {new : Fin 5} {ok : State → Bool}

/-- 17 R475: another confirmation word than ID_EUI_LO is refused at its offset. -/
theorem lcRequest_wrongWord (hu : u = if tapHold s then s else setPw (fun p => { p with svcLow := low }) s)
    (ha : accepting u = true) (hf : r.func = 0) (hn : r.params.length = 4)
    (hword : beAt r.params 0 4 ≠ Config.eui.toNat % 2 ^ 32) :
    lcRequest op new r low ok s = sendReply op r stBadLength (beBytes 4 0) (takeMgmt op r u) := by
  have hbad : lenAnd r 4 (chk (beAt r.params 0 4 == Config.eui.toNat % 2 ^ 32) 0) = some 0 := by
    rw [lenAnd, if_pos hn, chk, if_neg (by simpa using hword)]
  unfold lcRequest
  rw [← hu, hf, hbad]
  exact execReq_badLength ha r false _

/-- 17 R475: with the right word, a request whose conditions are not met is refused. -/
theorem lcRequest_notMet (hu : u = if tapHold s then s else setPw (fun p => { p with svcLow := low }) s)
    (ha : accepting u = true) (hf : r.func = 0) (hn : r.params.length = 4)
    (hword : beAt r.params 0 4 = Config.eui.toNat % 2 ^ 32) (hop : op ∉ retiredOps)
    (hok : lifeCycle u ≠ 4 → ok (takeMgmt op r u) = false) :
    lcRequest op new r low ok s = sendReply op r stNotInState (beBytes 4 noField) (takeMgmt op r u) := by
  have hbad : lenAnd r 4 (chk (beAt r.params 0 4 == Config.eui.toNat % 2 ^ 32) 0) = none :=
    lenAnd_chk_none hn (beq_iff_eq.mpr hword)
  unfold lcRequest
  rw [← hu, hf, hbad]
  by_cases h4 : lifeCycle u = 4
  · exact execReq_retired ha h4 hop r false _
  · refine execReq_replies ⟨ha, fun h => absurd h h4⟩ rfl rfl rfl ?_
    rw [hok h4, Bool.not_false, Bool.or_true, if_pos rfl, refuse]

/-- Taking a request from its queue leaves the power side of the state. -/
@[simp] theorem takeMgmt_pw (op : Nat) (r : Req) (s : State) : (takeMgmt op r s).pw = s.pw := by
  obtain ⟨_, _, _, _, _, h, _⟩ := takeMgmt_frame op r s
  rw [h]

/-- Whether a KEK may be used is a matter of the fuses. -/
@[simp] theorem takeMgmt_kekOk (op g : Nat) (r : Req) (s : State) : kekOk (takeMgmt op r s) g = kekOk s g := by
  unfold kekOk
  rw [takeMgmt_fuse]

end lifeCycle

/-- Settles O9, by the two checks that every life-cycle command makes. -/
theorem lifeCycleCommandsAreConfirmed : Obligations.LifeCycleCommandsAreConfirmed := by
  unfold Obligations.LifeCycleCommandsAreConfirmed
  refine ⟨?word, ?conditions⟩
  case word =>
    rintro r low s u p hu ha hf hn hword hp
    have refused (op : Nat) (new : Fin 5) (ok : State → Bool) : Host.Outcome.next (φ := Fault) (ρ := Refusal)
        (lcRequest op new r low ok s) = .next (sendReply op r stBadLength (beBytes 4 0) (takeMgmt op r u)) :=
      congrArg Host.Outcome.next (lcRequest_wrongWord hu ha hf hn hword)
    revert p
    simp only [List.forall_mem_cons, List.not_mem_nil, false_imp_iff, implies_true, and_true]
    exact ⟨refused .., refused .., refused .., refused .., refused ..⟩
  case conditions =>
    rintro r low s u p hu ha hf hn hword hp
    have refused {op : Nat} (new : Fin 5) (ok : State → Bool) (hop : op ∉ retiredOps)
        (hok : lifeCycle u ≠ 4 → ok (takeMgmt op r u) = false) : Host.Outcome.next (φ := Fault) (ρ := Refusal)
        (lcRequest op new r low ok s) = .next (sendReply op r stNotInState (beBytes 4 noField) (takeMgmt op r u)) :=
      congrArg Host.Outcome.next (lcRequest_notMet hu ha hf hn hword hop hok)
    revert p
    simp only [List.forall_mem_cons, List.not_mem_nil, false_imp_iff, implies_true, and_true]
    refine ⟨fun h => refused 1 _ (by decide) fun _ => ?_, fun h => refused 2 _ (by decide) fun _ => ?_,
      fun h => refused 3 _ (by decide) fun _ => ?_, fun h => refused 2 _ (by decide) fun _ => ?_,
      fun h => refused 4 _ (by decide) fun alive => ?_⟩
    · simpa using h
    · simpa using h
    · simpa using h
    · simpa using h
    · simpa [alive] using h

end Sys2Proof.Machine
end

section
/-!
PROOF. Command packets (14 R384, R385), and what begins a reset, what waits for it and the reset itself (17 R456, R460, R472; 20
R511).
-/
namespace Sys2Proof.Machine

theorem length_beBytes (n v : Nat) : (beBytes n v).length = n := by
  induction n with
  | zero => rfl
  | succ n ih => rw [beBytes, List.length_cons, ih]

/-- Settles O14: the check value is computed, and a packet is its layout followed by the CRC of it. -/
theorem commandPacketCarriesItsCrc : Obligations.CommandPacketCarriesItsCrc := by
  unfold Obligations.CommandPacketCarriesItsCrc
  refine ⟨by decide +kernel, fun op tag dest func status esn params => ⟨_, rfl, rfl, ?_⟩⟩
  simp only [List.length_append, length_beBytes, List.length_cons, List.length_nil]

/-- Settles O16, command by command. -/
theorem supplyPinAndThermalResets : Obligations.SupplyPinAndThermalResets := by
  unfold Obligations.SupplyPinAndThermalResets
  refine ⟨?powerOn, ?brownout, ?brownoutHot, ?resetN, ?glitch, ?clocks, ?reset, ?devReset, ?shutdown, ?recovery,
    ?recoveryNoSupply⟩
  case powerOn => exact fun s => ⟨_, rfl, rfl, rfl, rfl, rfl, rfl, rfl, rfl, rfl, rfl⟩
  case brownout => exact fun rail s h => congrArg Host.Outcome.next (if_neg h)
  case brownoutHot => exact fun rail s h => congrArg Host.Outcome.next (if_pos h)
  case resetN =>
    intro n s hn hpins hphase
    change execResetNLow n s = _
    simp only [execResetNLow]
    simp [hpins, hphase, hn, show ¬ n ≤ 1000 by omega, show ¬ n < 2000 by omega]
  case glitch =>
    intro n s hn
    change execResetNLow n s = _
    simp [execResetNLow, hn, show ¬ 1000 < n by omega]
  case clocks => exact fun s h => congrArg Host.Outcome.next (if_pos h)
  case reset => exact fun f s h => congrArg Host.Outcome.next (if_pos h)
  case devReset =>
    intro f s hrun hsoon
    exact congrArg Host.Outcome.next ((if_neg (by rw [hrun]; decide)).trans (if_pos ⟨hrun, hsoon⟩))
  case shutdown =>
    intro s h
    exact congrArg Host.Outcome.next (if_neg fun hnot => h.elim hnot.1 hnot.2)
  case recovery =>
    intro s hphase hcause
    exact congrArg Host.Outcome.next ((if_pos hphase).trans (by rw [if_neg (by omega)]))
  case recoveryNoSupply =>
    intro s hphase hcause
    exact congrArg Host.Outcome.next ((if_pos hphase).trans (by rw [if_pos hcause]))

end Sys2Proof.Machine
end

section
/-!
PROOF. The Cloche (11 R307 to R332): its engines, jobs and random sources by the cases of each command, and its requests by the
answers of their bodies.
-/
namespace Sys2Proof.Machine

section engines

variable {e : Fin 16} {s t u : State}

/-- R318, R319: a host job samples its key and its counter, and is loaded. -/
theorem exec_clocheJobAssign_host {r : Req} {key nonce : Bytes} (hup : clocheUp s = true) (hfree : engFree s e.val = true)
    (hredo : s.clo.redo = []) (hpick : pickJob s = some (.host r))
    (hjob : sampleJob (specOf r.params) 1 (setClo (fun c => { c with lastReq := 0 }) (takeJob (.host r) s))
      = (u, .inr (key, nonce))) :
    exec (.clocheJobAssign e) s = .next (engLoad e.val (.host r) key nonce [] u) := by
  change execClocheJobAssign e s = _
  simp only [execClocheJobAssign, hup, hfree, hredo, hpick, Bool.not_true, Bool.or_self, Bool.false_eq_true, if_false,
    isLinkJob, jobWho, hjob]

/-- R231 of 08, R318: a downlink frame is loaded with its node's or the network's key and the next FC. -/
theorem exec_clocheJobAssign_link {id k fc : Nat} (hup : clocheUp s = true) (hfree : engFree s e.val = true)
    (hredo : s.clo.redo = []) (hpick : pickJob s = some (.link id)) (ht : t = takeJob (.link id) s)
    (hkey : (t.lk.tx.find? (fun f => f.id == id)).bind (txKey t) = some k) (hclass : kClass t k = 1 ∨ kClass t k = 2)
    (hctr : reserveCtr k t = (u, some fc)) :
    exec (.clocheJobAssign e) s =
      .next (engLoad e.val (.link id) (keyBytes t k) (linkNonce Config.eui.toNat fc) [] u) := by
  have hsame : setClo (fun c => { c with lastReq := c.lastReq }) (takeJob (.link id) s) = t := ht.symm
  have hlink : ¬ (kClass t k ≠ 1 ∧ kClass t k ≠ 2) := fun h => hclass.elim h.1 h.2
  change execClocheJobAssign e s = _
  simp only [execClocheJobAssign, hup, hfree, hredo, hpick, Bool.not_true, Bool.or_self, Bool.false_eq_true, if_false,
    isLinkJob, if_true, hsame, hkey, if_neg hlink, hctr]

/-- R319, R328: a core's job is loaded with its descriptor; PROGRESS counts from zero, and STATUS says that it runs. -/
theorem exec_clocheJobAssign_core {n a : Nat} {key nonce : Bytes} (hup : clocheUp s = true) (hfree : engFree s e.val = true)
    (hredo : s.clo.redo = []) (hpick : pickJob s = some (.core n a))
    (ht : t = setClo (fun c => { c with lastReq := 1 }) (takeJob (.core n a) s)) (hok : coreRefused t n a = none)
    (hjob : sampleJob (specOf (memRead t a 48)) 2 t = (u, .inr (key, nonce))) :
    exec (.clocheJobAssign e) s = .next (engLoad e.val (.core n a) key nonce (memRead u a 48)
      (memSetNat (a + 44) 2 0xFFFF (memSetNat (a + 40) 4 0 u))) := by
  change execClocheJobAssign e s = _
  simp only [execClocheJobAssign, hup, hfree, hredo, hpick, Bool.not_true, Bool.or_self, Bool.false_eq_true, if_false,
    isLinkJob, jobWho, ← ht, hok, hjob]

/-- R309: a source that serves fails a test; a second failure within 1 s disables it. -/
theorem trngFails_serving {src test : Nat} (hst : trngSt s src ≠ 2) (hd : funcDown s 0x50 = false) :
    trngFails src test s = raise 42 0x50 .trngFail (beBytes 1 src ++ beBytes 1 test)
      (setTrng src (if trngAgain s src then 2 else 1)
        (setClo (fun c => { c with trngAt := vSet c.trngAt src (some s.clk.tb) }) s)) :=
  if_neg (by simp [hst, hd])

/-- R310, R311: what a source delivers of its 768 bits decides the reseed. -/
theorem exec_drbgReseed {src : Fin 2} {raw : Bytes} (hst : trngSt s src.val ≠ 2) (hlive : drbgDead s = false)
    (hd : funcDown s 0x50 = false) (hraw : raw.length = 96) (hfresh : rawFresh src.val s = true) :
    exec (.drbgReseed src raw) s = .next (match healthTest (bitsOfBytes raw) with
      | some test => trngFails src.val test s
      | none => setTrng src.val 0 (setDrbg (drbgUpdate (drbgSeed raw) (drbgOf s)) 0 s)) :=
  congrArg Host.Outcome.next (if_neg (by simp [hst, hlive, hd, hraw, hfresh]))

/-- R310, R312, R314: the Cloche starts with 768 raw bits that pass their tests, and draws its store mask if it is due. -/
theorem clocheStarts_passes {src : Nat} {raw : Bytes} (hst : trngSt s src ≠ 2) (hraw : raw.length = 96)
    (hfresh : rawFresh src s = true) (hpass : healthTest (bitsOfBytes raw) = none)
    (ht : t = setTrng src 0 (setDrbg (drbgUpdate (drbgSeed raw) (0, 0)) 0 s)) :
    clocheStarts src raw s = (if t.clo.drawMask then drawMask t else t, true) := by
  subst ht
  simp only [clocheStarts, hst, hraw, hfresh, hpass, ne_eq, not_true_eq_false, Bool.not_true, Bool.false_eq_true, or_self,
    if_false]

end engines

/-- Settles O32, command by command. That TRNG_FAIL codes a failure before CLOCHE_READY as one of the start-up test (log 145) and
the entropy input of 96 bytes and the count that DRBG_HALT brings (log 131) are the model's own choices. -/
theorem clocheEngineCommands : Obligations.ClocheEngineCommands := by
  unfold Obligations.ClocheEngineCommands
  refine ⟨?redo, ?host, ?link, ?core, ?hostDone, ?linkDone, ?coreDone, ?fault, ?katFails, fun _ _ => rfl, ?trngFail, ?reseed,
    ?reseedFails, ?halt, ?starts, fun _ _ ht => ht ▸ rfl⟩
  case redo =>
    intro e s r rest hup hfree hredo
    change execClocheJobAssign e s = _
    simp only [execClocheJobAssign, hup, hfree, hredo, Bool.not_true, Bool.or_self, Bool.false_eq_true, if_false]
  case host =>
    rintro e s r j t key nonce u hup hfree hredo hpick rfl rfl hjob
    exact exec_clocheJobAssign_host hup hfree hredo hpick hjob
  case link =>
    rintro e s id j t k u fc hup hfree hredo hpick rfl ht hkey hclass hctr
    exact exec_clocheJobAssign_link hup hfree hredo hpick ht hkey hclass hctr
  case core =>
    rintro e s n a j t key nonce u hup hfree hredo hpick rfl ht hok hjob
    exact exec_clocheJobAssign_core hup hfree hredo hpick ht hok hjob
  case hostDone =>
    rintro e s r q o hup hrun hjob rfl
    change execClocheJobComplete e s = _
    simp only [execClocheJobComplete, hup, hrun, hjob, Bool.not_true, Bool.false_eq_true, if_false]
  case linkDone =>
    intro e s r id hup hrun hjob
    change execClocheJobComplete e s = _
    simp only [execClocheJobComplete, hup, hrun, hjob, Bool.not_true, Bool.false_eq_true, if_false]
  case coreDone =>
    intro e s r n a hup hrun hjob
    change execClocheJobComplete e s = _
    simp only [execClocheJobComplete, hup, hrun, hjob, Bool.not_true, Bool.false_eq_true, if_false]
  case fault => exact fun e kat s hst hd => congrArg Host.Outcome.next (if_neg (by simp [hst, hd]))
  case katFails => exact fun e s hfree => congrArg Host.Outcome.next (if_neg (by simp [hfree]))
  case trngFail =>
    rintro src bits test s t hbits hst hd rfl
    change execTrngFail src bits s = _
    rw [execTrngFail, hbits]
    exact congrArg Host.Outcome.next (trngFails_serving hst hd)
  case reseed =>
    intro src raw s hst hlive hd hraw hfresh hpass
    rw [exec_drbgReseed hst hlive hd hraw hfresh, hpass]
  case reseedFails =>
    intro src raw s test hst hlive hd hraw hfresh hfail
    rw [exec_drbgReseed hst hlive hd hraw hfresh, hfail]
  case halt =>
    rintro n s t rfl
    rfl
  case starts =>
    intro src raw s t hready hd hrun hraw hst hfresh hpass ht
    change execClocheReady src raw s = _
    simp only [execClocheReady, hready, hd, hrun, clocheStarts_passes hst hraw hfresh hpass ht, ne_eq, not_true_eq_false,
      Bool.false_eq_true, or_self, if_false, if_true]

section clocheRequest

variable {op : Nat} {r : Req} {s t : State}

/-- 14 R387, R398: a served request whose body holds it leaves what the body leaves, and answers nothing yet. -/
theorem execReq_holds {okFunc down : Bool} {bad : Option Nat} {body : State → Ans} (hs : Serves op s) (hf : okFunc = true)
    (hbad : bad = none) (hd : down = false) (hb : body (takeMgmt op r s) = .hold t) :
    execReq op r okFunc bad down body s = t := by
  rw [hf, hbad, hd, execReq_runs hs, hb]

/-- R312: from CLOCHE_READY on a command does not wait for it. -/
theorem whenReady_ready (hready : objF t 0x50 0x800 31 31 ≠ 0) (body : State → Ans) : whenReady op r body t = body t :=
  if_neg hready

end clocheRequest

/-- Settles O54, request by request: what remains of each is the answer of its body. That a CRYPT which finds an engine free is
answered at once (log 50), and that KEY_RESTORE takes its slot from the header (logs 51 and 108), are the model's own readings. -/
theorem clocheRequests : Obligations.ClocheRequests := by
  unfold Obligations.ClocheRequests
  refine ⟨?cryptWaits, ?crypt, ?rng, ?rngWaits, ?kekLoad, ?unwrap, ?save, ?restore, ?erase, ?info, ?test⟩
  case cryptWaits =>
    rintro r s t j hs rfl hf hn hd rfl hop hlens hlen hnone
    refine congrArg Host.Outcome.next (execReq_holds hs (beq_iff_eq.mpr hf) (if_neg (not_lt.mpr hn)) hd ?_)
    simp only [hop, hlens, ← hlen, hnone, Bool.not_true, Bool.false_eq_true, ne_eq, not_true_eq_false, or_self, if_false]
  case crypt =>
    rintro r s t j e u key nonce o hs rfl hf hn hd rfl hop hlens hlen hfree hjob rfl
    refine congrArg Host.Outcome.next (execReq_replies hs (beq_iff_eq.mpr hf) (if_neg (not_lt.mpr hn)) hd ?_)
    simp only [hop, hlens, ← hlen, hfree, hjob, Bool.not_true, Bool.false_eq_true, ne_eq, not_true_eq_false, or_self,
      if_false]
  case rng =>
    rintro r s t n hs rfl hf hlen rfl hn hd hready hlive
    refine congrArg Host.Outcome.next (execReq_replies hs (beq_iff_eq.mpr hf) (lenAnd_chk_none hlen (decide_eq_true hn)) hd ?_)
    simp only [whenReady_ready hready, rngAns, hlive, Bool.false_eq_true, if_false]
  case rngWaits =>
    rintro r s t hs rfl hf hlen hn hd hready
    exact congrArg Host.Outcome.next
      (execReq_holds hs (beq_iff_eq.mpr hf) (lenAnd_chk_none hlen (decide_eq_true hn)) hd (if_pos hready))
  case kekLoad =>
    rintro r s t g hs rfl hf hlen hd hlc rfl hg
    refine congrArg Host.Outcome.next (execReq_replies hs (beq_iff_eq.mpr hf) (lenIs_none hlen) hd ?_)
    have hstate : ¬ (lifeCycle (takeMgmt 0x803 r s) ≠ 0 ∧ lifeCycle (takeMgmt 0x803 r s) ≠ 3) :=
      fun h => hlc.elim h.1 h.2
    simp only [if_neg hstate, if_neg (not_lt.mpr hg)]
  case unwrap =>
    rintro r s t n u d hs rfl hf hlen hd hready rfl hlife hkek hfree rfl hauth rfl hbig hfits
    refine congrArg Host.Outcome.next (execReq_replies hs (beq_iff_eq.mpr hf) (lenIs_none hlen) hd ?_)
    have hwide := decide_eq_false (not_lt.mpr hbig)
    simp only [whenReady_ready hready, unwrapAns, hlife, hkek, beq_eq_false_iff_ne.mpr hfree, hauth, hfits, hwide,
      Bool.not_true, Bool.or_self, Bool.false_eq_true, if_false]
  case save =>
    rintro r s t n u d hs rfl hf hlen hd hready rfl hlife hkek hfree hused rfl rfl
    refine congrArg Host.Outcome.next (execReq_replies hs (beq_iff_eq.mpr hf) (lenIs_none hlen) hd ?_)
    simp only [whenReady_ready hready, saveAns, hlife, hkek, beq_eq_false_iff_ne.mpr hfree, hused, Bool.not_true,
      Bool.or_self, Bool.false_eq_true, if_false]
  case restore =>
    rintro r s t g n u d c hs rfl hf hlen hd hready rfl rfl hlife hkek rfl hauth rfl rfl hfits
    refine congrArg Host.Outcome.next (execReq_replies hs (beq_iff_eq.mpr hf) (lenIs_none hlen) hd ?_)
    simp only [whenReady_ready hready, restoreAns, hlife, hkek, hauth, hfits, Bool.not_true, Bool.false_eq_true, if_false]
  case erase =>
    rintro r s t n u hs rfl hf hlen hd rfl hlife hfree rfl
    refine congrArg Host.Outcome.next (execReq_replies hs (beq_iff_eq.mpr hf) (lenIs_none hlen) hd ?_)
    simp only [hlife, beq_eq_false_iff_ne.mpr hfree, Bool.not_true, Bool.or_self, Bool.false_eq_true, if_false]
  case info =>
    rintro r s t n hs rfl hf hlen hd rfl hfree
    exact congrArg Host.Outcome.next (execReq_replies hs (beq_iff_eq.mpr hf) (lenIs_none hlen) hd (if_neg hfree))
  case test =>
    rintro r s t e hs rfl hf hp hd rfl hrule
    exact congrArg Host.Outcome.next (execReq_defers hs hf (lenIs_none (by simp [hp])) hd (deferIf_defers hrule ..))

end Sys2Proof.Machine
end

section
/-!
PROOF. The backhaul (12): Virer frames, lane states and the alignment hunt (R334, R340, R341, R346, R355), Graft frames, packets and
performance bins (R351, R353, R358, R359), and the requests on them.
-/
namespace Sys2Proof.Machine

section lane

variable {lane : Fin 8} {pos : Nat} {s : State}

theorem length_polarity (inv : Bool) (b : Bytes) : (polarity inv b).length = b.length := by
  cases inv <;> simp [polarity]

/-- R334, R341 to R343: a whole frame of a lane that is on crosses through the lane's queue, and goes to the alignment or to the
candidate at its position. -/
theorem exec_virerFrameReceive {bytes w : Bytes} {y : State × List Nat} (hon : laneOn s lane.val = true)
    (hlen : bytes.length = 31250)
    (hw : w = polarity (objF s (bhFunc lane.val) 0x900 (20 + lane.val % 4) (20 + lane.val % 4) == 1) bytes)
    (hy : y = qStream (0x50 + lane.val) (words64 w) s) :
    exec (.virerFrameReceive lane pos bytes) s = .next
      (if laneOn y.1 lane.val = false ∨ laneF y.1 lane.val 29 29 = 1 ∨ y.2.isEmpty = true then y.1
      else if laneF y.1 lane.val 31 30 = 2 ∧ pos % 250000 = (laneRec s lane.val).pos then alignedFrame lane.val w y.1
      else match (laneRec s lane.val).cands.find? (fun c => c.pos == pos % 250000) with
        | some c => candFrame lane.val c w y.1
        | none => y.1) := by
  have hwhole : w.length = 31250 := by rw [hw, length_polarity, hlen]
  change execVirerFrameReceive lane pos bytes s = _
  simp only [execVirerFrameReceive, hon, if_true, ← hw, ← hy, hwhole, ne_eq, not_true_eq_false, false_or,
    Bool.not_eq_eq_eq_not, Bool.not_true] <;> rfl

/-- R340: in HUNT and PRESYNC the word at a new position is one more candidate, while there are less than eight. -/
theorem exec_fawMatch {x : BhLane} (hx : x = laneRec s lane.val) (hon : laneOn s lane.val = true)
    (hlos : laneF s lane.val 29 29 ≠ 1) (hst : laneF s lane.val 31 30 ≠ 2)
    (hnew : x.cands.any (fun c => c.pos == pos % 250000) = false) (hroom : x.cands.length < 8) :
    exec (.fawMatch lane pos) s = .next (setLaneF lane.val 31 30 1 (setLaneRec lane.val (fun x => { x with
      cands := (laneRec s lane.val).cands ++ [⟨pos % 250000, 0, none, 0⟩] }) s)) := by
  subst hx
  change execFawMatch lane pos s = _
  simp only [execFawMatch, hon, hlos, hst, hnew, hroom, Bool.not_true, Bool.false_eq_true, or_self, if_false, if_true]

end lane

/-- Settles O33, command by command. That frames are handled whole, and that a control cycle ends with its command or with the next
frame sent, are the model's own readings (log 52). -/
theorem backhaulLaneCommands : Obligations.BackhaulLaneCommands := by
  unfold Obligations.BackhaulLaneCommands
  refine ⟨?transmit, fun _ _ _ _ _ _ => exec_virerFrameReceive, ?los, ?losClear, fun _ _ _ _ => exec_fawMatch, ?cycle, ?cycleEnd⟩
  case transmit =>
    intro s r hrun hpins hr
    have hsends : ¬ (s.phase ≠ .running ∨ tapHold s = true) := by simp [hrun, hpins]
    change execVirerFrameTransmit s = _
    simp only [execVirerFrameTransmit, if_neg hsends, ← hr] <;> rfl
  case los => exact fun lane s hon => congrArg Host.Outcome.next (if_pos hon)
  case losClear => exact fun lane s hon => congrArg Host.Outcome.next (if_neg (by simp [hon]))
  case cycle =>
    intro s t ht
    rw [cycleEnds, ← ht]
  case cycleEnd => exact fun s hdue => congrArg Host.Outcome.next (if_pos hdue)

/-- Settles O34, command by command. -/
theorem backhaulGraftCommands : Obligations.BackhaulGraftCommands := by
  unfold Obligations.BackhaulGraftCommands
  refine ⟨?release, fun _ _ => rfl, fun _ _ => rfl, ?second, fun _ _ => rfl⟩
  case release =>
    rintro gid s m l due hready rfl rfl hdue
    change execGraftFrameRelease gid s = _
    simp only [execGraftFrameRelease, hready, if_neg (not_lt.mpr hdue), releaseFrame]
  case second => exact fun s hrun => congrArg Host.Outcome.next (if_neg (not_not.mpr hrun))

/-- Settles O55, request by request: what remains of each is the answer of its body. -/
theorem backhaulRequests : Obligations.BackhaulRequests := by
  unfold Obligations.BackhaulRequests
  refine ⟨?add, ?remove, ?read, ?pmRead, ?pmAlign, ?traceRead, ?traceLearn, ?laneTest⟩
  case add =>
    rintro r s t g l ts n ms top hs rfl hf hlen hargs hrange hen hon hunused hstill rfl hroom hskew rfl
    change execGraftAdd r s = _
    simp only [execGraftAdd, hargs]
    refine congrArg Host.Outcome.next (execReq_device_replies hs hf (lenAnd_chk_none hlen hrange) ?_)
    simp only [hen, hon, hunused, hstill, not_lt.mpr hroom, not_lt.mpr hskew, Bool.not_true, Bool.or_self,
      Bool.false_eq_true, or_self, if_false]
  case remove =>
    rintro r s t g l ts n hs rfl hf hlen hargs hrange hen hstill hall
    change execGraftRemove r s = _
    simp only [execGraftRemove, hargs]
    refine congrArg Host.Outcome.next (execReq_device_replies hs hf (lenAnd_chk_none hlen hrange) ?_)
    simp only [hen, hall, hstill, Bool.not_true, Bool.or_self, Bool.false_eq_true, if_false]
  case read =>
    rintro r s t ms hs rfl hf hlen rfl
    exact congrArg Host.Outcome.next (execReq_device_replies hs hf (lenIs_none hlen) rfl)
  case pmRead =>
    rintro r s t hs rfl hf hlen hobj hday hbin
    have hfields : firstBad (chk (decide (byteAt r.params 0 ≤ 23)) 0) (firstBad (chk (decide (byteAt r.params 1 ≤ 1)) 1)
        (chk (decide (byteAt r.params 2 ≤ (if byteAt r.params 1 = 0 then 32 else 1))) 2)) = none := by
      simp only [firstBad, chk, hobj, hday, hbin, decide_true, if_true]
    exact congrArg Host.Outcome.next (execReq_device_replies hs hf ((if_pos hlen).trans hfields) rfl)
  case pmAlign =>
    rintro r s t u hs rfl hf hlen rfl
    exact congrArg Host.Outcome.next (execReq_device_replies hs hf (lenIs_none hlen) rfl)
  case traceRead =>
    rintro r s t l hs rfl hf hlen hlane hd rfl hst
    exact congrArg Host.Outcome.next
      (execReq_replies hs hf (lenAnd_chk_none hlen (decide_eq_true hlane)) hd (if_neg (not_not.mpr hst)))
  case traceLearn =>
    rintro r s t l hs rfl hf hlen hlane hd rfl hst htrace
    exact congrArg Host.Outcome.next
      (execReq_replies hs hf (lenAnd_chk_none hlen (decide_eq_true hlane)) hd (if_neg (by simp [hst, htrace])))
  case laneTest =>
    rintro r s t l hs rfl hf hlen hlane h1 h60 hd rfl hon hfree hrule
    have hfields : firstBad (chk (decide (byteAt r.params 0 ≤ 3)) 0)
        (chk (decide (1 ≤ byteAt r.params 1 ∧ byteAt r.params 1 ≤ 60)) 1) = none := by
      simp only [firstBad, chk, hlane, h1, h60, and_self, decide_true, if_true]
    exact congrArg Host.Outcome.next (execReq_defers hs hf ((if_pos hlen).trans hfields) hd
      ((if_neg (by simp [hon, hfree])).trans (deferIf_defers hrule ..)))

end Sys2Proof.Machine
end

section
/-!
PROOF. The measurement subsystem (13): the sequencer, its slices and what they measure (R364 to R372), load steps, slices at rest,
failing and relieved (R375 to R382), the forwarding of results (16 R451), and the requests on the sequencer.
-/
namespace Sys2Proof.Machine

section sequencer

variable {sl : Fin 9} {rx : ModRx} {s : State}

/-- R365, R368, R373: with a slice to convert on, the sequencer issues a continuous entry of a new table first, then the triggered
run, then the loop. -/
theorem exec_seqEntryIssue (hup : measUp s = true) (hrun : measRun s = true)
    (hslice : (List.range 9).all (fun k => (sliceOf s k).calib || sliceFailed s k) = false) :
    exec .seqEntryIssue s = .next (seqStatus (match s.meas.due.find? (fun i => sliceFree s (seqEnt s i)) with
      | some i => issueEntry i (seqEnt s i) false (setMeas (fun m => { m with due := m.due.erase i }) s)
      | none => match s.meas.run with
        | some none => issueRun (trigEntries s) s
        | some (some l) => issueRun l s
        | none => issueLoop s)) :=
  congrArg Host.Outcome.next (if_neg (by rw [hup, hrun, hslice]; exact Bool.false_ne_true))

/-- R366, R367, R370: the fine outputs of a WAVE entry that are ready become records, and a continuous one that is not cut goes on
behind them. -/
theorem exec_measIntervalEnd_wave {x : SliceSt} {i : Nat} {w cfg : W32} {fine l : List MeasOut} {t : State}
    (hx : x = sliceOf s sl.val) (he : x.entry = some (i, w)) (hph : x.ph = .run) (hmode : eMode w = 3)
    (hcfg : cfg = sliceCfg s sl.val) (hfine : fine = measFine s sl.val cfg rx) (hl : l = waveReady s sl.val w fine)
    (hready : l ≠ [] ∨ x.cut = true) (ht : t = waveRecords sl.val i w x.cut l s) :
    exec (.measIntervalEnd sl rx) s = .next (if eCont w ∧ x.cut = false then
        setSlice sl.val (fun x => { x with hold := tracksOut t, start := x.start + fineTicks cfg * l.length }) t
      else intervalNext sl.val w t) := by
  have hrecords : ¬ (l.isEmpty = true ∧ x.cut = false) := by
    rcases hready with h | h <;> simp [h]
  change execMeasIntervalEnd sl rx s = _
  simp only [execMeasIntervalEnd, ← hx, he, hph, ← hcfg, ← hfine, ← hl, ← ht, hmode, if_true, if_neg hrecords, ne_eq,
    not_true_eq_false, false_and, if_false, Bool.not_eq_eq_eq_not, Bool.not_true]

/-- R364, R366, R370: an interval that has ended or is cut becomes one record. -/
theorem exec_measIntervalEnd_cycle {x : SliceSt} {i : Nat} {w cfg : W32} {fine : List MeasOut}
    (hx : x = sliceOf s sl.val) (he : x.entry = some (i, w)) (hph : x.ph = .run) (hmode : eMode w ≠ 3)
    (hcfg : cfg = sliceCfg s sl.val) (hfine : fine = measFine s sl.val cfg rx)
    (hends : x.cut = true ∨ reaches x.till (fineTicks cfg) fine = true) :
    exec (.measIntervalEnd sl rx) s = .next (intervalNext sl.val w (cycleRecord sl.val i w x.cut x.start
      (intervalOf x.start x.till (fineTicks cfg) fine (measCoarse s sl.val cfg rx)) s)) := by
  have hended : ¬ ((!x.cut) = true ∧ (!reaches x.till (fineTicks cfg) fine) = true) := by
    rcases hends with h | h <;> simp [h]
  change execMeasIntervalEnd sl rx s = _
  simp only [execMeasIntervalEnd, ← hx, he, hph, ← hcfg, ← hfine, hmode, if_neg hended, ne_eq, not_true_eq_false, false_and,
    if_false]

end sequencer

/-- Settles O35, command by command. That a changed MEAS_CH only marks the interval as cut, its record following with
MEAS_INTERVAL_END (log 54), and how a WAVE run ends (log 142), are the model's own readings. -/
theorem measurementCommands : Obligations.MeasurementCommands := by
  unfold Obligations.MeasurementCommands
  refine ⟨?due, ?loop, ?settled, ?delayEnd, ?syncReset, fun _ _ _ _ _ _ _ _ _ _ => exec_measIntervalEnd_wave,
    fun _ _ _ _ _ _ _ _ => exec_measIntervalEnd_cycle, ?phase, ?armed⟩
  case due =>
    intro s i hup hrun hslice hdue
    rw [exec_seqEntryIssue hup hrun hslice, hdue]
  case loop =>
    intro s hup hrun hslice hdue hnone
    rw [exec_seqEntryIssue hup hrun hslice, hdue, hnone]
  case settled => exact fun sl s hph hclean => congrArg Host.Outcome.next (if_pos ⟨hph, hclean⟩)
  case delayEnd =>
    rintro sl s i w a hph he rfl hdue
    change execEntryDelayEnd sl s = _
    simp only [execEntryDelayEnd, hph, he, hdue, and_self, if_true]
  case syncReset =>
    rintro sl s t hph hdue rfl
    exact congrArg Host.Outcome.next (if_pos ⟨hph, hdue⟩)
  case phase =>
    intro s hup hlock
    exact congrArg Host.Outcome.next (if_neg (by simp [hup, hlock]))
  case armed =>
    rintro s u t hat hdue rfl
    change execTriggerArmedInstant s = _
    simp only [execTriggerArmedInstant, hat, if_neg (not_lt.mpr hdue)]

section slices

variable {sl : Fin 9} {s t : State}

/-- R381, R382: on a channel with STEP_EN that a continuous entry converts, a step that is found is declared. -/
theorem exec_loadStepDetect {rx : ModRx} {x : SliceSt} {i : Nat} {w : W32} (hx : x = sliceOf s sl.val)
    (he : x.entry = some (i, w)) (hup : measUp s = true) (hcont : eCont w = true)
    (hph : x.ph = .run ∨ x.ph = .delay ∨ x.ph = .settling) (hen : fget (sliceCfg s sl.val) 24 24 ≠ 0) :
    exec (.loadStepDetect sl rx) s = .next (match stepFound s sl.val (sliceCfg s sl.val) rx with
      | some d => stepDeclared sl.val i w (sliceCfg s sl.val) d s
      | none => s) := by
  have hconverts : (x.ph == .run || x.ph == .delay || x.ph == .settling) = true := by simpa [or_assoc] using hph
  change execLoadStepDetect sl rx s = _
  simp only [execLoadStepDetect, ← hx, he]
  cases stepFound s sl.val (sliceCfg s sl.val) rx with
  | none => rfl
  | some d => exact congrArg Host.Outcome.next (if_neg (by simp [hup, hcont, hconverts, hen]))

/-- R377: a rotation begins where the spare is free. -/
theorem exec_sliceRotation (hup : measUp s = true) (hon : objF s 0x60 0xA00 28 28 ≠ 0) (hspare : spareSlice s ≠ 15)
    (hrot : objF s 0x60 0xA01 18 18 ≠ 1) (hcal : objF s 0x60 0xA01 9 9 ≠ 1)
    (ht : t = rotStatus (setMeas (fun m => { m with rot := oldestSlice s }) s)) :
    exec .sliceRotation s = .next (match t.meas.rot with | some k => spareFollows k t | none => t) := by
  subst ht
  exact congrArg Host.Outcome.next (if_neg (by simp [hup, hon, hspare, hrot, hcal]))

/-- R375 to R378: what a calibration that was due leaves is judged by its corrections and by the gain error. -/
theorem exec_sliceCalibrationDone {refs : Vector (Rat × Rat × Rat) 5} {gainBad : Bool} (hcal : (sliceOf s sl.val).calib = true)
    (hup : measUp s = true)
    (ht : t = setSlice sl.val (fun x => { x with calib := false, calTb := s.clk.tb, cal := refs.map calOf }) s) :
    exec (.sliceCalibrationDone sl refs gainBad) s = .next (
      if (refs.map calOf).toList.any (fun e => decide (160000 < e.1 * e.2) || decide (e.1 * e.2 < -160000)) then
        retireSlice sl.val 0 t
      else if gainBad then retireSlice sl.val 1 t
      else if t.meas.relieved = some sl.val then
        rotStatus (setF 0x60 0xA01 31 28 sl.val (setMeas (fun m => { m with relieved := none }) t))
      else rotStatus t) := by
  subst ht
  exact congrArg Host.Outcome.next (if_neg (by simp [hcal, hup]))

end slices

/-- Settles O36, command by command. When the spare may take a slice's place (log 129) and that the row brings the judgement on the
gain (log 130) are the model's own choices. -/
theorem sliceAndForwardingCommands : Obligations.SliceAndForwardingCommands := by
  unfold Obligations.SliceAndForwardingCommands
  refine ⟨fun _ _ _ _ _ _ => exec_loadStepDetect, fun _ _ => exec_sliceRotation, ?exchange, ?offset, ?gain, ?calibrated,
    ?retire, ?forward⟩
  case exchange =>
    intro s k l hrot hlog hspare hcut hready
    have hmay : ¬ (spareSlice s = 15 ∨ (sliceOf s k).cut = true ∨ (!spareReady s k) = true) := by
      simp [hspare, hcut, hready]
    change execRotationExchange s = _
    simp only [execRotationExchange, hrot, hlog, if_neg hmay]
  case offset =>
    intro sl refs gainBad s t hcal hup hbad ht
    rw [exec_sliceCalibrationDone hcal hup ht, if_pos hbad]
  case gain =>
    intro sl refs s t hcal hup hok ht
    rw [exec_sliceCalibrationDone hcal hup ht, if_neg (ne_true_of_eq_false hok), if_pos rfl]
  case calibrated =>
    intro sl refs s t hcal hup hok ht
    rw [exec_sliceCalibrationDone hcal hup ht, if_neg (ne_true_of_eq_false hok), if_neg Bool.false_ne_true, apply_ite rotStatus]
  case retire => exact fun sl reason s hup => congrArg Host.Outcome.next (if_pos hup)
  case forward =>
    rintro s r hfw hmc rfl
    have hserves : ¬ ((measFwd s).isEmpty = true ∨ s.pw.mcDown = true) := by simp [hfw, hmc]
    change execMeasForward s = _
    simp only [execMeasForward, if_neg hserves, Bool.not_eq_eq_eq_not, Bool.not_true, List.isEmpty_eq_false_iff]

/-- Settles O56, request by request: what remains of each is the answer of its body. -/
theorem measurementRequests : Obligations.MeasurementRequests := by
  unfold Obligations.MeasurementRequests
  refine ⟨?read, ?readForwarded, ?trigger, ?trigAt, ?trigPassed, ?syscal, ?last⟩
  case read =>
    rintro r s t n hs rfl hf hlen rfl h1 h64 hd hfw
    exact congrArg Host.Outcome.next (execReq_replies hs (beq_iff_eq.mpr hf)
      (lenAnd_chk_none hlen (decide_eq_true ⟨h1, h64⟩)) hd (if_neg (by simp [hfw])))
  case readForwarded =>
    rintro r s t n hs rfl hf hlen rfl h1 h64 hd hfw
    exact congrArg Host.Outcome.next (execReq_replies hs (beq_iff_eq.mpr hf)
      (lenAnd_chk_none hlen (decide_eq_true ⟨h1, h64⟩)) hd (if_pos (by simp [hfw])))
  case trigger =>
    rintro r s t hs rfl hf hp hd hen hrun hok
    refine congrArg Host.Outcome.next (execReq_replies hs (beq_iff_eq.mpr hf) (lenIs_none (by simp [hp])) hd ?_)
    simp only [hen, hrun, hok, Bool.and_self, Bool.not_true, Bool.false_eq_true, if_false, if_true]
  case trigAt =>
    rintro r s t hs rfl hf hlen hd hen hrun hlater
    refine congrArg Host.Outcome.next (execReq_replies hs (beq_iff_eq.mpr hf) (lenIs_none hlen) hd ?_)
    simp only [hen, hrun, not_le.mpr hlater, Bool.and_self, Bool.not_true, Bool.false_eq_true, if_false]
  case trigPassed =>
    rintro r s t hs rfl hf hlen hd hen hrun hpassed
    refine congrArg Host.Outcome.next (execReq_replies hs (beq_iff_eq.mpr hf) (lenIs_none hlen) hd ?_)
    simp only [hen, hrun, hpassed, Bool.and_self, Bool.not_true, Bool.false_eq_true, if_false, if_true]
  case syscal =>
    rintro r s t p hs rfl hf rfl hlen hch hstep hcycles hd hrot hcal hspare hrule
    have hfields : firstBad (chk (decide (byteAt r.params 0 ≤ 23)) 0) (firstBad (chk (decide (byteAt r.params 1 ≤ 1)) 1)
        (chk (decide (1 ≤ byteAt r.params 2)) 2)) = none := by
      simp only [firstBad, chk, hch, hstep, hcycles, decide_true, if_true]
    refine congrArg Host.Outcome.next (execReq_defers hs (beq_iff_eq.mpr hf) ((if_pos hlen).trans hfields) hd ?_)
    rw [if_neg (not_or.mpr ⟨hrot, hcal⟩), if_neg hspare, deferIf_defers hrule]
  case last =>
    rintro r s t b hs rfl hf hlen hch hd rfl hsome
    exact congrArg Host.Outcome.next (execReq_replies hs (beq_iff_eq.mpr hf)
      (lenAnd_chk_none hlen (decide_eq_true hch)) hd (if_neg (by simp [hsome])))

end Sys2Proof.Machine
end

section
/-!
PROOF. Forwarding between devices and the host links (14 R389 to R395), and data packets from and to the host (14 R411, R412): one
lemma for each case of what a command does.
-/
namespace Sys2Proof.Machine

section hostLink

variable {link : Fin 2} {s : State}

/-- 14 R389: a frame for this link with a good FCS and length crosses through the link's queue, and its payload is taken. -/
theorem exec_hostFrameReceive {f : EthFrame} {y : State × List Nat} (hrun : hlRuns s link.val = true) (hfcs : f.fcsOk = true)
    (hmin : 64 ≤ f.len) (hmax : f.len ≤ 9216) (hours : frameForUs s link.val f = true)
    (hy : y = qStream (0x5A + link.val) (words64 f.payload) s) (hcross : y.2.isEmpty = false) :
    exec (.hostFrameReceive link f) s = .next (hostPayload link f y.1) := by
  subst hy
  change execHostFrameReceive link f s = _
  simp only [execHostFrameReceive, hrun, hfcs, not_lt.mpr hmin, not_lt.mpr hmax, hours, hcross, Bool.not_true,
    Bool.false_eq_true, or_self, false_and, if_false]

end hostLink

/-- Settles O40, command by command. That a PAUSE ends at its quanta of 51.2 ns is presumed from IEEE 802.3 (log 25). -/
theorem forwardingAndHostLinkCommands : Obligations.ForwardingAndHostLinkCommands := by
  unfold Obligations.ForwardingAndHostLinkCommands
  refine ⟨?timeout, ?forward, ?reply, ?badFrame, ?request, ?data, ?pauseZero, ?pause, ?pauseExpire, ?state, ?up⟩
  case timeout =>
    rintro idx s t f rfl hf hsent
    have hwaits : f.sent.isNone = false := by simpa [Option.isSome_iff_ne_none] using hsent
    change execForwardTimeout idx s = _
    simp only [execForwardTimeout, hf, hwaits, Bool.false_eq_true, if_false]
  case forward =>
    intro op r s pkt q hpkt hq hdest
    have hsource : viaChain q = viaChain r := by rw [hq]; rfl
    change execCommandForward op r s = _
    simp only [execCommandForward, ← hpkt, ← hq]
    rw [hsource, if_pos hdest]
  case reply => exact fun packet s hup => congrArg Host.Outcome.next (if_pos hup)
  case badFrame =>
    intro link f s hrun hbad
    exact congrArg Host.Outcome.next ((if_neg (by simp [hrun])).trans (if_pos (by simpa using hbad)))
  case request =>
    intro link f s y hrun hfcs hmin hmax hours hy hcross hmark
    rw [exec_hostFrameReceive hrun hfcs hmin hmax hours hy hcross, hostPayload, if_pos hmark]
  case data =>
    rintro link f s y x hrun hfcs hmin hmax hours hy hcross hmark hok rfl
    have hnot : ¬ byteAt f.payload 0 = 0x6B := by rw [hmark]; decide
    rw [exec_hostFrameReceive hrun hfcs hmin hmax hours hy hcross, hostPayload, if_neg hnot, if_pos hmark]
    simp only [hok, Bool.not_true, Bool.false_eq_true, if_false]
  case pauseZero =>
    intro link quanta s hrun hzero
    change execPauseReceive link quanta s = _
    simp only [execPauseReceive, hrun, hzero, Bool.not_true, Bool.false_eq_true, if_false, if_true]
  case pause =>
    rintro link quanta s t hrun hquanta rfl
    change execPauseReceive link quanta s = _
    simp only [execPauseReceive, hrun, hquanta, Bool.not_true, Bool.false_eq_true, if_false]
  case pauseExpire =>
    intro link s u hend hdue
    change execPauseExpire link s = _
    simp only [execPauseExpire, hend, hdue, if_true]
  case state =>
    intro link lock hiBer errs s t u v w hrun ht hu hv hw
    change execHostLinkState link lock hiBer errs s = _
    simp only [execHostLinkState, hrun, Bool.not_true, Bool.false_eq_true, if_false, ← ht, ← hu, ← hv, ← hw]
  case up =>
    intro link s u hsince hdue hup
    have hlong : (vAt s.hl.upSince link.val).any (fun t => decide (t.toNat + 400000000 ≤ now s)) = true := by
      rw [hsince, Option.any_some]
      exact decide_eq_true hdue
    change execHostLinkUp link s = _
    rw [execHostLinkUp, hlong, hup]
    rfl

section downlink

variable {link : Fin 2} {mac : BitVec 48} {vlan : Option (BitVec 12)} {packet : Bytes} {s u t : State} {p : Pkt}

/-- 14 R412: a downlink packet that passes its checks leaves its queue; one for this device goes to the link engine, and what
refuses it is answered where a link is up for the answer. -/
theorem exec_dataPacketDownlink (hpop : qPop link.val s = some (p, u)) (hdata : p.data = packet) (ht : t = hostRequests link u)
    (hkind : beAt packet 2 2 = 2) (hok : dataPacketOk packet = true) (hmark : byteAt packet 0 = 0x6C)
    {r : State × Option W16} (hr : r = if destRule t.aon.addr.toNat (byteAt packet 6) false = .here then
        downlinkData (beAt packet 12 4 % 2 ^ 18) (slice packet 16 (beAt packet 8 2)) t else (t, some stBadDest)) :
    exec (.dataPacketDownlink link mac vlan packet) s = .next (match r.2 with
      | none => r.1
      | some st => match replyLink t link.val with
        | some k => hostSend k mac vlan (dataRefusal packet st) r.1
        | none => r.1) := by
  subst hr
  change execDataPacketDownlink link mac vlan packet s = _
  simp only [execDataPacketDownlink, hpop, hdata, if_true, ← ht, hkind, hok, hmark, ne_eq, not_true_eq_false, Bool.not_true,
    Bool.false_eq_true, or_self, if_false] <;> rfl

end downlink

/-- 14 R411: what becomes of the oldest uplink frame turns on the event link and on its length. -/
theorem exec_uplinkDataSend {s t : State} {n : BitVec 12} {g : Nat} {nb : Bool} {body : Bytes}
    {rest : List (BitVec 12 × Nat × Bool × Bytes)} (hup : s.lk.uplink = (n, g, nb, body) :: rest)
    (ht : t = setLk (fun l => { l with uplink := rest }) s) :
    exec .uplinkDataSend s = .next (match eventLink t with
      | none => bumpF (0x5C + objF t 0 0xE20 30 30) 0x31 19 8 1 t
      | some l =>
        if 9000 < body.length then
          bumpF (0x5C + l) 0x31 19 8 1
            (raise 75 0 .hostDataOversize (beBytes 2 n.toNat ++ beBytes 2 (min 0xFFFF body.length)) t)
        else hostSend l (eventDst t).1 (eventDst t).2
          (dataPacket 1 0 (ownDest t) (g + 8 * b2n nb) 0 (t.aon.addr.toNat * 4096 + n.toNat) body) t) := by
  subst ht
  change execUplinkDataSend s = _
  simp only [execUplinkDataSend, hup] <;> rfl

/-- Settles O41, command by command. -/
theorem dataPacketCommands : Obligations.DataPacketCommands := by
  unfold Obligations.DataPacketCommands
  refine ⟨?taken, ?badDest, ?noLink, ?sent, ?oversize⟩
  case taken =>
    rintro link mac vlan packet s p u t r hpop hdata ht hkind hok hmark hhere rfl hnone
    rw [exec_dataPacketDownlink hpop hdata ht hkind hok hmark rfl, if_pos hhere, hnone]
  case badDest =>
    intro link mac vlan packet s p u t k hpop hdata ht hkind hok hmark haway hlink
    rw [exec_dataPacketDownlink hpop hdata ht hkind hok hmark rfl, if_neg haway]
    simp only [hlink]
  case noLink =>
    intro s n g nb body rest t hup ht hnone
    rw [exec_uplinkDataSend hup ht, hnone]
  case sent =>
    intro s n g nb body rest t l hup ht hlink hlen
    rw [exec_uplinkDataSend hup ht, hlink]
    exact congrArg Host.Outcome.next (if_neg (not_lt.mpr hlen))
  case oversize =>
    intro s n g nb body rest t l hup ht hlink hlen
    rw [exec_uplinkDataSend hup ht, hlink]
    exact congrArg Host.Outcome.next (if_pos hlen)

end Sys2Proof.Machine
end

section
/-!
PROOF. The application cores (16): starts, images, stops and faults (R440 to R446, R452, R453), the core-local registers (R447 to
R452), and the requests on the chain, on the cores and of field service (15 R436, R438; 14 R414, R417; 18 R484, R485).
-/
namespace Sys2Proof.Machine

/-- Settles O57, request by request: what remains of each is the answer of its body. -/
theorem chainAndCoreRequests : Obligations.ChainAndCoreRequests := by
  unfold Obligations.ChainAndCoreRequests
  refine ⟨?assign, ?wake, ?load, ?start, ?stop⟩
  case assign =>
    rintro r s t hs rfl hf hp hd hfree haddr hnone hrule
    refine congrArg Host.Outcome.next (execReq_defers hs (beq_iff_eq.mpr hf) (lenIs_none (by simp [hp])) hd ?_)
    rw [hfree, if_neg Bool.false_ne_true, hnone, if_neg (by simpa using haddr), deferIf_defers hrule]
  case wake =>
    rintro r s t a hs rfl hf hlen rfl h1 h62 hd hfree haddr hrule
    refine congrArg Host.Outcome.next (execReq_defers hs (beq_iff_eq.mpr hf)
      (lenAnd_chk_none hlen (decide_eq_true ⟨h1, h62⟩)) hd ?_)
    rw [hfree, if_neg (by simpa using haddr), deferIf_defers hrule]
  case load =>
    rintro r s t n o hs rfl hf hmin hmax hwords hd rfl rfl hstopped hwindow
    have hsize : ¬ (r.params.length < 8 ∨ 2044 < r.params.length - 4 ∨ (r.params.length - 4) % 4 ≠ 0) := by omega
    refine congrArg Host.Outcome.next (execReq_replies hs hf (if_neg hsize) hd ?_)
    simp only [hstopped, hwindow, Bool.not_true, Bool.false_eq_true, if_false]
  case start =>
    rintro r s t n f hs rfl hf hlen hd rfl rfl hstopped hwindow hmay hrule
    refine congrArg Host.Outcome.next (execReq_defers hs hf (lenIs_none hlen) hd ?_)
    simp only [hstopped, hwindow, hmay, deferIf_defers hrule, Bool.not_true, Bool.or_self, Bool.false_eq_true, if_false]
  case stop =>
    rintro r s t hs rfl hf hlen hd hrule
    exact congrArg Host.Outcome.next (execReq_defers hs hf (lenIs_none hlen) hd (deferIf_defers hrule ..))

/-- Settles O58, request by request: what remains of each is the answer of its body. -/
theorem serviceAndEventRequests : Obligations.ServiceAndEventRequests := by
  unfold Obligations.ServiceAndEventRequests
  refine ⟨?selftest, ?locate, ?ledTest, ?events, ?bins⟩
  case selftest =>
    rintro r s t hs rfl hf hp hrule
    exact congrArg Host.Outcome.next (execReq_defers hs (beq_iff_eq.mpr hf) (lenIs_none (by simp [hp])) rfl
      (deferIf_defers hrule ..))
  case locate =>
    rintro r s t n hs rfl hf hlen rfl
    exact congrArg Host.Outcome.next (execReq_device_replies hs hf (lenIs_none hlen) rfl)
  case ledTest =>
    rintro r s t hs rfl hf hp
    exact congrArg Host.Outcome.next (execReq_device_replies hs hf (lenIs_none (by simp [hp])) rfl)
  case events =>
    rintro r s t hs rfl hf hlen h1 h63
    rw [← List.flatMap_id]
    exact congrArg Host.Outcome.next (execReq_device_replies hs hf (lenAnd_chk_none hlen (decide_eq_true ⟨h1, h63⟩)) rfl)
  case bins =>
    rintro r s t obj day n hs rfl hf hlen rfl hobj rfl hday rfl
    have hfields : firstBad (chk (decide (byteAt r.params 0 ≤ 23)) 0) (chk (decide (byteAt r.params 1 ≤ 1)) 1) = none := by
      simp only [firstBad, chk, hobj, hday, decide_true, if_true]
    exact congrArg Host.Outcome.next (execReq_device_replies hs hf ((if_pos hlen).trans hfields) rfl)

section cores

variable {n : Fin 4} {s t : State}

/-- R444, R445: flash is read for the first core that loads, and the others that load the same image. -/
theorem exec_flashBoot {ofs : Byte} {answers sfdp : Bool} {image : Bytes} {m : Nat} {rest : List Nat}
    (hload : loading s = m :: rest) (hofs : bootOfs s m = ofs.toNat) :
    exec (.flashBoot ofs answers sfdp image) s = .next (
      if answers then (m :: rest.filter (fun k => bootOfs s k == ofs.toNat)).foldl
        (fun s k => setCoreState k 2 (trWrite (winBase s k) (image.take (winSize s k)) s)) s
      else (m :: rest.filter (fun k => bootOfs s k == ofs.toNat)).foldl
        (fun s k => startAnswer k stNotInState
          (startFault k 5 (setCoreState k 0 (setCore k (fun c => { c with starting := none }) s)))) s) := by
  change execFlashBoot ofs answers sfdp image s = _
  simp only [execFlashBoot, hload, hofs, ne_eq, not_true_eq_false, if_false]

/-- R446: a core whose start is due starts by its boot source. -/
theorem exec_coreStart (hdue : (coreOf s n.val).due = true) (hmay : mayStart s n.val = true)
    (ht : t = setCore n.val (fun c => { c with due := false }) s) :
    exec (.coreStart n) s = .next (
      if bootSrc t n.val = 1 then setCoreState n.val 1 (setCore n.val (fun c => { c with starting := some true }) t)
      else if bootSrc t n.val = 2 then
        raise (67 + n.val) (acf n.val) .appReloadRequest (beBytes 1 (2 ^ n.val)) (setCoreState n.val 0 t)
      else setCoreState n.val 0 t) := by
  subst ht
  exact congrArg Host.Outcome.next (if_neg (by simp [hdue, hmay]))

/-- R443: the check of the image that a core is about to run decides its start. -/
theorem exec_imageCheckVerdict {r : State × Bool} (hst : coreState s n.val = 2) (hd : funcDown s (acf n.val) = false)
    (hr : r = checkImage n.val s) :
    exec (.imageCheckVerdict n) s = .next (
      if r.2 then startAnswer n.val stDone (releaseCore n.val r.1)
      else startAnswer n.val stAuthFail (startFault n.val 4
        (setCoreState n.val 4 (setCore n.val (fun c => { c with starting := none }) r.1)))) := by
  subst hr
  exact congrArg Host.Outcome.next (if_neg (by simp [hst, hd]))

end cores

/-- Settles O42, command by command. That a start with no flash is answered NOT_IN_STATE, and that CORE_START runs for a core that
is due, are the model's own readings (log 72). -/
theorem coreControlCommands : Obligations.CoreControlCommands := by
  unfold Obligations.CoreControlCommands
  refine ⟨?boot, ?noFlash, ?startFlash, ?startHost, ?startNone, ?passed, ?failed, ?watchdog, ?access, ?timer, ?stopped⟩
  case boot =>
    intro ofs sfdp image s n rest hload hofs
    rw [exec_flashBoot hload hofs, if_pos rfl]
  case noFlash =>
    intro ofs sfdp image s n rest hload hofs
    rw [exec_flashBoot hload hofs, if_neg Bool.false_ne_true]
  case startFlash =>
    intro n s t hdue hmay ht hsrc
    rw [exec_coreStart hdue hmay ht, if_pos hsrc]
  case startHost =>
    intro n s t hdue hmay ht hsrc
    rw [exec_coreStart hdue hmay ht, if_neg (by rw [hsrc]; decide), if_pos hsrc]
  case startNone =>
    intro n s t hdue hmay ht h1 h2
    rw [exec_coreStart hdue hmay ht, if_neg h1, if_neg h2]
  case passed =>
    intro n s r hst hd hr hok
    rw [exec_imageCheckVerdict hst hd hr, if_pos hok]
  case failed =>
    intro n s r hst hd hr hbad
    rw [exec_imageCheckVerdict hst hd hr, if_neg (ne_true_of_eq_false hbad)]
  case watchdog =>
    rintro n mepc mtval s t hrun hon hdue rfl
    have hexpires : ¬ ((!coreRuns s n.val) = true ∨ objF s (acf n.val) 0xC02 31 24 = 0
        ∨ now s < (coreOf s n.val).wdog.toNat + 400000 * objF s (acf n.val) 0xC02 31 24) :=
      not_or.mpr ⟨by simp [hrun], not_or.mpr ⟨hon, not_lt.mpr hdue⟩⟩
    change execCoreWatchdogExpire n mepc mtval s = _
    simp only [execCoreWatchdogExpire, if_neg hexpires]
  case access => exact fun n poisoned mepc mtval s hrun => congrArg Host.Outcome.next (if_pos hrun)
  case timer =>
    intro n s hrun hdue
    exact congrArg Host.Outcome.next (if_neg (not_or.mpr ⟨by simp [hrun], not_lt.mpr hdue⟩))
  case stopped =>
    intro n s d hd
    change execAppStopDone n s = _
    simp only [execAppStopDone, hd]

/-- R450: a running core submits the job of a descriptor in its window while fewer than sixteen are under way; one more is refused
in its STATUS. -/
theorem exec_cjSubmitWrite {n : Fin 4} {addr : W32} {s : State} {a : Nat} (hrun : coreRuns s n.val = true)
    (hlow : 0x40000000 ≤ addr.toNat) (halign : addr.toNat % 8 = 0) (ha : a = partBase s 7 + (addr.toNat - 0x40000000))
    (hwindow : inWindow s n.val a 48 = true) :
    exec (.cjSubmitWrite n addr) s = .next (
      if 16 ≤ (coreOf s n.val).cj.length then
        setCore n.val (fun c => { c with cjDone := true }) (memSetNat (a + 44) 2 stNoResource.toNat s)
      else setClo (fun c => { c with jobs := c.jobs ++ [.core n.val a] })
        (setCore n.val (fun c => { c with cj := c.cj ++ [a] }) s)) := by
  change execCjSubmitWrite n addr s = _
  simp only [execCjSubmitWrite, hrun, not_lt.mpr hlow, halign, ← ha, hwindow, Bool.not_true, Bool.false_eq_true, ne_eq,
    not_true_eq_false, or_self, if_false]

/-- Settles O43, register by register. -/
theorem coreRegisterWriteCommands : Obligations.CoreRegisterWriteCommands := by
  unfold Obligations.CoreRegisterWriteCommands
  refine ⟨?intClr, ?inPop, ?outReq, ?outCommit, ?outAbort, ?submit, ?submitFull, ?mbox, ?mboxClr, ?kick⟩
  case intClr =>
    rintro n v s t hrun rfl
    exact congrArg Host.Outcome.next (if_neg (by simp [hrun]))
  case inPop =>
    intro n s p t hrun hpop
    change execInPopWrite n s = _
    simp only [execInPopWrite, hrun, hpop, Bool.not_true, Bool.false_eq_true, if_false]
  case outReq => exact fun n v s hrun => congrArg Host.Outcome.next (if_neg (by simp [hrun]))
  case outCommit =>
    intro n payload s tag bytes t p u hout hrun hready ht hpop
    change execOutCommitWrite n payload s = _
    simp only [execOutCommitWrite, hout, hrun, hready, ← ht, hpop, Bool.not_true, Bool.or_self, Bool.false_eq_true, if_false]
  case outAbort => exact fun n s hrun => congrArg Host.Outcome.next (if_pos hrun)
  case submit =>
    intro n addr s a hrun hlow halign ha hwindow hroom
    rw [exec_cjSubmitWrite hrun hlow halign ha hwindow, if_neg (not_le.mpr hroom)]
  case submitFull =>
    intro n addr s a hrun hlow halign ha hwindow hfull
    rw [exec_cjSubmitWrite hrun hlow halign ha hwindow, if_pos hfull]
  case mbox => exact fun n v s hrun => congrArg Host.Outcome.next (if_neg (by simp [hrun]))
  case mboxClr => exact fun n s hrun => congrArg Host.Outcome.next (if_neg (by simp [hrun]))
  case kick => exact fun n s hrun => congrArg Host.Outcome.next (if_neg (by simp [hrun]))

end Sys2Proof.Machine
end

section
/-!
PROOF. The serial ports (15): the console line and Caseri (R420 to R430), messages on the chain (R431 to R433, R439), addressing and
waking (R436, R438; 17 R469).
-/
namespace Sys2Proof.Machine

section console

variable {s t : State}

/-- R427, R428: Caseri takes the oldest line while nothing waits for the transmitter. -/
theorem exec_caseriLine {l : Bytes} {long bad : Bool} {rest : List (Bytes × Bool × Bool)} (hup : conUp s = true)
    (hacc : accepting s = true) (hwait : s.con.wait = []) (hlines : s.con.lines = (l, long, bad) :: rest)
    (ht : t = setCon (fun c => { c with lines := rest }) s) :
    exec .caseriLine s = .next (conDrain (if long then conPrompt (conSend (ascii "ERR LONG" ++ crlf) t)
      else if bad then conPrompt (conSend (ascii "ERR CHAR" ++ crlf) t)
      else caseriText l t)) := by
  change execCaseriLine s = _
  simp only [execCaseriLine, hup, hacc, hwait, List.isEmpty_nil, hlines, ← ht, Bool.not_true, Bool.or_self,
    Bool.false_eq_true, if_false]

/-- R430: Caseri takes the oldest frame, and step 1 of 14 R387 discards what is no command packet. -/
theorem exec_caseriFrame {f : Bytes} {rest : List Bytes} (hup : conUp s = true) (hacc : accepting s = true)
    (hwait : s.con.wait = []) (hframes : s.con.frames = f :: rest) (ht : t = setCon (fun c => { c with frames := rest }) s) :
    exec .caseriFrame s = .next (conDrain (if byteAt f 0 = 0x6B then receiveCmd .console f t else t)) := by
  change execCaseriFrame s = _
  simp only [execCaseriFrame, hup, hacc, hwait, List.isEmpty_nil, hframes, ← ht, Bool.not_true, Bool.or_self,
    Bool.false_eq_true, if_false]

end console

/-- Settles O37, command by command. -/
theorem consoleAndCaseriCommands : Obligations.ConsoleAndCaseriCommands := by
  unfold Obligations.ConsoleAndCaseriCommands
  refine ⟨?char, ?lowLine, ?idle, ?rxTimeout, ?xoff, ?stuck, ?stuckClear, ?cfg, ?lineLong, ?lineChar, ?line, ?frame, ?noPacket,
    ?gap⟩
  case char =>
    intro r c s x u v w t hup hfree hc hx hu hv hw ht
    change execConCharReceive r s = _
    simp only [execConCharReceive, hup, hfree, hc, conTake, ← hx, ← hu, ← hv, ← hw, ← ht, Bool.not_true, Bool.or_self,
      Bool.false_eq_true, if_false]
  case lowLine =>
    rintro r s t hup hfree hbreak rfl
    exact congrArg Host.Outcome.next (if_neg (by simp [hup, hfree, hbreak]))
  case idle => exact fun s hup hfree => congrArg Host.Outcome.next (if_neg (by simp [hup, hfree]))
  case rxTimeout =>
    exact fun s hup hfree hidle hblock => congrArg Host.Outcome.next (if_neg (by simp [hup, hfree, hidle, hblock]))
  case xoff => exact fun s hup hoff => congrArg Host.Outcome.next (if_neg (by simp [hup, hoff]))
  case stuck => exact fun s hup hfree => congrArg Host.Outcome.next (if_neg (by simp [hup, hfree]))
  case stuckClear => exact fun s hup hstuck => congrArg Host.Outcome.next (if_neg (by simp [hup, hstuck]))
  case cfg =>
    rintro tx s v t hup hwait rfl rfl
    exact congrArg Host.Outcome.next (if_neg (by simp [hup, hwait]))
  case lineLong =>
    intro s l bad rest t hup hacc hwait hlines ht
    rw [exec_caseriLine hup hacc hwait hlines ht, if_pos rfl]
  case lineChar =>
    intro s l rest t hup hacc hwait hlines ht
    rw [exec_caseriLine hup hacc hwait hlines ht, if_neg Bool.false_ne_true, if_pos rfl]
  case line =>
    intro s l rest t hup hacc hwait hlines ht
    rw [exec_caseriLine hup hacc hwait hlines ht, if_neg Bool.false_ne_true, if_neg Bool.false_ne_true]
  case frame =>
    intro s f rest t hup hacc hwait hframes ht hmark
    rw [exec_caseriFrame hup hacc hwait hframes ht, if_pos hmark]
  case noPacket =>
    intro s f rest t hup hacc hwait hframes ht hmark
    rw [exec_caseriFrame hup hacc hwait hframes ht, if_neg hmark]
  case gap => exact fun s hup => congrArg Host.Outcome.next (if_neg (by simp [hup]))

section chain

variable {eni : Bool} {s t : State}

/-- R431, R433: the characters of a message arrive through queue 0x70; with no framing error, a length within its limit, all its
bytes and its CRC the message is dispatched, else it is counted. -/
theorem exec_chainMessageReceive {chars : List CharSamples} {bytes : Bytes} {x : State × List Nat}
    (ht : t = setChain (fun c => { c with justSent := false, eni := eni }) (chainSettle s))
    (hup : chainUp (chainSettle s) = true) (hx : x = qStream 0x70 (chainWords (chars.map chainByte)) t)
    (hbytes : bytes = x.2.map (BitVec.ofNat 8)) :
    exec (.chainMessageReceive chars eni) s = .next (
      if !chars.any chainFraming && decide (beAt bytes 2 2 ≤ 2068) && decide (bytes.length = 6 + beAt bytes 2 2)
        && beAt bytes (4 + beAt bytes 2 2) 2 == crc16 (bytes.take (4 + beAt bytes 2 2)) then dispatchMsg bytes x.1
      else bumpF 0x69 0xB0A 23 16 1 x.1) := by
  change execChainMessageReceive chars eni s = _
  simp only [execChainMessageReceive, hup, Bool.not_true, Bool.false_eq_true, if_false, ← ht, ← hx, ← hbytes]

end chain

/-- Settles O38, command by command. That one idle of 12 bit times passes after a message of the device's own is how the model
renders R431 (log 68). -/
theorem chainMessageCommands : Obligations.ChainMessageCommands := by
  unfold Obligations.ChainMessageCommands
  refine ⟨?receive, ?framing, ?begin, ?pause, ?lost, ?abort, ?stuck, ?stuckClear⟩
  case receive =>
    intro chars bytes eni s t x ht hup hx hbytes hframing hmax hlen hcrc
    rw [exec_chainMessageReceive ht hup hx hbytes, if_pos]
    rw [hframing, decide_eq_true hmax, decide_eq_true hlen, beq_iff_eq.mpr hcrc]
    rfl
  case framing =>
    intro chars eni s t ht hup hframing
    rw [exec_chainMessageReceive ht hup rfl rfl, hframing]
    rfl
  case begin =>
    intro eni s t m rest ht hmay hrest htake
    change execChainTxStart eni s = _
    simp only [execChainTxStart, ← ht, hmay, hrest, htake, Bool.not_true, Bool.false_eq_true, if_false]
  case pause =>
    intro eni s t ht hmay hsent
    change execChainTxStart eni s = _
    simp only [execChainTxStart, ← ht, hmay, hsent, Bool.not_true, Bool.false_eq_true, if_false, if_true]
  case lost =>
    intro s hsending
    exact congrArg Host.Outcome.next (if_neg (by simpa [Option.isSome_iff_ne_none] using hsending))
  case abort => exact fun s hup => congrArg Host.Outcome.next (if_neg (by simp [hup]))
  case stuck =>
    rintro s t rfl hup hfree
    exact congrArg Host.Outcome.next (if_neg (by simp [hup, hfree]))
  case stuckClear => exact fun s hup hstuck => congrArg Host.Outcome.next (if_neg (by simp [hup, hstuck]))

/-- Settles O39, command by command. -/
theorem chainAddressingCommands : Obligations.ChainAddressingCommands := by
  unfold Obligations.ChainAddressingCommands
  refine ⟨?start, ?offer, ?ack, ?offerAgain, ?offersEnd, ?ends, ?resume, ?notice, ?wake⟩
  case start => exact fun s hup => congrArg Host.Outcome.next (if_pos hup)
  case offer => exact fun n eni s hup => congrArg Host.Outcome.next (if_pos hup)
  case ack => exact fun n eui s hup => congrArg Host.Outcome.next (if_pos hup)
  case offerAgain =>
    rintro s t r rfl hrun hended htries
    change execAssignOfferTimeout s = _
    simp [execAssignOfferTimeout, hrun, hended, htries]
  case offersEnd =>
    rintro s t r rfl hrun hended htries
    have hnone : ¬ (r.ended = true ∨ r.tries = 0) := not_or.mpr ⟨ne_true_of_eq_false hended, by omega⟩
    have hlast : ¬ r.tries = 1 := by omega
    change execAssignOfferTimeout s = _
    simp only [execAssignOfferTimeout, hrun, if_neg hnone, if_neg hlast]
  case ends => exact fun s hup => congrArg Host.Outcome.next (if_pos hup)
  case resume => exact fun s hup => congrArg Host.Outcome.next (if_pos hup)
  case notice => exact fun s hup => congrArg Host.Outcome.next (if_pos hup)
  case wake => exact fun a b s hasleep h0 h63 ha hb => congrArg Host.Outcome.next (if_pos ⟨hasleep, h0, h63, ha, hb⟩)

end Sys2Proof.Machine
end

section
/-!
PROOF. Resets, power and life cycle on request (17 R459, R460, R463, R468, R475); the life-cycle commit, the meter, the lights and
the test access port (17 R477, 18 R480, R481, R484, 19 R496 to R499).
-/
namespace Sys2Proof.Machine

/-- Settles O44, command by command. What the test port selects after each update is the model's own reading (log 91), and so is
that a PEEK held behind a region's restart selects at once (log 96). -/
theorem serviceAndTestPortCommands : Obligations.ServiceAndTestPortCommands := by
  unfold Obligations.ServiceAndTestPortCommands
  refine ⟨?commit, ?meter, ?locate, ?ledTest, ?tapReset, ?holds, ?frees, ?peek, ?peekHeld, ?meterSel⟩
  case commit =>
    rintro f s new t u hnext hrun rfl rfl
    change execLifeCycleCommit f s = _
    simp only [execLifeCycleCommit, hnext, hrun, ne_eq, not_true_eq_false, if_false]
  case meter =>
    intro reading s m hacc hlevel
    change execMeterRefresh reading s = _
    simp only [execMeterRefresh, hacc, hlevel, Bool.not_true, Bool.false_eq_true, if_false]
  case locate =>
    intro s e hlocate hrun hdue
    change execLocateEnd s = _
    simp only [execLocateEnd, hlocate, if_pos (And.intro hrun hdue)]
  case ledTest =>
    exact fun s hrun hon => congrArg Host.Outcome.next (if_neg (by simp [hrun, hon]))
  case tapReset => exact fun s => rfl
  case holds =>
    intro op s t ht hhold
    change execTapInstructionUpdate op s = _
    rw [execTapInstructionUpdate, ← ht]
    exact congrArg Host.Outcome.next (if_pos hhold)
  case frees =>
    intro op s t ht hfree
    change execTapInstructionUpdate op s = _
    rw [execTapInstructionUpdate, ← ht]
    exact congrArg Host.Outcome.next (if_neg (ne_true_of_eq_false hfree))
  case peek =>
    rintro addr s a m hpriv rfl hheld rfl
    change execPeekUpdate addr s = _
    simp only [execPeekUpdate, hpriv, hheld, tapRead, Bool.not_true, Bool.false_eq_true, if_false]
  case peekHeld =>
    rintro addr s a l hpriv rfl hheld
    change execPeekUpdate addr s = _
    simp only [execPeekUpdate, hpriv, hheld, Bool.not_true, Bool.false_eq_true, if_false]
  case meterSel => exact fun v s hpriv => congrArg Host.Outcome.next (if_pos hpriv)

/-- Settles O47, request by request: what remains of each is the answer of its body. -/
theorem resetAndPowerRequests : Obligations.ResetAndPowerRequests := by
  unfold Obligations.ResetAndPowerRequests
  refine ⟨?reset, ?funcReset, ?release, ?off, ?on, ?sleep⟩
  case reset =>
    rintro r s t hs rfl hf hp
    exact congrArg Host.Outcome.next (execReq_device_replies hs hf (lenIs_none (by simp [hp])) rfl)
  case funcReset =>
    rintro r s t hs rfl hdef hnz hlen hok hrule
    have hfunc : (funcDefined r.func.toNat && r.func.toNat != 0) = true := by simp [hdef, hnz]
    by_cases hself : throughSelf r = true
    · rw [if_pos hself]
      refine congrArg Host.Outcome.next (execReq_replies hs hfunc (lenIs_none hlen) rfl ?_)
      simp only [hok, hself, hrule, if_true]
    · rw [if_neg hself]
      refine congrArg Host.Outcome.next (execReq_defers hs hfunc (lenIs_none hlen) rfl ?_)
      simp only [hok, if_neg hself, deferIf_defers hrule]
  case release =>
    rintro r s t hs rfl hdef hnz hp hheld hrule
    have hfunc : (funcDefined r.func.toNat && r.func.toNat != 0) = true := by simp [hdef, hnz]
    refine congrArg Host.Outcome.next (execReq_defers hs hfunc (lenIs_none (by simp [hp])) rfl ?_)
    rw [hheld, Bool.not_true, if_neg Bool.false_ne_true, deferIf_defers hrule]
  case off =>
    rintro r s t d hs rfl hf hlen rfl hd hv hok hoff
    have hfields : firstBad (chk (decide (byteAt r.params 0 ≤ 29)) 0) (chk (decide (byteAt r.params 1 ≤ 1)) 1) = none := by
      simp [firstBad, chk, hd, hv]
    refine congrArg Host.Outcome.next (execReq_device_replies hs hf ((if_pos hlen).trans hfields) ?_)
    simp [hok, hv, hoff]
  case on =>
    rintro r s t d hs rfl hf hlen rfl hd hv hok hon
    have hfields : firstBad (chk (decide (byteAt r.params 0 ≤ 29)) 0) (chk (decide (byteAt r.params 1 ≤ 1)) 1) = none := by
      simp [firstBad, chk, hd, hv]
    refine congrArg Host.Outcome.next (execReq_device_replies hs hf ((if_pos hlen).trans hfields) ?_)
    simp [hok, hv, hon]
  case sleep =>
    rintro r s t hs rfl hf hp hidle
    exact congrArg Host.Outcome.next (execReq_device_replies hs hf (lenIs_none (by simp [hp])) (if_neg hidle))

section lifeCycle

variable {op : Nat} {r : Req} {s t u : State} {low : Bool} {new : Fin 5} {ok : State → Bool}

/-- 17 R475: with the right word and its conditions met, a life-cycle command is accepted: its record is burned at the commit. -/
theorem lcRequest_accepted (hu : u = if tapHold s then s else setPw (fun p => { p with svcLow := low }) s)
    (hs : Serves op u) (ht : t = takeMgmt op r u) (hf : r.func = 0) (hn : r.params.length = 4)
    (hword : beAt r.params 0 4 = Config.eui.toNat % 2 ^ 32) (hnext : t.pw.lcNext = none) (hok : ok t = true)
    (hroom : new ≠ 4 → t.fuse.records.length < 31) :
    lcRequest op new r low ok s = sendReply op r stDone [] (setPw (fun p => { p with lcNext := some new }) t) := by
  subst ht
  unfold lcRequest
  rw [← hu]
  refine execReq_replies hs (beq_iff_eq.mpr hf) (lenAnd_chk_none hn (beq_iff_eq.mpr hword)) rfl ?_
  rw [hnext, hok, Option.isSome_none, Bool.not_true, Bool.or_self, if_neg Bool.false_ne_true,
    if_neg (fun h => absurd (hroom h.1) (not_lt.mpr h.2))]

end lifeCycle

/-- Settles O48, request by request. -/
theorem lifeCycleRequests : Obligations.LifeCycleRequests := by
  unfold Obligations.LifeCycleRequests
  refine ⟨?provision, ?commit, ?service, ?backInUse, ?retire⟩
  case provision =>
    intro r low s u t hu hs ht hf hn hword hnext hvia hlc hkek hroom
    exact congrArg Host.Outcome.next (lcRequest_accepted hu hs ht hf hn hword hnext (by simp [hvia, hlc, hkek]) fun _ => hroom)
  case commit =>
    intro r low s u t hu hs ht hf hn hword hnext hvia hlc hnet hroom
    exact congrArg Host.Outcome.next (lcRequest_accepted hu hs ht hf hn hword hnext (by simp [hvia, hlc, hnet]) fun _ => hroom)
  case service =>
    intro r low s u t hu hs ht hf hn hword hnext hvia hlc hlow hroom
    exact congrArg Host.Outcome.next (lcRequest_accepted hu hs ht hf hn hword hnext (by simp [hvia, hlc, hlow]) fun _ => hroom)
  case backInUse =>
    intro r low s u t hu hs ht hf hn hword hnext hvia hlc hhigh hgens hroom
    exact congrArg Host.Outcome.next
      (lcRequest_accepted hu hs ht hf hn hword hnext (by simp [hvia, hlc, hhigh, hgens]) fun _ => hroom)
  case retire =>
    intro r low s u t hu hs ht hf hn hword hnext hvia
    exact congrArg Host.Outcome.next
      (lcRequest_accepted hu hs ht hf hn hword hnext (by simpa using hvia) fun h => absurd rfl h)

end Sys2Proof.Machine
end

section
/-!
PROOF. The path of a request and of its reply (14 R387, R391 to R400) writes the queues, the event records, the serial ports, the
host links, the command store and three objects: what it leaves alone, every request that only reads leaves alone.
-/
namespace Sys2Proof.Machine

/-- A property of states that survives what the path of a request and its reply writes. -/
structure Passage where
  holds : State → Prop
  store : ∀ {s}, holds s → ∀ queues ev con chain hl cmd shadow out, holds { s with
    queues := queues, ev := ev, con := con, chain := chain, hl := hl, cmd := cmd, shadow := shadow, out := out }
  dropCount : ∀ {s}, holds s → ∀ v, holds (setObj 0x78 0xE0A v s)
  oversizeCount : ∀ {s}, holds s → ∀ v, holds (setObj 0 0xF20 v s)
  conCfg : ∀ {s}, holds s → ∀ v, holds (setObj 0x68 0xB00 v s)

namespace Passage

variable {P : Passage} {s : State}

-- How programs over the state are put together.

theorem ite {c : Prop} [Decidable c] {a b : State} (ha : P.holds a) (hb : P.holds b) : P.holds (if c then a else b) := by
  split
  · exact ha
  · exact hb

theorem onThen {c : Prop} [Decidable c] {a : State} (ha : P.holds s → P.holds a) (h : P.holds s) :
    P.holds (if c then a else s) :=
  ite (ha h) h

theorem onElse {c : Prop} [Decidable c] {a : State} (ha : P.holds s → P.holds a) (h : P.holds s) :
    P.holds (if c then s else a) :=
  ite h (ha h)

theorem ite_fst {α : Type} {c : Prop} [Decidable c] {a b : State × α} (ha : P.holds a.1) (hb : P.holds b.1) :
    P.holds (if c then a else b).1 := by
  split
  · exact ha
  · exact hb

theorem foldl {α : Type} {f : State → α → State} {l : List α} (hf : ∀ s a, P.holds s → P.holds (f s a)) (h : P.holds s) :
    P.holds (l.foldl f s) := by
  induction l generalizing s with
  | nil => exact h
  | cons a l ih => exact ih (hf s a h)

-- Events that the queues raise (10 R295, R302).

theorem srcStore {r : EvRec} (h : P.holds s) : P.holds (srcStore r s) :=
  ite (P.store h ..) (P.dropCount (P.store h ..) _)

theorem raise {src func : Nat} {e : Ev} {data : Bytes} (he : e ≠ .faultUnabsorbed) (h : P.holds s) :
    P.holds (raise src func e data s) := by
  unfold Machine.raise noteUnabsorbed
  rw [if_neg he]
  exact srcStore h

-- Queues (10 R288 to R303).

theorem setQ {q : Nat} {v : Que} (h : P.holds s) : P.holds (setQ q v s) := P.store h ..

theorem putQ {qid : Nat} {q : Que} (h : P.holds s) : P.holds (putQ qid q s) := ite (raise nofun (setQ h)) (setQ h)

theorem qOversize {qid n : Nat} (h : P.holds s) : P.holds (qOversize qid n s) := raise nofun (P.oversizeCount (putQ h) _)

theorem qPush {qid client : Nat} {mark : Bool} {tag : Nat} {data : Bytes} (h : P.holds s) :
    P.holds (qPush qid client mark tag data s).1 :=
  ite_fst h (ite_fst (putQ h) (ite_fst (putQ h) (ite_fst (qOversize h) h)))

theorem qPop {qid : Nat} {p : Pkt} {t : State} (he : qPop qid s = some (p, t)) (h : P.holds s) : P.holds t := by
  dsimp only [Machine.qPop] at he
  split at he
  · cases he
  · cases he
    exact putQ h

theorem qPass {qid client tag : Nat} {data : Bytes} (h : P.holds s) : P.holds (qPass qid client tag data s).1 := by
  unfold Machine.qPass
  extract_lets
  split
  · exact qPop ‹_› (qPush h)
  · exact qPush h

theorem qWord {qid w : Nat} (h : P.holds s) : P.holds (qWord qid w s).1 := by
  unfold Machine.qWord
  refine ite_fst h (ite_fst (putQ h) ?_)
  split
  · exact ite_fst (setQ h) h
  · exact h

theorem qStream {qid : Nat} {ws : List Nat} (h : P.holds s) : P.holds (qStream qid ws s).1 :=
  ite_fst h (ite_fst (ite (setQ h) h) (putQ (putQ h)))

-- What carries a reply to its source (14 R391, R392, R395, 16 R447).

theorem hostLeaves {l : Nat} {dst : BitVec 48} {vlan : Option (BitVec 12)} {pkt : Bytes} (h : P.holds s) :
    P.holds (hostLeaves l dst vlan pkt s) :=
  P.store (qStream h) ..

theorem hostWaits {l : Nat} {dst : BitVec 48} {vlan : Option (BitVec 12)} {pkt : Bytes} (h : P.holds s) :
    P.holds (hostWaits l dst vlan pkt s) :=
  P.store (ite (qPush h) h) ..

theorem hostSend {l : Nat} {dst : BitVec 48} {vlan : Option (BitVec 12)} {pkt : Bytes} (h : P.holds s) :
    P.holds (hostSend l dst vlan pkt s) := by
  unfold Machine.hostSend
  refine ite h (ite (hostWaits h) ?_)
  extract_lets
  split
  · exact hostLeaves (qPass h)
  · exact hostWaits (qPass h)
  · exact qPass h

theorem conHold {x : Byte} (h : P.holds s) : P.holds (conHold s x) := ite (qWord h) (P.store h ..)

theorem conSend {b : Bytes} (h : P.holds s) : P.holds (conSend b s) :=
  ite h (ite (foldl (fun _ _ => conHold) h) (P.store h ..))

theorem adopt_conCfg (h : P.holds s) : P.holds (adopt 0x68 0xB00 s) := by
  unfold adopt
  split
  · exact h
  · exact P.conCfg (P.store h ..) _

theorem conPrompt (h : P.holds s) : P.holds (conPrompt s) := ite (P.store (adopt_conCfg (conSend h)) ..) (conSend h)

theorem conReply {tag func status : Nat} {params pkt : Bytes} (h : P.holds s) :
    P.holds (conReply tag func status params pkt s) := by
  have prompted {t : State} (ht : P.holds t) : P.holds (if t.con.asked.isEmpty then Machine.conPrompt t else t) :=
    ite (conPrompt ht) ht
  unfold Machine.conReply
  refine ite (conSend h) ?_
  split
  · exact conSend h
  · refine prompted ?_
    split
    · exact conSend (P.store h ..)
    · exact P.store h ..

theorem deliver {src : Source} {tag func status : Nat} {params pkt : Bytes} (h : P.holds s) :
    P.holds (deliver src tag func status params pkt s) := by
  unfold Machine.deliver
  split
  · split
    · exact hostSend (qPass h)
    · exact h
  · exact conReply h
  · exact P.store h ..
  · exact qPush (qPass h)

theorem sendReply {op : Nat} {r : Req} {status : W16} {params : Bytes} (h : P.holds s) :
    P.holds (sendReply op r status params s) :=
  ite (P.store h ..) (deliver (P.store h ..))

-- What takes a request from its queue (14 R396).

theorem mgmtJoins (h : P.holds s) : P.holds (mgmtJoins s) := by
  unfold Machine.mgmtJoins
  split
  · exact h
  · exact ite (P.store (qPush h) ..) h

theorem mgmtRefill (h : P.holds s) : P.holds (mgmtRefill s) := foldl (fun _ _ => mgmtJoins) h

theorem takeMgmt {op : Nat} {r : Req} (h : P.holds s) : P.holds (takeMgmt op r s) := by
  unfold Machine.takeMgmt
  split
  · rename_i rest _
    have taken : P.holds { s with cmd := { s.cmd with mgmt := rest } } := P.store h ..
    refine ite ?_ h
    dsimp only
    split
    · exact mgmtRefill (qPop ‹_› taken)
    · exact taken
  · exact h

end Passage

section read

variable {s t : State}

/-- An answer that replies, and leaves the state as it was. -/
def RepliesOn (t : State) (a : Ans) : Prop := ∃ st p, a = .reply st p t

theorem repliesOn_reply {st : W16} {p : Bytes} : RepliesOn t (.reply st p t) := ⟨st, p, rfl⟩

theorem repliesOn_refuse {st : W16} {d : Nat} : RepliesOn t (refuse st d t) := ⟨st, beBytes 4 d, rfl⟩

theorem repliesOn_ite {c : Prop} [Decidable c] {a b : Ans} (ha : RepliesOn t a) (hb : RepliesOn t b) :
    RepliesOn t (if c then a else b) := by
  split
  · exact ha
  · exact hb

/-- A request whose body leaves the state alone keeps what its path and that of its reply keep. -/
theorem Passage.execReq {P : Passage} {op : Nat} {r : Req} {okFunc down : Bool} {bad : Option Nat} {body : State → Ans}
    (hbody : ∀ t, RepliesOn t (body t)) (h : P.holds s) : P.holds (execReq op r okFunc bad down body s) := by
  unfold Machine.execReq
  refine ite h ?_
  have ht : P.holds (Machine.takeMgmt op r s) := takeMgmt h
  generalize Machine.takeMgmt op r s = t at ht
  extract_lets _ a
  have answered : RepliesOn t a := by
    refine repliesOn_ite repliesOn_refuse ?_
    split
    · exact repliesOn_refuse
    · exact repliesOn_ite repliesOn_refuse (repliesOn_ite repliesOn_refuse (hbody t))
  obtain ⟨st, p, ha⟩ := answered
  rw [ha]
  exact sendReply ht

/-- The objects that the path of a request and its reply may write: EVT_LOST, the count of oversize packets, CON_CFG. -/
def OnPath (func id : Nat) : Prop := (func, id) = (0x78, 0xE0A) ∨ (func, id) = (0x68, 0xB00) ∨ (func, id) = (0, 0xF20)

/-- The units of the device, the service indicators and every object off the path agree with those of s. -/
def AgreesOffPath (s t : State) : Prop :=
  sameUnits s t ∧ t.svc = s.svc ∧ ∀ func id, id < 65536 → ¬ OnPath func id → getObj t func id = getObj s func id

/-- An object on the path is stored under the key of no object off it. -/
theorem okey_ne_of_onPath {func id f i : Nat} (hid : id < 65536) (hi : i < 65536) (hoff : ¬ OnPath func id)
    (hon : OnPath f i) : okey func id ≠ okey f i := by
  intro hkey
  unfold okey at hkey
  obtain ⟨rfl, rfl⟩ : func = f ∧ id = i := by omega
  exact hoff hon

theorem agreesOffPath_setObj {f i : Nat} {v : W32} (hi : i < 65536) (hon : OnPath f i) (h : AgreesOffPath s t) :
    AgreesOffPath s (setObj f i v t) := by
  obtain ⟨units, service, objects⟩ := h
  exact ⟨units, service, fun func id hid hoff =>
    (getObj_setObj_other (okey_ne_of_onPath hid hi hoff hon)).trans (objects func id hid hoff)⟩

/-- To agree with a state off the path survives the path. -/
def offPathOf (s : State) : Passage where
  holds := AgreesOffPath s
  store h _ _ _ _ _ _ _ _ := h
  dropCount h _ := agreesOffPath_setObj (by decide) (.inl rfl) h
  oversizeCount h _ := agreesOffPath_setObj (by decide) (.inr (.inr rfl)) h
  conCfg h _ := agreesOffPath_setObj (by decide) (.inr (.inl rfl)) h

theorem offPathOf_self (s : State) : (offPathOf s).holds s :=
  ⟨⟨rfl, rfl, rfl, rfl, rfl, rfl, rfl, rfl, rfl, rfl, rfl, rfl, rfl, rfl, rfl, rfl, rfl, rfl, rfl, rfl, rfl⟩, rfl,
    fun _ _ _ _ => rfl⟩

/-- The requests that only read run the flow of requests with a body that replies and leaves the state alone. -/
theorem readRow_execReq {r : Req} {c : Instr} (hc : ReadRow r c) (s : State) :
    ∃ op okFunc bad down body, (∀ t, RepliesOn t (body t))
      ∧ exec c s = .next (execReq op r okFunc bad down body s) := by
  revert hc
  simp only [ReadRow, List.mem_cons, List.not_mem_nil, or_false, or_imp]
  refine ⟨?ping, ?identify, ?mask, ?sounding, ?shape, ?bbReport, ?snr, ?noise, ?decoded, ?nbReport, ?level, ?node, ?find,
    ?map, ?route, ?schedule, ?dest, ?key, ?graft, ?bin, ?trace, ?meas, ?events, ?block⟩
  all_goals
    rintro rfl
    refine ⟨_, _, _, _, _, fun t => ?_, rfl⟩
  case ping | identify | mask | shape | noise | level | dest | graft | bin | events | block => exact repliesOn_reply
  case key | trace | meas => exact repliesOn_ite repliesOn_refuse repliesOn_reply
  case route => exact repliesOn_ite repliesOn_refuse repliesOn_reply
  case node => exact repliesOn_ite repliesOn_reply repliesOn_refuse
  case snr =>
    split
    · exact repliesOn_refuse
    · exact repliesOn_reply
  case sounding | bbReport | decoded | nbReport | find | map | schedule =>
    split
    · exact repliesOn_reply
    · exact repliesOn_refuse

end read

/-- Settles O12: a request that only reads writes no more than its path and that of its reply. -/
theorem readRequestsLeaveTheUnitsAlone : Obligations.ReadRequestsLeaveTheUnitsAlone := by
  unfold Obligations.ReadRequestsLeaveTheUnitsAlone
  intro r s t c hc hexec
  obtain ⟨op, okFunc, bad, down, body, hbody, hrun⟩ := readRow_execReq hc s
  obtain rfl : execReq op r okFunc bad down body s = t := Host.Outcome.next.inj (hrun.symm.trans hexec)
  obtain ⟨units, service, objects⟩ : AgreesOffPath s _ := (offPathOf s).execReq hbody (offPathOf_self s)
  refine ⟨units, service, fun func id hid hlost hcfg hover => objects func id hid ?_⟩
  exact not_or.mpr ⟨hlost, not_or.mpr ⟨hcfg, hover⟩⟩

end Sys2Proof.Machine
end

section
/-!
PROOF. The instruction of the test access port (19 R498, R499): only the port itself and the supply write it. For each function
that a reset or a restart of the management controller runs, one lemma says that the instruction stays; most setters need none.
-/
namespace Sys2Proof.Machine

/-- The instruction register of the test access port holds ir, which survives the path of a request and its reply. -/
def tapPath (ir : BitVec 6) : Passage where
  holds s := s.svc.tapIr = ir
  store h _ _ _ _ _ _ _ _ := h
  dropCount h _ := h
  oversizeCount h _ := h
  conCfg h _ := h

/-- The instruction register of the test access port holds ir. -/
def TapIs (ir : BitVec 6) (s : State) : Prop := (tapPath ir).holds s

section walk

variable {ir : BitVec 6} {s : State}

-- How programs over the state are put together, and the path of a reply.

theorem ite_tapIr {c : Prop} [Decidable c] {a b : State} (ha : TapIs ir a) (hb : TapIs ir b) :
    TapIs ir (if c then a else b) :=
  Passage.ite (P := tapPath ir) ha hb

theorem onThen_tapIr {c : Prop} [Decidable c] {a : State} (ha : TapIs ir s → TapIs ir a) (h : TapIs ir s) :
    TapIs ir (if c then a else s) :=
  ite_tapIr (ha h) h

theorem onElse_tapIr {c : Prop} [Decidable c] {a : State} (ha : TapIs ir s → TapIs ir a) (h : TapIs ir s) :
    TapIs ir (if c then s else a) :=
  ite_tapIr h (ha h)

theorem foldl_tapIr {α : Type} {f : State → α → State} {l : List α} (hf : ∀ s a, TapIs ir s → TapIs ir (f s a))
    (h : TapIs ir s) : TapIs ir (l.foldl f s) :=
  Passage.foldl (P := tapPath ir) hf h

theorem srcStore_tapIr {r : EvRec} (h : TapIs ir s) : TapIs ir (srcStore r s) := Passage.srcStore (P := tapPath ir) h

theorem putQ_tapIr {qid : Nat} {q : Que} (h : TapIs ir s) : TapIs ir (putQ qid q s) := Passage.putQ (P := tapPath ir) h

theorem qPush_tapIr {qid client : Nat} {mark : Bool} {tag : Nat} {data : Bytes} (h : TapIs ir s) :
    TapIs ir (qPush qid client mark tag data s).1 :=
  Passage.qPush (P := tapPath ir) h

theorem qPop_tapIr {qid : Nat} {p : Pkt} {t : State} (he : qPop qid s = some (p, t)) (h : TapIs ir s) : TapIs ir t :=
  Passage.qPop (P := tapPath ir) he h

theorem qPass_tapIr {qid client tag : Nat} {data : Bytes} (h : TapIs ir s) : TapIs ir (qPass qid client tag data s).1 :=
  Passage.qPass (P := tapPath ir) h

theorem hostLeaves_tapIr {l : Nat} {dst : BitVec 48} {vlan : Option (BitVec 12)} {pkt : Bytes} (h : TapIs ir s) :
    TapIs ir (hostLeaves l dst vlan pkt s) :=
  Passage.hostLeaves (P := tapPath ir) h

theorem sendReply_tapIr {op : Nat} {r : Req} {status : W16} {params : Bytes} (h : TapIs ir s) :
    TapIs ir (sendReply op r status params s) :=
  Passage.sendReply (P := tapPath ir) h

theorem mgmtRefill_tapIr (h : TapIs ir s) : TapIs ir (mgmtRefill s) := Passage.mgmtRefill (P := tapPath ir) h

-- Setters, where a proof has to look through one.

theorem setF_tapIr {func id hi lo v : Nat} (h : TapIs ir s) : TapIs ir (setF func id hi lo v s) := h

theorem emit_tapIr {o : OutItem} (h : TapIs ir s) : TapIs ir (emit o s) := h

theorem setWaiting_tapIr {w : List (Nat × BitVec 48 × Option (BitVec 12) × Bytes)} (h : TapIs ir s) :
    TapIs ir (setWaiting w s) := h

theorem setPort_tapIr {p : Nat} {f : PortSt → PortSt} (h : TapIs ir s) : TapIs ir (setPort p f s) := h

theorem setDec_tapIr {f : DecSt → DecSt} (h : TapIs ir s) : TapIs ir (setDec f s) := h

theorem setClo_tapIr {f : ClocheSt → ClocheSt} (h : TapIs ir s) : TapIs ir (setClo f s) := h

theorem engRest_tapIr {e : Nat} (h : TapIs ir s) : TapIs ir (engRest e s) := h

theorem setPw_tapIr {f : PowerSt → PowerSt} (h : TapIs ir s) : TapIs ir (setPw f s) := h

theorem setLk_tapIr {f : LinkSt → LinkSt} (h : TapIs ir s) : TapIs ir (setLk f s) := h

theorem setMeas_tapIr {f : MeasSt → MeasSt} (h : TapIs ir s) : TapIs ir (setMeas f s) := h

-- Objects, and the events of the sources.

theorem adopt_tapIr {func id : Nat} (h : TapIs ir s) : TapIs ir (adopt func id s) := by
  unfold adopt
  split <;> exact h

theorem adoptFunc_tapIr {func : Nat} (h : TapIs ir s) : TapIs ir (adoptFunc func s) :=
  foldl_tapIr (fun _ _ h => h) (foldl_tapIr (fun _ _ => onThen_tapIr adopt_tapIr) h)

theorem noteUnabsorbed_tapIr {e : Ev} (h : TapIs ir s) : TapIs ir (noteUnabsorbed e s) := ite_tapIr h h

theorem raise_tapIr {src func : Nat} {e : Ev} {data : Bytes} (h : TapIs ir s) : TapIs ir (raise src func e data s) :=
  noteUnabsorbed_tapIr (srcStore_tapIr h)

theorem qFault_tapIr {qid dom ptr first second : Nat} (h : TapIs ir s) : TapIs ir (qFault qid dom ptr first second s) :=
  raise_tapIr (putQ_tapIr h)

theorem hostNext_tapIr {l : Nat} (h : TapIs ir s) : TapIs ir (hostNext l s) := by
  unfold hostNext
  split
  · exact h
  · refine ite_tapIr h ?_
    extract_lets
    split
    · exact hostLeaves_tapIr (qPop_tapIr ‹_› (setWaiting_tapIr h))
    · exact hostLeaves_tapIr (qPass_tapIr h)

theorem hostDrain_tapIr {l : Nat} (h : TapIs ir s) : TapIs ir (hostDrain l s) := foldl_tapIr (fun _ _ => hostNext_tapIr) h

theorem failRequests_tapIr (h : TapIs ir s) : TapIs ir (failRequests s) :=
  mgmtRefill_tapIr (foldl_tapIr (fun _ _ => sendReply_tapIr) h)

theorem setMirLoc_tapIr {x v : Nat} (h : TapIs ir s) : TapIs ir (setMirLoc x v s) := ite_tapIr h h

theorem placeHalf_tapIr {x : Nat} (h : TapIs ir s) : TapIs ir (placeHalf x s) := by
  unfold placeHalf
  split
  · exact h
  · extract_lets _ s2
    have h2 : TapIs ir s2 := setMirLoc_tapIr h
    exact h2

theorem abandonHalf_tapIr {r : Nat} (h : TapIs ir s) : TapIs ir (abandonHalf r s) :=
  foldl_tapIr (fun _ _ h => ite_tapIr (raise_tapIr (setMirLoc_tapIr h)) h) h

theorem placeHalves_tapIr (h : TapIs ir s) : TapIs ir (placeHalves s) :=
  foldl_tapIr (fun _ _ => onThen_tapIr placeHalf_tapIr) h

theorem bankFailing_tapIr {r b : Nat} {answers : Bool} (h : TapIs ir s) : TapIs ir (bankFailing r b answers s) := by
  unfold bankFailing
  have abandoned {c : Prop} [Decidable c] : TapIs ir (if c then abandonHalf r s else s) := onThen_tapIr abandonHalf_tapIr h
  refine ite_tapIr h (ite_tapIr (placeHalves_tapIr (raise_tapIr (onElse_tapIr id abandoned))) (ite_tapIr (ite_tapIr h h) ?_))
  split
  · exact placeHalves_tapIr (onElse_tapIr id abandoned)
  · exact raise_tapIr (ite_tapIr h h)

theorem correctedWord_tapIr {r b line word : Nat} (h : TapIs ir s) : TapIs ir (correctedWord r b line word s) :=
  onThen_tapIr bankFailing_tapIr h

theorem wordLost_tapIr {r b line word client : Nat} (h : TapIs ir s) : TapIs ir (wordLost r b line word client s) := by
  unfold wordLost
  refine raise_tapIr ?_
  split
  · split <;> exact h
  · exact h

theorem wordsLost_tapIr {r b : Nat} {bad : List (Fin 2048 × Fin 8)} (h : TapIs ir s) : TapIs ir (wordsLost r b bad s) :=
  foldl_tapIr (fun _ _ => wordLost_tapIr) h

theorem uncorrectable_tapIr {r b line word client : Nat} (h : TapIs ir s) :
    TapIs ir (uncorrectable r b line word client s) :=
  bankFailing_tapIr (wordLost_tapIr h)

theorem windowFault_tapIr {client a : Nat} {write : Bool} (h : TapIs ir s) : TapIs ir (windowFault client a write s) :=
  raise_tapIr h

theorem packetPut_tapIr {a : Nat} {b : Byte} (h : TapIs ir s) : TapIs ir (packetPut a b s) := by
  unfold packetPut
  split <;> exact h

theorem trWrite_tapIr {a : Nat} {data : Bytes} (h : TapIs ir s) : TapIs ir (trWrite a data s) :=
  ite_tapIr h (ite_tapIr (foldl_tapIr (fun _ _ => packetPut_tapIr) h) h)

theorem binsCleared_tapIr {lo hi : Nat} (h : TapIs ir s) : TapIs ir (binsCleared lo hi s) := ite_tapIr h h

theorem wipesBegin_tapIr (h : TapIs ir s) : TapIs ir (wipesBegin s) :=
  foldl_tapIr (fun _ _ h => ite_tapIr h (onElse_tapIr id (binsCleared_tapIr h))) h

theorem wipeDone_tapIr (h : TapIs ir s) : TapIs ir (wipeDone s) := raise_tapIr (foldl_tapIr (fun _ _ h => ite_tapIr h h) h)

theorem bankSwitch_tapIr {r : Nat} {bad : List (Fin 2048 × Fin 8)} (h : TapIs ir s) : TapIs ir (bankSwitch r bad s) := by
  unfold bankSwitch
  extract_lets
  split
  · exact h
  · exact ite_tapIr h (wipesBegin_tapIr (raise_tapIr (onThen_tapIr id (onThen_tapIr id (onThen_tapIr wordsLost_tapIr h)))))

theorem coreCopies_tapIr {sev : Nat} {rec : Bytes} (h : TapIs ir s) : TapIs ir (coreCopies sev rec s) :=
  foldl_tapIr (fun _ _ h => ite_tapIr (ite_tapIr (qPush_tapIr (qPass_tapIr h)) h) h) h

theorem storeRecord_tapIr {esn : Nat} {r : EvRec} (h : TapIs ir s) : TapIs ir (storeRecord esn r s) := by
  unfold storeRecord
  extract_lets _ _ s3
  have h3 : TapIs ir s3 := onThen_tapIr id (trWrite_tapIr h)
  exact coreCopies_tapIr (ite_tapIr h3 h3)

theorem epochStart_tapIr {r : EvRec} (h : TapIs ir s) : TapIs ir (epochStart r s) := storeRecord_tapIr h

theorem issue_tapIr {r : EvRec} (h : TapIs ir s) : TapIs ir (issue r s) := by
  unfold issue
  split
  · exact storeRecord_tapIr (epochStart_tapIr h)
  · exact ite_tapIr (storeRecord_tapIr (epochStart_tapIr h)) (storeRecord_tapIr h)

theorem fadeDone_tapIr {p : Nat} (h : TapIs ir s) : TapIs ir (fadeDone p s) := ite_tapIr h h

theorem setDriver_tapIr {p : Nat} {nb on : Bool} (h : TapIs ir s) : TapIs ir (setDriver p nb on s) :=
  onElse_tapIr (onThen_tapIr fadeDone_tapIr) (setF_tapIr (onElse_tapIr setPort_tapIr (setPort_tapIr h)))

theorem driverOff_tapIr {p : Nat} (h : TapIs ir s) : TapIs ir (driverOff p s) := by
  unfold driverOff
  exact setDriver_tapIr (setDriver_tapIr (by split; exacts [setPort_tapIr h, h]))

theorem loadPreset_tapIr {p : Nat} {bankB : Bool} {id : Nat} (h : TapIs ir s) : TapIs ir (loadPreset p bankB id s) :=
  ite_tapIr h h

theorem giveBankB_tapIr {p : Nat} (h : TapIs ir s) : TapIs ir (giveBankB p s) := ite_tapIr h h

theorem sieveReset_tapIr {p : Nat} (h : TapIs ir s) : TapIs ir (sieveReset p s) := foldl_tapIr (fun _ _ h => h) h

theorem nSet_tapIr {n off len v : Nat} (h : TapIs ir s) : TapIs ir (nSet n off len v s) := ite_tapIr h h

theorem setMapRef_tapIr {n r : Nat} {v : Option Nat} (h : TapIs ir s) : TapIs ir (setMapRef n r v s) := nSet_tapIr h

theorem dropMap_tapIr {n dir idx : Nat} (h : TapIs ir s) : TapIs ir (dropMap n dir idx s) := by
  unfold dropMap
  split
  · exact h
  · exact setMapRef_tapIr h

theorem drbgHalts_tapIr (h : TapIs ir s) : TapIs ir (drbgHalts s) := ite_tapIr h (raise_tapIr (raise_tapIr h))

theorem drbgSpent_tapIr (h : TapIs ir s) : TapIs ir (drbgSpent s) := onThen_tapIr drbgHalts_tapIr h

theorem drawBytes_tapIr {n : Nat} (h : TapIs ir s) : TapIs ir (drawBytes n s).2 := drbgSpent_tapIr h

theorem drawMask_tapIr (h : TapIs ir s) : TapIs ir (drawMask s) := ite_tapIr h (drawBytes_tapIr h)

theorem dropTx_tapIr {f : TxFrame} (h : TapIs ir s) : TapIs ir (dropTx f s) := by
  unfold dropTx
  extract_lets
  split
  · exact putQ_tapIr h
  · exact h

theorem moveVa_tapIr {n : Nat} (h : TapIs ir s) : TapIs ir (moveVa n s) := nSet_tapIr h

theorem testEnds_tapIr {p : Nat} (h : TapIs ir s) : TapIs ir (testEnds p s) := giveBankB_tapIr (driverOff_tapIr h)

theorem residualNoise_tapIr {f : RxFrame} (h : TapIs ir s) : TapIs ir (residualNoise f s) :=
  foldl_tapIr (fun _ _ h => foldl_tapIr (fun _ _ h => foldl_tapIr (fun _ _ => onElse_tapIr id) h) h) h

theorem recomputeCap_tapIr (h : TapIs ir s) : TapIs ir (recomputeCap s) :=
  ite_tapIr (onElse_tapIr raise_tapIr h) (onThen_tapIr raise_tapIr h)

theorem phyPorts_tapIr {ps : List Nat} {mon : List (Nat × Nat)} (h : TapIs ir s) : TapIs ir (phyPorts ps mon s) := by
  unfold phyPorts
  extract_lets _ best _ s4
  have h4 : TapIs ir s4 := foldl_tapIr (fun _ _ h => h) (foldl_tapIr (fun _ _ h => h) h)
  clear_value best
  split <;> exact h4

theorem failedQuality_tapIr {n lqi : Nat} {pl ps : List Nat} {mon : List (Nat × Nat)} (h : TapIs ir s) :
    TapIs ir (failedQuality n lqi pl ps mon s) :=
  ite_tapIr h (phyPorts_tapIr (nSet_tapIr (foldl_tapIr (fun _ _ => nSet_tapIr) h)))

theorem keepReport_tapIr {f : RxFrame} {ok : Bool} {lqi evm : Nat} {pl : List Nat} (h : TapIs ir s) :
    TapIs ir (keepReport f ok lqi evm pl s) :=
  foldl_tapIr (fun _ _ h => h) h

theorem takeSnr_tapIr {f : RxFrame} {q : FrameQuality} (h : TapIs ir s) : TapIs ir (takeSnr f q s) := ite_tapIr h h

theorem countFail_tapIr {f : RxFrame} (h : TapIs ir s) : TapIs ir (countFail f s) := onThen_tapIr dropMap_tapIr h

theorem frameLost_tapIr {f : RxFrame} {lqi : Nat} {pl : List Nat} {mon : List (Nat × Nat)} (h : TapIs ir s) :
    TapIs ir (frameLost f lqi pl mon s) :=
  onThen_tapIr id (onThen_tapIr countFail_tapIr (onThen_tapIr id (failedQuality_tapIr h)))

theorem frameEnd_tapIr {f : RxFrame} (h : TapIs ir s) : TapIs ir (frameEnd f s) := by
  unfold frameEnd
  extract_lets _ _ _ _ _ _ _ s8 _ _ s11
  have h8 : TapIs ir s8 := onThen_tapIr residualNoise_tapIr h
  clear_value s8
  have h11 : TapIs ir s11 := by
    unfold s11
    split
    · exact h8
    · exact takeSnr_tapIr (keepReport_tapIr h8)
  exact setF_tapIr (setF_tapIr (ite_tapIr h11 (frameLost_tapIr h11)))

theorem maybeEnd_tapIr {f : RxFrame} (h : TapIs ir s) : TapIs ir (maybeEnd f s) := ite_tapIr (frameEnd_tapIr h) h

theorem takeoverReset_tapIr {c : Nat} (h : TapIs ir s) : TapIs ir (takeoverReset c s) := by
  unfold takeoverReset
  extract_lets s1
  have h1 : TapIs ir s1 := by
    unfold s1
    split <;> exact h
  exact h1

theorem leaveDue_tapIr (h : TapIs ir s) : TapIs ir (leaveDue s) :=
  foldl_tapIr (fun _ _ => onThen_tapIr takeoverReset_tapIr) h

theorem restartOn_tapIr {cl : Nat} {sp : Option Nat} (h : TapIs ir s) : TapIs ir (restartOn cl sp s) :=
  setDec_tapIr (onElse_tapIr setF_tapIr h)

theorem takeover_tapIr {cl : Nat} (h : TapIs ir s) : TapIs ir (takeover cl s).1 := by
  unfold takeover
  split
  · rename_i sp _
    exact restartOn_tapIr (sp := some sp) h
  · exact restartOn_tapIr (sp := none) h

theorem clusterFault_tapIr {c unit err : Nat} (h : TapIs ir s) : TapIs ir (clusterFault c unit err s) := by
  unfold clusterFault
  refine ite_tapIr h ?_
  extract_lets s1
  have h1 : TapIs ir s1 := h
  exact ite_tapIr (onThen_tapIr raise_tapIr (raise_tapIr (recomputeCap_tapIr (takeover_tapIr h1))))
    (raise_tapIr h1)

theorem setLane_tapIr {l2d : Bool} {i : Nat} {v : LaneSt} (h : TapIs ir s) : TapIs ir (setLane l2d i v s) := ite_tapIr h h

theorem laneFault_tapIr {l2d : Bool} {lane : Nat} (h : TapIs ir s) : TapIs ir (laneFault l2d lane s) := by
  unfold laneFault
  refine ite_tapIr h (onThen_tapIr raise_tapIr (raise_tapIr ?_))
  split
  · exact setLane_tapIr (setLane_tapIr h)
  · exact setLane_tapIr h

theorem retireSpareLane_tapIr {l2d : Bool} {i : Nat} (h : TapIs ir s) : TapIs ir (retireSpareLane l2d i s) :=
  ite_tapIr (raise_tapIr (setLane_tapIr h)) h

theorem queueLoses_tapIr {q : Nat} (h : TapIs ir s) : TapIs ir (queueLoses q s) :=
  ite_tapIr (failRequests_tapIr h) (ite_tapIr h (ite_tapIr (foldl_tapIr (fun _ _ h => moveVa_tapIr
    (dropTx_tapIr h)) h) h))

theorem queueReset_tapIr {q dom ptr first second : Nat} (h : TapIs ir s) :
    TapIs ir (queueReset q dom ptr first second s) :=
  qFault_tapIr (queueLoses_tapIr h)

theorem startTrial_tapIr {d : Delivered} (h : TapIs ir s) : TapIs ir (startTrial d s) := foldl_tapIr (fun _ _ h => h) h

theorem coreDone_tapIr {n a : Nat} {st : W16} (h : TapIs ir s) : TapIs ir (coreDone n a st s) := ite_tapIr h h

theorem unsealable_tapIr {id : Nat} (h : TapIs ir s) : TapIs ir (unsealable id s) := by
  unfold unsealable
  split
  · exact h
  · exact ite_tapIr h (dropTx_tapIr h)

theorem retireEngine_tapIr {e err : Nat} (h : TapIs ir s) : TapIs ir (retireEngine e err s) := raise_tapIr h

theorem setTrng_tapIr {k v : Nat} (h : TapIs ir s) : TapIs ir (setTrng k v s) := ite_tapIr h h

theorem startTest_tapIr {src : Nat} {bits : List Bool} (h : TapIs ir s) : TapIs ir (startTest src bits s) :=
  ite_tapIr (raise_tapIr (setTrng_tapIr h)) h

theorem abortRun_tapIr {r : EngRun} (h : TapIs ir s) : TapIs ir (abortRun r s) := by
  unfold abortRun
  split
  · exact unsealable_tapIr h
  · exact h
  · exact h
  · exact sendReply_tapIr h
  · exact coreDone_tapIr h

theorem abortRuns_tapIr (h : TapIs ir s) : TapIs ir (abortRuns s) :=
  foldl_tapIr (fun _ _ => onThen_tapIr engRest_tapIr) (foldl_tapIr (fun _ _ => abortRun_tapIr) (setClo_tapIr h))

theorem wipeKeys_tapIr (h : TapIs ir s) : TapIs ir (wipeKeys s) := by
  unfold wipeKeys
  extract_lets s1 s2 s3
  have h2 : TapIs ir s2 := setClo_tapIr (abortRuns_tapIr h)
  clear_value s2
  refine setF_tapIr (onThen_tapIr drawMask_tapIr ?_)
  unfold s3
  split
  · exact onThen_tapIr (fun h => startTrial_tapIr (setLk_tapIr h)) h2
  · exact h2

theorem spareFollows_tapIr {k : Nat} (h : TapIs ir s) : TapIs ir (spareFollows k s) := ite_tapIr h h

theorem startOn_tapIr {k : Nat} {w : W32} (h : TapIs ir s) : TapIs ir (startOn k w s) :=
  onThen_tapIr spareFollows_tapIr (adopt_tapIr h)

theorem retireSlice_tapIr {k reason : Nat} (h : TapIs ir s) : TapIs ir (retireSlice k reason s) := by
  unfold retireSlice
  refine ite_tapIr h ?_
  extract_lets s1 s2 s3 p x
  have h1 : TapIs ir s1 := raise_tapIr (setF_tapIr h)
  clear_value s1
  have h3 : TapIs ir s3 := h1
  clear_value s3
  refine ite_tapIr h3 ?_
  split
  · exact h3
  · extract_lets s4 s5
    have h4 : TapIs ir s4 := h3
    have h5 : TapIs ir s5 := ite_tapIr h4 h4
    clear_value s5
    refine setF_tapIr ?_
    split
    · exact h5
    · exact ite_tapIr h5 (ite_tapIr h5 (ite_tapIr h5 (startOn_tapIr h5)))

theorem measBegin_tapIr (h : TapIs ir s) : TapIs ir (measBegin s) :=
  setF_tapIr (setF_tapIr (setF_tapIr (setF_tapIr (setMeas_tapIr (foldl_tapIr (fun _ _ h => h) h)))))

theorem failCws_tapIr {pick : RxFrame → Nat → DecCw → Bool} (h : TapIs ir s) : TapIs ir (failCws pick s) := by
  unfold failCws
  refine foldl_tapIr (fun _ _ h => ite_tapIr (leaveDue_tapIr (maybeEnd_tapIr (foldl_tapIr (fun _ _ h => ?_) h))) h) h
  split <;> exact h

theorem poisonMeets_tapIr {k : Nat × Nat} (h : TapIs ir s) : TapIs ir (poisonMeets k s) := by
  unfold poisonMeets
  split
  · exact failCws_tapIr h
  · split
    · exact failCws_tapIr h
    · exact h
  · exact h
  · exact ite_tapIr h h
  · exact queueReset_tapIr h
  · exact h
  · exact h

theorem poisonOutcome_tapIr {ws : List Nat} (h : TapIs ir s) : TapIs ir (poisonOutcome ws s) :=
  foldl_tapIr (fun _ _ => poisonMeets_tapIr) h

theorem chargeGrant_tapIr {x : HeldAcc} (h : TapIs ir s) : TapIs ir (chargeGrant x s) := ite_tapIr h h

theorem eccReport_tapIr {x : HeldAcc} {e : Nat × EccResult} (h : TapIs ir s) : TapIs ir (eccReport x e s) := by
  unfold eccReport
  split
  extract_lets
  split
  · exact h
  · exact correctedWord_tapIr h
  · exact uncorrectable_tapIr h
  · exact ite_tapIr h (ite_tapIr (clusterFault_tapIr h) h)
  · exact bankFailing_tapIr h

theorem fabricRead_tapIr {x : HeldAcc} (h : TapIs ir s) : TapIs ir (fabricRead x s) :=
  poisonOutcome_tapIr (emit_tapIr (foldl_tapIr (fun _ _ => eccReport_tapIr) h))

theorem fabricWrite_tapIr {x : HeldAcc} (h : TapIs ir s) : TapIs ir (fabricWrite x s) :=
  emit_tapIr (foldl_tapIr (fun _ _ => trWrite_tapIr) (foldl_tapIr (fun _ _ => eccReport_tapIr) h))

theorem fabricAccess_tapIr {x : HeldAcc} (h : TapIs ir s) : TapIs ir (fabricAccess x s) :=
  have charged : TapIs ir (chargeGrant x s) := chargeGrant_tapIr h
  have faulted {client a : Nat} {write : Bool} : TapIs ir (windowFault client a write (chargeGrant x s)) :=
    windowFault_tapIr charged
  ite_tapIr (ite_tapIr (emit_tapIr faulted) (emit_tapIr faulted)) (ite_tapIr (fabricWrite_tapIr charged)
    (fabricRead_tapIr charged))

theorem mcRead_tapIr {a n : Nat} (h : TapIs ir s) : TapIs ir (mcRead a n s).2.2 := poisonOutcome_tapIr h

theorem peekAnswer_tapIr {r : Req} (h : TapIs ir s) : TapIs ir (peekAnswer r s).1 := mcRead_tapIr h

theorem tapRead_tapIr {a : Nat} (h : TapIs ir s) : TapIs ir (tapRead a s) := mcRead_tapIr h

theorem serveAccess_tapIr {x : HeldAcc} (h : TapIs ir s) : TapIs ir (serveAccess x s) := by
  unfold serveAccess
  split
  · exact fabricAccess_tapIr h
  · exact sendReply_tapIr (peekAnswer_tapIr h)
  · exact tapRead_tapIr h

theorem serveHeld_tapIr {r : Nat} (h : TapIs ir s) : TapIs ir (serveHeld r s) := by
  unfold serveHeld
  exact foldl_tapIr (fun _ _ h => (by split; exacts [h, serveAccess_tapIr h])) h

theorem driversOff_tapIr (h : TapIs ir s) : TapIs ir (driversOff s) := foldl_tapIr (fun _ _ => driverOff_tapIr) h

theorem beginReset_tapIr {c : Nat} {ph : Phase} (h : TapIs ir s) : TapIs ir (beginReset c ph s) := by
  unfold beginReset
  extract_lets cause s1
  have h1 : TapIs ir s1 := driversOff_tapIr h
  clear_value s1
  exact h1

theorem revokeKek_tapIr (h : TapIs ir s) : TapIs ir (revokeKek s) := ite_tapIr h h

theorem bankFound_tapIr {answers : Bool} {k : Nat} (h : TapIs ir s) : TapIs ir (bankFound answers k s) :=
  setF_tapIr (bankSwitch_tapIr (bankFailing_tapIr h))

theorem laneFound_tapIr {l2d : Bool} {i : Nat} (h : TapIs ir s) : TapIs ir (laneFound l2d i s) :=
  ite_tapIr (retireSpareLane_tapIr h) (laneFault_tapIr h)

theorem findingsAct_tapIr {f : ResetFindings} (h : TapIs ir s) : TapIs ir (findingsAct f s) :=
  foldl_tapIr (fun _ _ => retireSlice_tapIr) (onThen_tapIr drbgHalts_tapIr (startTest_tapIr (startTest_tapIr (foldl_tapIr
    (fun _ _ => retireEngine_tapIr) (foldl_tapIr (fun _ _ => clusterFault_tapIr) (foldl_tapIr
    (fun _ _ => laneFound_tapIr) (foldl_tapIr (fun _ _ => laneFound_tapIr) (wipeDone_tapIr (foldl_tapIr
    (fun _ _ => bankFound_tapIr) (foldl_tapIr (fun _ _ => bankFound_tapIr) h))))))))))

theorem resetDone_tapIr {func cause result durUs : Nat} (h : TapIs ir s) :
    TapIs ir (resetDone func cause result durUs s) :=
  raise_tapIr h

theorem wholeReset_tapIr {f : ResetFindings} (h : TapIs ir s) : TapIs ir (wholeReset f s) := by
  unfold wholeReset
  extract_lets s1 cause _ s2 lc s3 s4 s5 res s6 s7
  have h1 : TapIs ir s1 := h
  clear_value s1
  refine ite_tapIr h1 ?_
  have h3 : TapIs ir s3 := onThen_tapIr (fun h => wipeKeys_tapIr (revokeKek_tapIr h)) (findingsAct_tapIr h1)
  have h5 : TapIs ir s5 := onThen_tapIr (foldl_tapIr fun _ _ h => h) h3
  have h6 : TapIs ir s6 := h5
  clear_value s6
  have h7 : TapIs ir s7 := by
    unfold s7
    split
    · exact h6
    · exact issue_tapIr h6
  exact emit_tapIr (resetDone_tapIr h7)

theorem emptyQueues_tapIr {f : Nat} {held : Bool} (h : TapIs ir s) : TapIs ir (emptyQueues f held s) :=
  foldl_tapIr (fun _ _ => putQ_tapIr) h

theorem leaveReset_tapIr {f : Nat} (h : TapIs ir s) : TapIs ir (leaveReset f s) :=
  have emptied : TapIs ir (emptyQueues f false (adoptFunc f s)) := emptyQueues_tapIr (adoptFunc_tapIr h)
  ite_tapIr (sieveReset_tapIr (loadPreset_tapIr emptied)) (ite_tapIr (measBegin_tapIr emptied)
    (ite_tapIr (hostDrain_tapIr emptied) (ite_tapIr (onThen_tapIr (fun h => serveHeld_tapIr (setF_tapIr h)) emptied)
    (ite_tapIr emptied emptied))))

theorem testsAbandoned_tapIr (h : TapIs ir s) : TapIs ir (testsAbandoned s) :=
  foldl_tapIr (fun _ _ => onThen_tapIr testEnds_tapIr) h

theorem abandon_tapIr {d : Deferred} (h : TapIs ir s) : TapIs ir (abandon d s) :=
  ite_tapIr (ite_tapIr h h) (ite_tapIr h (ite_tapIr h (ite_tapIr h (ite_tapIr h (ite_tapIr h h)))))

theorem mcForgets_tapIr (h : TapIs ir s) : TapIs ir (mcForgets s) := by
  have h1 : TapIs ir (testsAbandoned s) := testsAbandoned_tapIr h
  unfold mcForgets
  generalize testsAbandoned s = t at h1
  extract_lets l _ _ s2 hostJob s3 s4 runs s5 s6
  have h2 : TapIs ir s2 := foldl_tapIr (fun _ _ => abandon_tapIr) h1
  have h3 : TapIs ir s3 := foldl_tapIr (fun _ _ => onThen_tapIr engRest_tapIr) h2
  clear_value s3
  have h5 : TapIs ir s5 := h3
  have h6 : TapIs ir s6 := foldl_tapIr (fun _ _ => onThen_tapIr leaveReset_tapIr) h5
  clear_value s6
  exact h6

-- The commands that begin a reset, or restart the management controller.

theorem execWholeDeviceReset_tapIr {f : ResetFindings} (h : TapIs ir s) :
    ∃ t, exec (.wholeDeviceReset f) s = .next t ∧ TapIs ir t :=
  ⟨_, rfl, ite_tapIr (wholeReset_tapIr h) (onThen_tapIr (fun h => wholeReset_tapIr (beginReset_tapIr h)) h)⟩

theorem execBrownout_tapIr {rail : Rail} (h : TapIs ir s) : ∃ t, exec (.brownout rail) s = .next t ∧ TapIs ir t :=
  ⟨_, rfl, ite_tapIr h (beginReset_tapIr h)⟩

theorem execResetNLow_tapIr {n : Nat} (h : TapIs ir s) : ∃ t, exec (.resetNLow n) s = .next t ∧ TapIs ir t := by
  have counted : TapIs ir (if 1000 < n ∧ n < 2000 then takeFree 1 s else s) := ite_tapIr h h
  exact ⟨_, rfl, ite_tapIr counted (ite_tapIr counted (beginReset_tapIr counted))⟩

theorem execResetClocksReady_tapIr (h : TapIs ir s) : ∃ t, exec .resetClocksReady s = .next t ∧ TapIs ir t :=
  ⟨_, rfl, ite_tapIr h h⟩

theorem execThermalShutdown_tapIr (h : TapIs ir s) : ∃ t, exec .thermalShutdown s = .next t ∧ TapIs ir t :=
  ⟨_, rfl, onElse_tapIr beginReset_tapIr h⟩

theorem execThermalRecovery_tapIr (h : TapIs ir s) : ∃ t, exec .thermalRecovery s = .next t ∧ TapIs ir t :=
  ⟨_, rfl, ite_tapIr h h⟩

theorem execMcLockstepMismatch_tapIr (h : TapIs ir s) : ∃ t, exec .mcLockstepMismatch s = .next t ∧ TapIs ir t :=
  ⟨_, rfl, onElse_tapIr (fun h => ite_tapIr (beginReset_tapIr h) (setPw_tapIr (mcForgets_tapIr h))) h⟩

theorem execWakeCharacters_tapIr {a b : Byte} (h : TapIs ir s) :
    ∃ t, exec (.wakeCharacters a b) s = .next t ∧ TapIs ir t :=
  ⟨_, rfl, onThen_tapIr beginReset_tapIr h⟩

theorem execLifeCycleCommit_tapIr {f : ResetFindings} (h : TapIs ir s) :
    ∃ t, exec (.lifeCycleCommit f) s = .next t ∧ TapIs ir t := by
  refine ⟨_, rfl, ?_⟩
  split
  · exact h
  · refine ite_tapIr h ?_
    extract_lets old _ _ s1 s2 s3
    have h1 : TapIs ir s1 := h
    clear_value s1
    have h2 : TapIs ir s2 := onThen_tapIr (fun h => wipeKeys_tapIr (revokeKek_tapIr h)) h1
    clear_value s2
    exact wholeReset_tapIr (beginReset_tapIr h2)

end walk

/-- Whether the test port holds the pins is a matter of its instruction. -/
theorem tapHold_of_tapIr {s t : State} (h : t.svc.tapIr = s.svc.tapIr) : tapHold t = tapHold s := by
  unfold tapHold
  rw [h]

/-- Settles O15: the port's own reset and the power supply select IDCODE, and every other reset leaves the instruction. -/
theorem noOtherResetReachesTheTestPort : Obligations.NoOtherResetReachesTheTestPort := by
  unfold Obligations.NoOtherResetReachesTheTestPort
  refine ⟨?tapReset, ?powerOn, ?others⟩
  case tapReset =>
    intro s t hexec
    obtain rfl := Host.Outcome.next.inj hexec
    exact ⟨rfl, rfl⟩
  case powerOn =>
    intro s t hexec
    obtain rfl := Host.Outcome.next.inj hexec
    rfl
  case others =>
    intro s t c hexec hc
    have kept : ∃ u, exec c s = .next u ∧ TapIs s.svc.tapIr u := by
      have h : TapIs s.svc.tapIr s := rfl
      obtain ⟨f, rfl⟩ | ⟨x, rfl⟩ | ⟨n, rfl⟩ | rfl | rfl | rfl | ⟨f, rfl⟩ | ⟨a, b, rfl⟩ | rfl := hc
      · exact execWholeDeviceReset_tapIr h
      · exact execBrownout_tapIr h
      · exact execResetNLow_tapIr h
      · exact execThermalShutdown_tapIr h
      · exact execThermalRecovery_tapIr h
      · exact execMcLockstepMismatch_tapIr h
      · exact execLifeCycleCommit_tapIr h
      · exact execWakeCharacters_tapIr h
      · exact execResetClocksReady_tapIr h
    obtain ⟨u, hu, htap⟩ := kept
    obtain rfl : u = t := Host.Outcome.next.inj (hu.symm.trans hexec)
    have same : u.svc.tapIr = s.svc.tapIr := htap
    exact ⟨same, tapHold_of_tapIr same⟩

end Sys2Proof.Machine
end
